-- ==== Sys2Proof/Word.lean ====
section
/-! DEFINITION. Word types and their plainest arithmetic (R8: bits are numbered from 0 at the least significant end,
multi-byte data is little-endian). -/

namespace Sys2Proof

/-- A 64-bit scalar word. -/
abbrev W64 := BitVec 64
/-- A byte. -/
abbrev Byte := BitVec 8
/-- A vector register: 32 lanes of 64 bits (R127). -/
abbrev V2048 := BitVec 2048
/-- A wide-sum register: one WS64 value, or a WS32 value in bits 383:0 (R54). -/
abbrev WSum := BitVec 2304
/-- A taint set: bit k for load id k (R26). -/
abbrev Taint := BitVec 16

/-- Field `lo .. lo+len-1` of a number. -/
def natField (n lo len : Nat) : Nat := (n >>> lo) % 2 ^ len

/-- The value of one bit of a number. -/
def natBit (n i : Nat) : Bool := (n >>> i) % 2 == 1

/-- Replace field `lo .. lo+len-1` of a number by the low `len` bits of `v`. -/
def natSetField (n lo len v : Nat) : Nat :=
  n - (natField n lo len) * 2 ^ lo + (v % 2 ^ len) * 2 ^ lo

/-- The two's complement value of the low `w` bits of `n`. -/
def signedVal (w n : Nat) : Int :=
  let m := n % 2 ^ w
  if w ≠ 0 ∧ 2 ^ (w - 1) ≤ m then (m : Int) - (2 ^ w : Nat) else m

/-- An integer reduced modulo `2^w` (R35). -/
def wrapInt (w : Nat) (z : Int) : Nat := (z % ((2 ^ w : Nat) : Int)).toNat

/-- Little-endian bytes to a number. -/
def bytesToNat : List Byte → Nat
  | [] => 0
  | b :: bs => b.toNat + 256 * bytesToNat bs

/-- The `n` little-endian bytes of a number. -/
def natToBytes : Nat → Nat → List Byte
  | 0, _ => []
  | n + 1, v => BitVec.ofNat 8 v :: natToBytes n (v / 256)

/-- `⌊a / b⌋` rounded up. -/
def ceilDiv (a b : Nat) : Nat := (a + b - 1) / b

/-- One more than the position of the highest set bit; 0 for 0. -/
def bitLen (n : Nat) : Nat := if n = 0 then 0 else Nat.log2 n + 1

/-- Number of set bits among bits `0 .. w-1`. -/
def popCount : Nat → Nat → Nat
  | 0, _ => 0
  | w + 1, n => popCount w (n / 2) + n % 2

/-- Index of the lowest set bit among bits `0 .. w-1`, or `w` when there is none. -/
def lowestBit : Nat → Nat → Nat
  | 0, _ => 0
  | w + 1, n => if n % 2 = 1 then 0 else 1 + lowestBit w (n / 2)

/-- The indices of the set bits among bits `0 .. w-1`, ascending. -/
def setBits (w n : Nat) : List Nat := (List.range w).filter (fun i => natBit n i)

end Sys2Proof
end

