-- ==== Sys2Proof/Config.lean ====
section
/-! DEFINITION. What the spec leaves open as a value, and the cryptographic functions it names without defining them,
as constants without a body. Free values are applied to a counter of the state (State.draws), so each use is a value
nothing constrains; no statement can depend on one. -/

namespace Sys2Proof.Config

/-- A free choice between two outcomes (R24, R42, R78, R224, R280, R293, R379, R413). -/
opaque freeBool : Nat → Bool

/-- A free number, cut to its range where it is used: where in its write order a cancelled card stops (R250, R251). -/
opaque freeNat : Nat → Nat

/-- Which of two values written to an aligned 8-byte word of a local array stands: a free choice for the word under a
number (R164, R296). -/
opaque freeWord : Nat → Nat → Bool

/-- Where the bytes of a value lie in an area of the save whose contents the spec names without laying them out: the area
and the contents, as numbers in the order that Save.lean gives them (R334). (DESIGN CHOICE, log 101.) -/
opaque saveLayout : Nat → List Nat → Nat

/-- The set in which the L2 slices of a stack, and its memory-side cache, keep a line of a buffer: no rule gives the index
(R3). (DESIGN CHOICE, log 128.) -/
opaque l2Set : Nat → Nat → Nat
opaque mscSet : Nat → Nat → Nat

/-- The digest that the device reports of its own firmware and of public values (SHA-512, R351 to R355, R412).
(DESIGN CHOICE, log 16.) -/
opaque sha512 : List Nat → Nat

/-- AES-KW unwrapping of a blob under a key; none when the check value fails (R356, R359). -/
opaque unwrap : Nat → Nat → Option Nat

/-- AES-KW wrapping of a key-store entry under a key (R350, R359). -/
opaque wrap : Nat → Nat → Nat

/-- Key 0 of the key store, the device's own for partition 0 (R350). -/
opaque deviceKey : Nat

/-- The seal key of a hibernation, from the device root key and SEQ (R392). -/
opaque sealKey : Nat → Nat

/-- RSASSA-PSS verification: public key, digest, signature (R307, R356, R361, R417). -/
opaque sigOk : Nat → Nat → Nat → Bool

/-- The device's RSASSA-PSS signature of a digest (R351, R391, R412, R416). -/
opaque sign : Nat → Nat

/-- HMAC-SHA-512 of a token's fields under a session's token key, cut to 16 bytes (R354). -/
opaque tokenMac : Nat → List Nat → Nat

/-- The payload of an SPDM response: function, request code, arguments (R351). -/
opaque spdmPayload : Nat → Nat → List Nat → Nat

/-- Whether the SPDM sessions that two modules open with each other, each as requester and responder in turn, authenticate
both by their device certificates, and the wrapping key that follows from them (R359). -/
opaque peerAuth : Nat → Bool
opaque migrKey : Nat → Nat

/-- The public key of a peer module in a migration (R359, R361). -/
opaque peerKey : Nat

/-- Where the header of a graph image gives the counts of its four tables, in the order of R308, is not stated.
(DESIGN CHOICE, log 33.) -/
opaque graphCounts : Nat → Nat × Nat × Nat × Nat

/-- The fields of an 8-byte patch point: node, byte offset in its record, length, offset in PATCH (R308). -/
opaque graphPatch : Nat → Nat × Nat × Nat × Nat

/-- The fields of an 8-byte memory-plan entry: buffer index, minimum length in units of 192 bytes (R308). -/
opaque graphPlan : Nat → Nat × Nat

/-- The physical location of a byte of a frame: frame number, stack, pseudo-channel index, byte in the frame (R207; R412
gives LOC no bit layout). (DESIGN CHOICE, log 50.) -/
opaque location : Nat → Nat → Nat → Nat → Nat

/-- The row of a location, the bank of a row, the frame that holds a row and the frames that a bank serves, each as device
(stack, or 0 for SCM) and frame number (R415). -/
opaque rowOf : Nat → Nat
opaque bankOf : Nat → Nat
opaque frameOf : Nat → Nat × Nat
opaque bankFrames : Nat → List (Nat × Nat)

/-- The location of an event outside the memories, from its SRC and its coordinates (R412). -/
opaque logicLoc : Nat → List Nat → Nat

/-- Whether a new firmware image accepts the handed-over structure of a VERSION (R417). -/
opaque versionOk : Nat → Nat → Bool

/-- The Krytwald firmware key, under which an image is signed (R417). -/
opaque fwKey : Nat

/-- The hottest junction temperature of a region, in °C, in a period of 1,000 reference ticks (R409). -/
opaque temperature : Nat → Nat → Int

/-- Whether another module answers in a reference tick: its links, the routes to it and its supply are not this module's
(R369, R372, R382). -/
opaque peerUp : Nat → Nat → Bool

/-- The serial number of the module (R412). -/
opaque serial : Nat

end Sys2Proof.Config
end

