-- ==== Sys2Proof/Machine/Gmac.lean ====
section
/-! DEFINITION. AES-256-GMAC, the tag of a code block (R74). The spec names the function; its computation is that of FIPS 197
and NIST SP 800-38D. (PRESUMED, log 107.) -/

namespace Sys2Proof.Machine

open Sys2Proof

/-! ### The field of AES -/

/-- Twice an element. -/
def aesDouble (a : Nat) : Nat := if 128 ≤ a then (2 * a) ^^^ 0x11B else 2 * a

/-- The product of two elements, over the low `k` bits of `b`. -/
def aesMul : Nat → Nat → Nat → Nat
  | 0, _, _ => 0
  | k + 1, a, b => (if b % 2 = 1 then a else 0) ^^^ aesMul k (aesDouble a) (b / 2)

/-- The inverse, `a^254`, with 0 for 0: the product of `a^(2^j)` for j in 1..7. -/
def aesInv (a : Nat) : Nat :=
  ((List.range 7).foldl (fun (x : Nat × Nat) _ =>
    let q := aesMul 8 x.1 x.1
    (q, aesMul 8 x.2 q)) (a, 1)).2

/-- The S-box. -/
def aesSbox (a : Nat) : Nat :=
  let b := aesInv a
  let rot := fun (k : Nat) => b * 2 ^ k % 256 + b / 2 ^ (8 - k)
  b ^^^ rot 1 ^^^ rot 2 ^^^ rot 3 ^^^ rot 4 ^^^ 0x63

/-! ### AES-256 -/

def xorBytes (a b : List Nat) : List Nat := a.zipWith (· ^^^ ·) b

/-- `n` more words of the key schedule; the words so far stand with the newest first, `i` of them. -/
def aesExpand : Nat → Nat → Nat → List (List Nat) → List (List Nat)
  | 0, _, _, l => l.reverse
  | n + 1, i, rcon, l =>
    let prev := (l.head?).getD []
    let t := if i % 8 = 0 then xorBytes ((prev.drop 1 ++ prev.take 1).map aesSbox) [rcon, 0, 0, 0]
      else if i % 8 = 4 then prev.map aesSbox
      else prev
    aesExpand n (i + 1) (if i % 8 = 0 then aesDouble rcon else rcon) (xorBytes ((l[7]?).getD []) t :: l)

/-- The 15 round keys of a 32-byte key. -/
def aesKeys (key : List Nat) : List (List Nat) :=
  let w := aesExpand 52 8 1 ((List.range 8).map (fun k => (key.drop (4 * k)).take 4)).reverse
  (List.range 15).map (fun r => ((w.drop (4 * r)).take 4).flatten)

/-- Row r of the state moves left by r columns. -/
def aesShift (b : List Nat) : List Nat := (List.range 16).map (fun k => (b[(k + 4 * (k % 4)) % 16]?).getD 0)

/-- Every column is multiplied by (2, 3, 1, 1). -/
def aesMix (b : List Nat) : List Nat :=
  (List.range 16).map (fun k =>
    let at_ := fun (j : Nat) => (b[k / 4 * 4 + (k + j) % 4]?).getD 0
    aesDouble (at_ 0) ^^^ aesDouble (at_ 1) ^^^ at_ 1 ^^^ at_ 2 ^^^ at_ 3)

/-- The rounds of a block under the round keys that are left. -/
def aesRounds : List (List Nat) → List Nat → List Nat
  | [], b => b
  | [k], b => xorBytes (aesShift (b.map aesSbox)) k
  | k :: r, b => aesRounds r (xorBytes (aesMix (aesShift (b.map aesSbox))) k)

/-- One block of 16 bytes enciphered. -/
def aesBlock (keys : List (List Nat)) (b : List Nat) : List Nat :=
  match keys with
  | [] => b
  | k :: r => aesRounds r (xorBytes b k)

/-! ### GMAC -/

/-- Bytes as a number, the first byte highest. -/
def bigEndian (b : List Nat) : Nat := b.foldl (fun n x => 256 * n + x) 0

/-- The product of GHASH: bit 127 of a number is the coefficient of the constant term. -/
def ghashMul : Nat → Nat → Nat → Nat
  | 0, _, _ => 0
  | k + 1, x, v => (if natBit x k then v else 0) ^^^ ghashMul k x (if v % 2 = 1 then (v / 2) ^^^ (0xE1 * 2 ^ 120) else v / 2)

/-- GHASH of whole blocks of additional data, and of their length. -/
def ghash (h : Nat) (aad : List Nat) : Nat :=
  let blocks := (List.range (aad.length / 16)).map (fun k => bigEndian ((aad.drop (16 * k)).take 16))
  (blocks ++ [8 * aad.length * 2 ^ 64]).foldl (fun y x => ghashMul 128 (y ^^^ x) h) 0

/-- The tag of additional data of whole blocks under a 32-byte key and a 12-byte initialisation vector, as a number with
the first byte highest. -/
def gmac (key iv aad : List Nat) : Nat :=
  let ks := aesKeys key
  ghash (bigEndian (aesBlock ks (List.replicate 16 0))) aad ^^^ bigEndian (aesBlock ks (iv ++ [0, 0, 0, 1]))

/-- The 16 tag bytes of a block: the block key, the segment nonce followed by the block number, bytes 0..1,007 (R74). -/
def blockTag (key : Nat) (nonce : W64) (n : Nat) (bytes : List Byte) : List Byte :=
  let nat := fun (l : List Byte) => l.map BitVec.toNat
  (natToBytes 16 (gmac (nat (natToBytes 32 key)) (nat (natToBytes 8 nonce.toNat ++ natToBytes 4 n)) (nat bytes))).reverse

end Sys2Proof.Machine
end

