-- ==== Sys2Proof/Types.lean ====
section
/-! DEFINITION. The operand vocabulary of the instruction words: units, types, source codings and the named
choices that an entry's fields select (R12, R22, R34, R37, R66, R67). Their codes are in Decode.lean. -/

namespace Sys2Proof

/-- The eight units, in the order of their codes 0..7 (R12). -/
inductive UnitId where
  | C | A | I | VA | VB | M | K | S
deriving DecidableEq, Repr

/-- The two copies of the vector unit (chapter 05). -/
inductive VUnit where
  | va | vb
deriving DecidableEq, Repr

def VUnit.unit : VUnit → UnitId
  | .va => .VA | .vb => .VB

/-- The units that have `keep`, `xput`, `tclr` and `tdep`, a load-data queue and a store-data queue (R122, R225). -/
inductive DUnit where
  | a | i | va | vb
deriving DecidableEq, Repr

def DUnit.unit : DUnit → UnitId
  | .a => .A | .i => .I | .va => .VA | .vb => .VB

def VUnit.dunit : VUnit → DUnit
  | .va => .va | .vb => .vb

/-- Element widths 8, 16, 32, 64 (R34); the code is T[1:0]. -/
inductive Width where
  | w8 | w16 | w32 | w64
deriving DecidableEq, Repr

def Width.bits : Width → Nat
  | .w8 => 8 | .w16 => 16 | .w32 => 32 | .w64 => 64

def Width.bytes : Width → Nat
  | .w8 => 1 | .w16 => 2 | .w32 => 4 | .w64 => 8

/-- Class X: an integer type, unsigned (`.n`) or signed (`.i`) (R66). -/
structure XType where
  uns : Bool
  w : Width
deriving DecidableEq, Repr

/-- Class F: the IEEE formats `.h`, `.b`, `.s`, `.d` (R37). -/
inductive FType where
  | h | b | s | d
deriving DecidableEq, Repr

def FType.width : FType → Width
  | .h => .w16 | .b => .w16 | .s => .w32 | .d => .w64

/-- Class W: an integer width or an IEEE format (R66). -/
inductive WType where
  | int (w : Width)
  | fp (f : FType)
deriving DecidableEq, Repr

def WType.width : WType → Width
  | .int w => w
  | .fp f => f.width

/-- A 7-bit source coding (R22): level 00 and 01 (`trap` set) name a main-file entry, level 10 a small-file entry,
the latch, the head of the load-data queue or zero, level 11 a signed 5-bit immediate. -/
inductive Src where
  | main (n : BitVec 5) (trap : Bool)
  | small (n : BitVec 2)
  | latch
  | queue
  | zero
  | imm (v : BitVec 5)
deriving DecidableEq, Repr

/-- Mask selectors of field B (R129). -/
inductive MaskSel where
  | all
  | m (n : BitVec 3)
deriving DecidableEq, Repr

/-- Modes of `pset` (R104). -/
inductive PsetMode where
  | bit | z | nz
deriving DecidableEq, Repr

/-- Conditions of `acmp` (R111). -/
inductive ACond where
  | eq | ne | lt | ltu
deriving DecidableEq, Repr

/-- Conditions of `cmp` and of integer `vcmp` (R116, R139). -/
inductive ICond where
  | eq | ne | lt | le
deriving DecidableEq, Repr

/-- Conditions of IEEE `vcmp` (R139). -/
inductive FCond where
  | eq | lt | le | un
deriving DecidableEq, Repr

/-- Rounding selections: dynamic or static (R40, R121). -/
inductive RSel where
  | dyn | rne | rtz | rup | rdn | rto
deriving DecidableEq, Repr

/-- Conversion codes of `fcvt` (R121). -/
inductive CvtCode where
  | i32 | i64 | n32 | n64 | h | b | s | d
deriving DecidableEq, Repr

/-- Pairs of `vpack` and `vunpk`, by the T code (R147). -/
inductive PackPair where
  | ds | sh | sb | hq | bq | i64 | i32 | i16
deriving DecidableEq, Repr

/-- Element types and sums of `wsadd` (R150). -/
inductive WsAddTy where
  | h32 | b32 | s32 | h64 | b64 | s64 | d64
deriving DecidableEq, Repr

/-- Targets of `wsrnd` (R151). -/
inductive WsRndTy where
  | h32 | b32 | s32 | s64 | d64
deriving DecidableEq, Repr

/-- Kinds of `vld` and `vst` (R228): whole lanes, a wide-sum image, or lanes in the `.z` form. -/
inductive VKind where
  | lanes | ws32 | ws64
  | z (m : BitVec 2)
deriving DecidableEq, Repr

/-- Kinds of `vldg` and `vsts` (R228). -/
inductive GKind where
  | lanes
  | z (m : BitVec 2)
deriving DecidableEq, Repr

/-- Scopes (R226, R271). -/
inductive Scope where
  | co | cl | di | pk | dom | sy
deriving DecidableEq, Repr

/-- Orderings of atomics (R226). -/
inductive Ordering4 where
  | rlx | acq | rel | ar
deriving DecidableEq, Repr

def Ordering4.isRel : Ordering4 → Bool
  | .rel => true | .ar => true | .rlx => false | .acq => false
def Ordering4.isAcq : Ordering4 → Bool
  | .acq => true | .ar => true | .rlx => false | .rel => false

/-- Kinds of `fence` by its T code (R234). -/
inductive FenceKind where
  | acq | rel | ar
deriving DecidableEq, Repr

/-- Targets of `xput` (R123, R154). -/
inductive XTgt where
  | c | a | i | va | vb | k
deriving DecidableEq, Repr

/-- Selectors of `cget` (R215). -/
inductive CapSel where
  | cursor | base | top | perms | gen | index | tag | length | exp
deriving DecidableEq, Repr

/-- Forms of `mwrite` by its T code (R179). -/
inductive MwForm where
  | single | pair | bc
deriving DecidableEq, Repr

/-- Levels of `kpf` (R253). -/
inductive PfLevel where
  | l2 | cc | l1 | msc
deriving DecidableEq, Repr

/-- Operations and element kinds of `kcoll` (R373). -/
inductive CollOp where
  | ar | rs | ag | bc
deriving DecidableEq, Repr

inductive CollKind where
  | fp | ws32 | ws64
deriving DecidableEq, Repr

end Sys2Proof
end

