-- ==== Sys2Proof/Syntax.lean ====
section
/-! DEFINITION. The instructions: one constructor per row of spec/opcode_table.json. The constructors up to `kstat`
are the instruction words (their operands are the fields of the word, without the stop bit). The constructors after
them are the events of the device and the requests of its host that the table lists as rows; they have no encoding
and reach the machine through its agenda (State.agenda). -/

namespace Sys2Proof

/-! ### What the events carry -/

/-- The stops of R323: pre-emption, power failure, brown-out. -/
inductive StopCode where
  | preempt | pwrf | brown
deriving DecidableEq, Repr

def StopCode.num : StopCode → Nat
  | .preempt => 0x20 | .pwrf => 0x21 | .brown => 0x22

/-- What orders a host request (R280): PCIe of a traffic class, with or without Relaxed Ordering, or CXL.mem. -/
inductive HostOrder where
  | pcie (cls : Nat) (relaxed : Bool)
  | cxlMem
deriving DecidableEq, Repr

/-- A host request: the function it names, the host address and length, whether it arrived on that function's IDE stream, the
T bit of its TLP, its port and what orders it (R280, R362, R363). -/
structure HostReq where
  fn : Nat
  addr : Nat
  len : Nat
  ide : Bool
  tbit : Bool
  port : Nat
  order : HostOrder
deriving DecidableEq, Repr

/-- A memory operation of a Waras packet (R281, R366, R370): a read, a write with its granule tags, an integer atomic,
or a compare-and-swap. -/
inductive PeerOp where
  | read (len : Nat)
  | write (data : List Byte) (tags : List Bool)
  | add (size v : Nat)
  | swap (size v : Nat)
  | cas (size old new : Nat)
deriving DecidableEq, Repr

/-- A memory request of a peer to a home on this module. -/
structure PeerReq where
  src : Nat
  asid : Nat
  index : Nat
  off : Nat
  world : Bool
  op : PeerOp
deriving DecidableEq, Repr

/-- A link that has trained; where the domain is formed with it, the fabric manager's assignment of this module's number and
the number of modules (R365). -/
structure LinkTrain where
  num : Nat
  dom : Option (Nat × Nat)
deriving DecidableEq, Repr

/-- A member state of a collective group (R372). -/
inductive MState where
  | active
  | paused (n : Nat)
  | missing
  | faulted
deriving DecidableEq, Repr

/-- What a peer's link engine says of a group member (R372, R376, R379, R420): its state, a question for this member's state,
in the completion round that it has written the DST of the job of a step, that its job of a step has ended in a fault of
its own, or, to a RESUME, its own received map for the job and its phase. -/
inductive MemberMsg where
  | state (st : MState)
  | ask
  | written (step : Nat)
  | jobFault (step : Nat)
  | rejoined (step : Nat) (map : List (Nat × Nat)) (phase : Nat)
deriving DecidableEq, Repr

/-- What a member announces of its job with its first segment (R373, R379). -/
structure CollDecl where
  step : Nat
  op : CollOp
  kind : CollKind
  elem : Nat
  count : Nat
  root : Nat
deriving DecidableEq, Repr

/-- The locked items of a partition, in the order of R352. -/
inductive LockedItem where
  | clusters | asids | deal | key (k : BitVec 2) | retry | sched
deriving DecidableEq, Repr

/-- The value of a locked item (R352): cluster numbers with the world, ASIDs, deal-table slots (port class, port, slot),
an image-signing key, the retry window in seconds, LEVEL and WEIGHT. -/
inductive LockedValue where
  | clusters (l : List Nat) (world : Bool)
  | asids (l : List Nat)
  | deal (l : List (Nat × Nat × Nat))
  | key (v : Nat)
  | retry (s : Nat)
  | sched (level weight : Nat)
deriving DecidableEq, Repr

/-- A write token (R354). -/
structure Token where
  item : Nat
  part : Nat
  mgen : Nat
  seq : Nat
  vhash : Nat
  mac : Nat
deriving DecidableEq, Repr

/-- SPDM requests that the responder serves (R351). -/
inductive SpdmReq where
  | getVersion | getCapabilities | negotiate | getDigests | getCertificate
  | challenge (nonce : Nat)
  | getMeasurements (index : Nat) (nonce : Nat)
  | keyExchange (share : Nat)
  | finish
  | ideKeys
  | heartbeat
  | endSession
deriving DecidableEq, Repr

/-- Why a TDI moves to ERROR (R348). -/
inductive TdiErr where
  | ideFailure | integrity | lockedWrite | sessionEnd
deriving DecidableEq, Repr

/-- Sources of an error-journal entry (R412). -/
inductive JSrc where
  | hbm | scm | l2 | msc | clusterCache | localArray | grist | link | regulator | thermal | controller
deriving DecidableEq, Repr

/-- Who reads an uncorrectable sector (R414). -/
inductive UncReader where
  | access (k : Nat)
  | card (k : Nat)
  | host
  | racking
  | scrub
deriving DecidableEq, Repr

/-- Sensors of the thermal cut (R410), with the two further causes that mgmt.cutcause latches (R418). -/
inductive CutSensor where
  | junction (stack : Nat)
  | board
  | reserve
  | overvoltage
deriving DecidableEq, Repr

/-- Places that a sparge sweep visits outside the core pause (R343): a buffer's granules at home, a line of a cluster
cache or an L1, a local-array bank. -/
inductive SweepPlace where
  | granules (map lo n : Nat)
  | line (map line : Nat)
  | bank (core bank : Nat)
deriving DecidableEq, Repr

/-- Registers that a plain register access reaches (R10, R301, R355, R362, R418): those of a stream by their offset, the HDM
decoders of a host port, and those of the physical function. -/
inductive MgmtReg where
  | cmd (stream off : Nat)
  | hdm (port k : Nat)
  | cmdBase (stream : Nat)
  | cmdCqbase (stream : Nat)
  | status
  | cutcause
  | therm
  | hib
  | migr
  | scrub
  | fw
  | part (p : Nat)
  | deal (cls port : Nat)
  | group (gid : Nat)
  | tokStage
  | itemStage (item : LockedItem)
  | ro (offset : Nat)
deriving DecidableEq, Repr

/-- What a register access carries: nothing for a read; for a write a plain value, an assignment, a deal table, a staged item,
or a host window as its function, host address, ASID and buffer index. -/
inductive MgmtVal where
  | read
  | window (w : Option (Nat × Nat × Nat × Nat))
  | word (v : Nat)
  | therm (dleak dthr dstep pcap : Nat)
  | hib (vbrown vret : Nat) (order : List Nat) (eseal erestart : Nat)
  | migr (wacc wlink fmin pfull : Nat)
  | assign (clusters : List Nat) (asids : List Nat)
  | slots (l : List (Option Nat))
  | item (v : LockedValue)
  | token (t : Token)
deriving DecidableEq, Repr

/-- A physical range named by a scrub request: a stack or SCM device, a first frame, a frame count (R416). -/
structure PhysRange where
  scm : Bool
  dev : Nat
  first : Nat
  count : Nat
deriving DecidableEq, Repr

/-- One key in transit between modules: its index in the source's key store and the buffers it encrypts, by ASID and
index (R359). -/
structure WrappedKey where
  index : Nat
  blob : Nat
  bufs : List (Nat × Nat)
deriving DecidableEq, Repr

/-- What a destination module receives during a migration (R359, R361): the wrapped keys with the buffers' contents, as ASID,
index and byte of the buffer, or the source's answer that the window has ended. -/
inductive MigrIn where
  | keys (l : List WrappedKey) (data : List (Nat × Nat × Nat × Byte))
  | late
deriving DecidableEq, Repr

/-- One constructor per row of spec/opcode_table.json. -/
inductive Instr where
  /-- `nop` (R14): Nop word of a unit; it has no effect and occupies no unit. -/
  | nop (u : UnitId)
  /-- `bra` (R98): Conditional branch to a displacement target; adds the predicate's taint to the path taint. -/
  | bra (p : BitVec 3) (n : Bool) (disp : BitVec 18)
  /-- `br` (R98): Conditional branch to a target held in a register. -/
  | br (p : BitVec 3) (n : Bool) (a : Src)
  /-- `call` (R98): Conditional call that pushes the sequential successor onto the return stack. -/
  | call (p : BitVec 3) (n : Bool) (disp : BitVec 18)
  /-- `ret` (R98): Conditional return that pops the return stack. -/
  | ret (p : BitVec 3) (n : Bool)
  /-- `lset` (R100): Sets a loop counter from a source plus an immediate, at latency 1. -/
  | lset (l : BitVec 2) (a : Src) (imm : BitVec 10)
  /-- `lend` (R101): Decrements a nonzero loop counter and branches while the new value is nonzero. -/
  | lend (l : BitVec 2) (disp : BitVec 18)
  /-- `pand` (R103): ANDs two predicates into a predicate. -/
  | pand (d : BitVec 3) (a : Src) (b : Src)
  /-- `por` (R103): ORs two predicates into a predicate. -/
  | por (d : BitVec 3) (a : Src) (b : Src)
  /-- `pxor` (R103): XORs two predicates into a predicate. -/
  | pxor (d : BitVec 3) (a : Src) (b : Src)
  /-- `pnot` (R103): Inverts a predicate into a predicate. -/
  | pnot (d : BitVec 3) (a : Src)
  /-- `pset` (R104): Sets a predicate from a bit, zero or nonzero test of a C-unit value. -/
  | pset (d : BitVec 3) (a : Src) (mode : PsetMode) (k : BitVec 6)
  /-- `wany` (R256): Places into a predicate whether any masked done bit is set. -/
  | wanyTest (d : BitVec 3) (a : Src)
  /-- `wany.w` (R256): Holds the bundle until some masked done bit is sampled set. -/
  | wanyWait (a : Src)
  /-- `wall` (R256): Places into a predicate whether all masked done bits are set. -/
  | wallTest (d : BitVec 3) (a : Src)
  /-- `wall.w` (R256): Holds the bundle until all masked done bits are sampled set. -/
  | wallWait (a : Src)
  /-- `ffd` (R257): Finds the index of the lowest set done bit under a mask, or 64 when none is set. -/
  | ffd (d : BitVec 3) (a : Src)
  /-- `dclr` (R257): Clears the masked done bits at the end of the issuing cycle. -/
  | dclr (a : Src)
  /-- `bar` (R292): Arrives at a CL or launch barrier with a release and waits for the generation to close. -/
  | bar (b : BitVec 2) (launch : Bool) (a : Src)
  /-- `susp` (R288): Saves the live set into the frame, parks the record with a join count and waits for the next record. -/
  | susp (n : BitVec 3) (a : Src) (b : Src)
  /-- `pick` (R287): Ends the continuation with a release, frees its slot and waits for the next record. -/
  | pick
  /-- `spawn` (R286): Hands the context's stage to the pool as a new record, as an acquire-release atomic at PK. -/
  | spawn
  /-- `join` (R290): Decrements the join counter of a named pool slot with a release at PK. -/
  | join (a : Src)
  /-- `join.l` (R290): Decrements the join counter of the slot named by sy.cont.LINK. -/
  | joinL
  /-- `yield` (R105): Gives up to 1,024 issue cycles to the other context. -/
  | yield (a : Src)
  /-- `trap` (R329): Raises SWTRAP after the bundle when the predicate condition holds. -/
  | trap (p : BitVec 3) (n : Bool) (a : Src) (code : BitVec 10)
  /-- `rett` (R330): Leaves handler mode and resumes at RADDR. -/
  | rett
  /-- `rett.skip` (R330): Leaves handler mode at the sequential successor of the trapped bundle. -/
  | rettSkip
  /-- `rett.goto` (R330): Leaves handler mode at a target taken from a source. -/
  | rettGoto (a : Src)
  /-- `rett.abort` (R330): Ends the context as a fatal fault and keeps the existing fault record. -/
  | rettAbort
  /-- `halt` (R106): Ends the context; issued stores perform and issued cards run to completion. -/
  | halt
  /-- `stepmark` (R331): Records a step number in sy.step. -/
  | stepmark (a : Src)
  /-- `sysr` (R107): Reads a system register into a g register at latency 1. -/
  | sysr (d : BitVec 3) (num : BitVec 17)
  /-- `sysw` (R107): Writes a g register to a system register under its access codes. -/
  | sysw (d : BitVec 3) (num : BitVec 17)
  /-- `aadd` (R110): Adds two a-file values modulo 2^64. -/
  | aadd (d : BitVec 5) (a : Src) (b : Src)
  /-- `asub` (R110): Subtracts two a-file values modulo 2^64. -/
  | asub (d : BitVec 5) (a : Src) (b : Src)
  /-- `ashl` (R110): Shifts an a-file value left. -/
  | ashl (d : BitVec 5) (a : Src) (b : Src)
  /-- `ashr` (R110): Shifts an a-file value right arithmetically. -/
  | ashr (d : BitVec 5) (a : Src) (b : Src)
  /-- `aand` (R110): ANDs two a-file values. -/
  | aand (d : BitVec 5) (a : Src) (b : Src)
  /-- `aor` (R110): ORs two a-file values. -/
  | aor (d : BitVec 5) (a : Src) (b : Src)
  /-- `aaddi` (R110): Adds a sign-extended immediate to an a-file value. -/
  | aaddi (d : BitVec 5) (a : Src) (imm : BitVec 10)
  /-- `amovi` (R110): Moves a sign-extended 17-bit immediate into an a register. -/
  | amovi (d : BitVec 5) (imm : BitVec 17)
  /-- `amovh` (R110): Shifts an a register left by 16 and ORs in a 16-bit immediate. -/
  | amovh (d : BitVec 5) (imm : BitVec 16)
  /-- `acmp` (R111): Compares two a-file values into a C-unit predicate. -/
  | acmp (cond : ACond) (d : BitVec 3) (a : Src) (b : Src)
  /-- `cmov` (R211): Copies a capability together with its tag. -/
  | cmov (d : BitVec 4) (a : Src)
  /-- `cclr` (R211): Copies a capability with its tag cleared. -/
  | cclr (d : BitVec 4) (a : Src)
  /-- `ccur` (R212): Sets the cursor of a capability. -/
  | ccur (d : BitVec 4) (a : Src) (b : Src)
  /-- `cinc` (R212): Moves the cursor of a capability by a signed amount. -/
  | cinc (d : BitVec 4) (a : Src) (b : Src)
  /-- `cbnd` (R213): Narrows bounds to start at the cursor, exactly, or traps REPRESENT. -/
  | cbnd (d : BitVec 4) (a : Src) (b : Src)
  /-- `cbndr` (R213): Narrows bounds to start at the cursor, rounding inward. -/
  | cbndr (d : BitVec 4) (a : Src) (b : Src)
  /-- `cperm` (R214): Clears permissions of a capability by a mask. -/
  | cperm (d : BitVec 4) (a : Src) (mask : BitVec 8)
  /-- `cget` (R215): Reads one field of a capability into a scalar register. -/
  | cget (d : BitVec 5) (a : Src) (sel : CapSel)
  /-- `ctag` (R216): Rebuilds a tagged capability from untagged bits under an authority. -/
  | ctag (d : BitVec 4) (a : Src) (b : Src)
  /-- `crev` (R339): Revokes a buffer by advancing its generation and re-issues the capability. -/
  | crev (d : BitVec 4) (a : Src)
  /-- `jmpc` (R217): Transfers control to the cursor of the context's own code capability. -/
  | jmpc (a : Src)
  /-- `callc` (R217): Calls through a code capability and pushes a return address. -/
  | callc (a : Src)
  /-- `ld.a` (R227): Scalar load into A's load-data queue. -/
  | ldA (ty : XType) (cd : BitVec 4) (a : Src) (b : Src)
  /-- `ld.i` (R227): Scalar load into I's load-data queue. -/
  | ldI (ty : XType) (cd : BitVec 4) (a : Src) (b : Src)
  /-- `st.a` (R227): Scalar store of data taken from the a file. -/
  | stA (w : Width) (cd : BitVec 4) (a : Src) (b : Src)
  /-- `st.i` (R227): Scalar store of data popped from I's store-data queue. -/
  | stI (w : Width) (cd : BitVec 4) (a : Src) (b : Src)
  /-- `vld.va` (R228): Vector or wide-sum load into VA's load-data queue. -/
  | vldVA (k : VKind) (cd : BitVec 4) (a : Src) (b : Src)
  /-- `vld.vb` (R228): Vector or wide-sum load into VB's load-data queue. -/
  | vldVB (k : VKind) (cd : BitVec 4) (a : Src) (b : Src)
  /-- `vst.va` (R228): Vector or wide-sum store of an entry popped from VA's store-data queue. -/
  | vstVA (k : VKind) (cd : BitVec 4) (a : Src) (b : Src)
  /-- `vst.vb` (R228): Vector or wide-sum store of an entry popped from VB's store-data queue. -/
  | vstVB (k : VKind) (cd : BitVec 4) (a : Src) (b : Src)
  /-- `vldg.va` (R228): Gather load into VA's load-data queue, with lane offsets from VA's store-data queue. -/
  | vldgVA (k : GKind) (cd : BitVec 4) (a : Src) (b : Src)
  /-- `vldg.vb` (R228): Gather load into VB's load-data queue, with lane offsets from VB's store-data queue. -/
  | vldgVB (k : GKind) (cd : BitVec 4) (a : Src) (b : Src)
  /-- `vsts.va` (R228): Scatter store with offsets and data from VA's store-data queue. -/
  | vstsVA (k : GKind) (cd : BitVec 4) (a : Src) (b : Src)
  /-- `vsts.vb` (R228): Scatter store with offsets and data from VB's store-data queue. -/
  | vstsVB (k : GKind) (cd : BitVec 4) (a : Src) (b : Src)
  /-- `lcap` (R230): Loads one granule with its tag into a capability register, full/empty managed. -/
  | lcap (d : BitVec 4) (a : Src) (b : Src)
  /-- `scap` (R231): Stores a capability with its tag as one single-copy-atomic write. -/
  | scap (cd : BitVec 4) (a : Src) (b : Src)
  /-- `cas` (R233): Compare-and-swap at the home; the old value always returns. -/
  | cas (w : Width) (cd : BitVec 4) (sc : Scope) (ord : Ordering4) (b : Src)
  /-- `fence` (R234): Release, acquire or both at a scope. -/
  | fence (k : FenceKind) (sc : Scope)
  /-- `amo.add` (R232): Atomic add at the home. -/
  | amoAdd (w : Width) (ret : Bool) (cd : BitVec 4) (sc : Scope) (ord : Ordering4) (b : Src)
  /-- `amo.and` (R232): Atomic AND at the home. -/
  | amoAnd (w : Width) (ret : Bool) (cd : BitVec 4) (sc : Scope) (ord : Ordering4) (b : Src)
  /-- `amo.or` (R232): Atomic OR at the home. -/
  | amoOr (w : Width) (ret : Bool) (cd : BitVec 4) (sc : Scope) (ord : Ordering4) (b : Src)
  /-- `amo.xor` (R232): Atomic XOR at the home. -/
  | amoXor (w : Width) (ret : Bool) (cd : BitVec 4) (sc : Scope) (ord : Ordering4) (b : Src)
  /-- `amo.swap` (R232): Atomic swap at the home. -/
  | amoSwap (w : Width) (ret : Bool) (cd : BitVec 4) (sc : Scope) (ord : Ordering4) (b : Src)
  /-- `amo.min` (R232): Atomic minimum at the home. -/
  | amoMin (ty : XType) (ret : Bool) (cd : BitVec 4) (sc : Scope) (ord : Ordering4) (b : Src)
  /-- `amo.max` (R232): Atomic maximum at the home. -/
  | amoMax (ty : XType) (ret : Bool) (cd : BitVec 4) (sc : Scope) (ord : Ordering4) (b : Src)
  /-- `amo.wsadd` (R232): Atomic wide-sum addition of a keep image at the home. -/
  | amoWsadd (u : VUnit) (ws64 : Bool) (cd : BitVec 4) (sc : Scope) (ord : Ordering4)
  /-- `tclr` (R125): Clears the taint set of a register in A, I, VA or VB. -/
  | tclrReg (u : DUnit) (d : BitVec 5)
  /-- `TCLR_PATH` (R125): Empties the path taint at the end of the bundle. -/
  | tclrPath (u : DUnit)
  /-- `tclr` (R125): Clears the taint set of a capability register. -/
  | tclrCap (d : BitVec 4)
  /-- `tdep` (R126): Adds a source's taint to a register. -/
  | tdepReg (u : DUnit) (d : BitVec 5) (a : Src)
  /-- `TDEP_PATH` (R126): Adds a source's taint to the path taint. -/
  | tdepPath (u : DUnit) (a : Src)
  /-- `tdep` (R126): Adds a source's taint to a capability register. -/
  | tdepCap (d : BitVec 4) (a : Src)
  /-- `xput` (R123): Copies a value into a file of another unit at latency 2. -/
  | xput (u : DUnit) (t : XTgt) (n : BitVec 5) (a : Src)
  /-- `keep` (R124): Pushes a value onto the unit's store-data queue. -/
  | keep (u : DUnit) (a : Src)
  /-- `keep.w32` (R155): Pushes a WS32 image of a wide sum onto the store-data queue. -/
  | keepW32 (u : VUnit) (a : Src)
  /-- `keep.w64` (R155): Pushes a WS64 image of a wide sum onto the store-data queue. -/
  | keepW64 (u : VUnit) (a : Src)
  /-- `xlat` (R242): Pins the extent holding an address into a translate handle. -/
  | xlat (d : BitVec 3) (a : Src) (b : Src)
  /-- `xrel` (R242): Releases the pin held by a translate handle. -/
  | xrel (a : Src)
  /-- `xrel.rd` (R242): Reads a translate handle's value into an a register. -/
  | xrelRd (d : BitVec 5) (a : Src)
  /-- `add` (R112): Integer add modulo 2^w. -/
  | add (w : Width) (d : BitVec 5) (a : Src) (b : Src)
  /-- `sub` (R112): Integer subtract modulo 2^w. -/
  | sub (w : Width) (d : BitVec 5) (a : Src) (b : Src)
  /-- `mul` (R112): Integer multiply modulo 2^w. -/
  | mul (w : Width) (d : BitVec 5) (a : Src) (b : Src)
  /-- `and` (R112): Bitwise AND. -/
  | and (w : Width) (d : BitVec 5) (a : Src) (b : Src)
  /-- `or` (R112): Bitwise OR. -/
  | or (w : Width) (d : BitVec 5) (a : Src) (b : Src)
  /-- `xor` (R112): Bitwise XOR. -/
  | xor (w : Width) (d : BitVec 5) (a : Src) (b : Src)
  /-- `andn` (R112): AND with the complement of the second source. -/
  | andn (w : Width) (d : BitVec 5) (a : Src) (b : Src)
  /-- `shl` (R112): Left shift by b mod w. -/
  | shl (w : Width) (d : BitVec 5) (a : Src) (b : Src)
  /-- `shr` (R112): Logical right shift. -/
  | shr (w : Width) (d : BitVec 5) (a : Src) (b : Src)
  /-- `sar` (R112): Arithmetic right shift. -/
  | sar (w : Width) (d : BitVec 5) (a : Src) (b : Src)
  /-- `rot` (R112): Left rotate. -/
  | rot (w : Width) (d : BitVec 5) (a : Src) (b : Src)
  /-- `sel` (R115): Selects between two values by the value held in the destination. -/
  | sel (w : Width) (d : BitVec 5) (a : Src) (b : Src)
  /-- `mulh` (R112): High half of the exact product. -/
  | mulh (ty : XType) (d : BitVec 5) (a : Src) (b : Src)
  /-- `min` (R112): Integer minimum. -/
  | min (ty : XType) (d : BitVec 5) (a : Src) (b : Src)
  /-- `max` (R112): Integer maximum. -/
  | max (ty : XType) (d : BitVec 5) (a : Src) (b : Src)
  /-- `add.sat` (R112): Saturating integer add. -/
  | addSat (ty : XType) (d : BitVec 5) (a : Src) (b : Src)
  /-- `sub.sat` (R112): Saturating integer subtract. -/
  | subSat (ty : XType) (d : BitVec 5) (a : Src) (b : Src)
  /-- `mul.sat` (R112): Saturating integer multiply. -/
  | mulSat (ty : XType) (d : BitVec 5) (a : Src) (b : Src)
  /-- `shl.sat` (R112): Saturating left shift. -/
  | shlSat (ty : XType) (d : BitVec 5) (a : Src) (b : Src)
  /-- `div` (R114): Integer divide, full/empty managed; traps IDIV on a zero divisor. -/
  | div (ty : XType) (d : BitVec 5) (a : Src) (b : Src)
  /-- `rem` (R114): Integer remainder, full/empty managed. -/
  | rem (ty : XType) (d : BitVec 5) (a : Src) (b : Src)
  /-- `div.sat` (R114): Saturating integer divide, full/empty managed. -/
  | divSat (ty : XType) (d : BitVec 5) (a : Src) (b : Src)
  /-- `addi` (R112): Adds a sign-extended immediate on 64 bits. -/
  | addi (d : BitVec 5) (a : Src) (imm : BitVec 10)
  /-- `movi` (R110): Moves a sign-extended immediate into an i register. -/
  | movi (d : BitVec 5) (imm : BitVec 17)
  /-- `movh` (R110): Shifts an i register left by 16 and ORs in a 16-bit immediate. -/
  | movh (d : BitVec 5) (imm : BitVec 16)
  /-- `clz` (R113): Counts leading zero bits. -/
  | clz (w : Width) (d : BitVec 5) (a : Src)
  /-- `ctz` (R113): Counts trailing zero bits. -/
  | ctz (w : Width) (d : BitVec 5) (a : Src)
  /-- `popc` (R113): Counts one bits. -/
  | popc (w : Width) (d : BitVec 5) (a : Src)
  /-- `cmp` (R116): Integer compare into a C-unit predicate. -/
  | cmp (ty : XType) (cond : ICond) (d : BitVec 3) (a : Src) (b : Src)
  /-- `ext` (R117): Sign- or zero-extends a w-bit value to 64 bits. -/
  | ext (ty : XType) (d : BitVec 5) (a : Src)
  /-- `bfx` (R118): Extracts a bit field. -/
  | bfx (sx : Bool) (d : BitVec 5) (a : Src) (b : Src)
  /-- `bfi` (R118): Inserts a bit field. -/
  | bfi (d : BitVec 5) (a : Src) (b : Src)
  /-- `fadd` (R119): Scalar floating-point add. -/
  | fadd (f : FType) (d : BitVec 5) (a : Src) (b : Src)
  /-- `fsub` (R119): Scalar floating-point subtract. -/
  | fsub (f : FType) (d : BitVec 5) (a : Src) (b : Src)
  /-- `fmul` (R119): Scalar floating-point multiply. -/
  | fmul (f : FType) (d : BitVec 5) (a : Src) (b : Src)
  /-- `ffma` (R119): Scalar fused multiply-add with one rounding. -/
  | ffma (f : FType) (d : BitVec 5) (a : Src) (b : Src)
  /-- `fmin` (R119): Scalar floating-point minimum under R44. -/
  | fmin (f : FType) (d : BitVec 5) (a : Src) (b : Src)
  /-- `fmax` (R119): Scalar floating-point maximum under R44. -/
  | fmax (f : FType) (d : BitVec 5) (a : Src) (b : Src)
  /-- `fcmp` (R120): Quiet floating-point compare into a 4-bit mask. -/
  | fcmp (f : FType) (d : BitVec 5) (a : Src) (b : Src)
  /-- `fdiv` (R119): Scalar floating-point divide, full/empty managed. -/
  | fdiv (f : FType) (d : BitVec 5) (a : Src) (b : Src)
  /-- `fsqrt` (R119): Scalar floating-point square root, full/empty managed. -/
  | fsqrt (f : FType) (d : BitVec 5) (a : Src)
  /-- `fcvt` (R121): Converts between IEEE formats, or between an IEEE format and an integer. -/
  | fcvt (rs : RSel) (src : CvtCode) (dst : CvtCode) (d : BitVec 5) (a : Src)
  /-- `vadd` (R133): Element-wise add. -/
  | vadd (u : VUnit) (ty : WType) (d : BitVec 5) (a : Src) (b : Src)
  /-- `vsub` (R133): Element-wise subtract. -/
  | vsub (u : VUnit) (ty : WType) (d : BitVec 5) (a : Src) (b : Src)
  /-- `vmul` (R133): Element-wise multiply. -/
  | vmul (u : VUnit) (ty : WType) (d : BitVec 5) (a : Src) (b : Src)
  /-- `vadd.sat` (R133): Element-wise saturating add. -/
  | vaddSat (u : VUnit) (ty : XType) (d : BitVec 5) (a : Src) (b : Src)
  /-- `vsub.sat` (R133): Element-wise saturating subtract. -/
  | vsubSat (u : VUnit) (ty : XType) (d : BitVec 5) (a : Src) (b : Src)
  /-- `vfma` (R135): Element-wise a*b+d with one rounding. -/
  | vfma (u : VUnit) (f : FType) (d : BitVec 5) (a : Src) (b : Src)
  /-- `vfms` (R135): Element-wise a*b-d with one rounding. -/
  | vfms (u : VUnit) (f : FType) (d : BitVec 5) (a : Src) (b : Src)
  /-- `vnfma` (R135): Element-wise d-a*b with one rounding. -/
  | vnfma (u : VUnit) (f : FType) (d : BitVec 5) (a : Src) (b : Src)
  /-- `vdiv` (R136): Element-wise floating-point divide, full/empty managed. -/
  | vdivFp (u : VUnit) (f : FType) (d : BitVec 5) (a : Src) (b : Src)
  /-- `vsqrt` (R136): Element-wise square root, full/empty managed. -/
  | vsqrt (u : VUnit) (f : FType) (d : BitVec 5) (a : Src)
  /-- `vdiv` (R137): Element-wise integer divide; traps IDIV on any zero divisor. -/
  | vdivInt (u : VUnit) (ty : XType) (d : BitVec 5) (a : Src) (b : Src)
  /-- `vdiv.sat` (R137): Element-wise saturating integer divide. -/
  | vdivSat (u : VUnit) (ty : XType) (d : BitVec 5) (a : Src) (b : Src)
  /-- `vrcpe` (R138): Element-wise reciprocal estimate under R59. -/
  | vrcpe (u : VUnit) (f : FType) (d : BitVec 5) (a : Src)
  /-- `vrsqe` (R138): Element-wise reciprocal square-root estimate under R60. -/
  | vrsqe (u : VUnit) (f : FType) (d : BitVec 5) (a : Src)
  /-- `vmin` (R133): Element-wise floating-point minimum. -/
  | vminFp (u : VUnit) (f : FType) (d : BitVec 5) (a : Src) (b : Src)
  /-- `vmax` (R133): Element-wise floating-point maximum. -/
  | vmaxFp (u : VUnit) (f : FType) (d : BitVec 5) (a : Src) (b : Src)
  /-- `vmin` (R133): Element-wise integer minimum. -/
  | vminInt (u : VUnit) (ty : XType) (d : BitVec 5) (a : Src) (b : Src)
  /-- `vmax` (R133): Element-wise integer maximum. -/
  | vmaxInt (u : VUnit) (ty : XType) (d : BitVec 5) (a : Src) (b : Src)
  /-- `vabs` (R134): Element-wise absolute value. -/
  | vabs (u : VUnit) (ty : WType) (d : BitVec 5) (a : Src)
  /-- `vneg` (R134): Element-wise negation. -/
  | vneg (u : VUnit) (ty : WType) (d : BitVec 5) (a : Src)
  /-- `vand` (R133): Element-wise AND. -/
  | vand (u : VUnit) (w : Width) (d : BitVec 5) (a : Src) (b : Src)
  /-- `vor` (R133): Element-wise OR. -/
  | vor (u : VUnit) (w : Width) (d : BitVec 5) (a : Src) (b : Src)
  /-- `vxor` (R133): Element-wise XOR. -/
  | vxor (u : VUnit) (w : Width) (d : BitVec 5) (a : Src) (b : Src)
  /-- `vshl` (R133): Element-wise left shift. -/
  | vshl (u : VUnit) (w : Width) (d : BitVec 5) (a : Src) (b : Src)
  /-- `vshr` (R133): Element-wise logical right shift. -/
  | vshr (u : VUnit) (w : Width) (d : BitVec 5) (a : Src) (b : Src)
  /-- `vsar` (R133): Element-wise arithmetic right shift. -/
  | vsar (u : VUnit) (w : Width) (d : BitVec 5) (a : Src) (b : Src)
  /-- `vnot` (R134): Element-wise bit inversion. -/
  | vnot (u : VUnit) (w : Width) (d : BitVec 5) (a : Src)
  /-- `vcmp` (R139): Floating-point compare into a lane mask. -/
  | vcmpFp (u : VUnit) (f : FType) (cond : FCond) (d : BitVec 3) (a : Src) (b : Src)
  /-- `vcmp` (R139): Integer compare into a lane mask. -/
  | vcmpInt (u : VUnit) (ty : XType) (cond : ICond) (d : BitVec 3) (a : Src) (b : Src)
  /-- `vsel` (R140): Selects whole lanes by a mask. -/
  | vsel (u : VUnit) (m : BitVec 3) (d : BitVec 5) (a : Src) (b : Src)
  /-- `vmand` (R141): ANDs two masks. -/
  | vmand (u : VUnit) (d : BitVec 3) (a : Src) (b : Src)
  /-- `vmor` (R141): ORs two masks. -/
  | vmor (u : VUnit) (d : BitVec 3) (a : Src) (b : Src)
  /-- `vmnot` (R141): Inverts a mask. -/
  | vmnot (u : VUnit) (d : BitVec 3) (a : Src)
  /-- `vmpop` (R142): Counts the set bits of a mask into every lane. -/
  | vmpop (u : VUnit) (d : BitVec 5) (a : Src)
  /-- `vmff` (R142): Finds the lowest set bit of a mask, into every lane. -/
  | vmff (u : VUnit) (d : BitVec 5) (a : Src)
  /-- `vmovi` (R143): Moves a sign-extended immediate into every lane. -/
  | vmovi (u : VUnit) (d : BitVec 5) (imm : BitVec 17)
  /-- `vidx` (R144): Writes an ascending sequence of element values. -/
  | vidx (u : VUnit) (w : Width) (d : BitVec 5) (a : Src)
  /-- `vbcast` (R145): Broadcasts one element to all elements. -/
  | vbcast (u : VUnit) (w : Width) (d : BitVec 5) (a : Src) (b : Src)
  /-- `vperm` (R145): Permutes elements by indices. -/
  | vperm (u : VUnit) (w : Width) (d : BitVec 5) (a : Src) (b : Src)
  /-- `vrot` (R145): Rotates elements by a count. -/
  | vrot (u : VUnit) (w : Width) (d : BitVec 5) (a : Src) (b : Src)
  /-- `vslide.dn` (R145): Slides elements down by a count, filling with zero. -/
  | vslideDn (u : VUnit) (w : Width) (d : BitVec 5) (a : Src) (b : Src)
  /-- `vslide.up` (R145): Slides elements up by a count, filling with zero. -/
  | vslideUp (u : VUnit) (w : Width) (d : BitVec 5) (a : Src) (b : Src)
  /-- `vcvt` (R146): Converts elements between an IEEE format and an integer of the same width. -/
  | vcvt (u : VUnit) (f : FType) (toFp : Bool) (uns : Bool) (rs : RSel) (d : BitVec 5) (a : Src)
  /-- `vpack` (R147): Narrows one register into one half of the destination. -/
  | vpack (u : VUnit) (pair : PackPair) (hi : Bool) (mode : BitVec 2) (fmt : BitVec 4) (d : BitVec 5) (a : Src)
  /-- `vunpk` (R147): Widens one half of a source register. -/
  | vunpk (u : VUnit) (pair : PackPair) (hi : Bool) (mode : BitVec 2) (fmt : BitVec 4) (d : BitVec 5) (a : Src)
  /-- `vredsum` (R148): Sums the active elements by the fixed pairwise tree. -/
  | vredsum (u : VUnit) (ty : WType) (d : BitVec 5) (a : Src) (sel : MaskSel)
  /-- `vredsum.sat` (R148): Saturating integer tree sum. -/
  | vredsumSat (u : VUnit) (ty : XType) (d : BitVec 5) (a : Src) (sel : MaskSel)
  /-- `vredmax` (R148): Floating-point tree maximum. -/
  | vredmaxFp (u : VUnit) (f : FType) (d : BitVec 5) (a : Src) (sel : MaskSel)
  /-- `vredmin` (R148): Floating-point tree minimum. -/
  | vredminFp (u : VUnit) (f : FType) (d : BitVec 5) (a : Src) (sel : MaskSel)
  /-- `vredmax` (R148): Integer tree maximum. -/
  | vredmaxInt (u : VUnit) (ty : XType) (d : BitVec 5) (a : Src) (sel : MaskSel)
  /-- `vredmin` (R148): Integer tree minimum. -/
  | vredminInt (u : VUnit) (ty : XType) (d : BitVec 5) (a : Src) (sel : MaskSel)
  /-- `wsadd` (R150): Adds the active elements into a wide sum as an increment. -/
  | wsadd (u : VUnit) (ty : WsAddTy) (w : BitVec 2) (a : Src) (sel : MaskSel)
  /-- `wsrnd` (R151): Rounds a wide sum once to a floating-point value. -/
  | wsrnd (u : VUnit) (ty : WsRndTy) (d : BitVec 5) (a : Src) (rs : RSel)
  /-- `wsclr` (R152): Clears a wide sum. -/
  | wsclr (u : VUnit) (w : BitVec 2)
  /-- `wsmov.w` (R153): Moves lanes 0..5 of a vector into a wide sum as WS32. -/
  | wsmovW (u : VUnit) (w : BitVec 2) (a : Src)
  /-- `wsmov.v` (R153): Moves a WS32 image into lanes 0..5 of a vector. -/
  | wsmovV (u : VUnit) (d : BitVec 5) (a : Src)
  /-- `wsmov` (R153): Copies one wide sum to another. -/
  | wsmov (u : VUnit) (w : BitVec 2) (a : Src)
  /-- `wsmov.pop` (R153): Pops a wide-sum load-data entry into a wide sum. -/
  | wsmovPop (u : VUnit) (w : BitVec 2)
  /-- `kdef` (R297): Appends the active lanes to a kitty. -/
  | kdef (u : VUnit) (cnt : BitVec 2) (kt : BitVec 2) (path : BitVec 3) (a : Src) (sel : MaskSel)
  /-- `ktake` (R298): Pops a batch of up to 32 kitty entries. -/
  | ktake (u : VUnit) (cnt : BitVec 2) (kt : BitVec 2) (d : BitVec 5) (m : BitVec 3)
  /-- `kcnt` (R299): Reads a kitty's count into every lane. -/
  | kcnt (u : VUnit) (d : BitVec 5) (kt : BitVec 2)
  /-- `mpass` (R173): Enters a matrix pass of N+1 k-blocks into a tile in the M queue. -/
  | mpass (z : BitVec 5) (sd : BitVec 3) (gp : BitVec 2) (cp : BitVec 8) (n : BitVec 3) (f : Bool)
  /-- `mzero` (R178): Sets a tile or tile pair to zero. -/
  | mzero (pair : Bool) (z : BitVec 5)
  /-- `mread` (R179): Copies a tile to the local array and sets a done bit. -/
  | mread (pair : Bool) (z : BitVec 5) (sd : BitVec 3) (db : BitVec 6)
  /-- `mwrite` (R179): Copies the local array into a tile and sets a done bit. -/
  | mwrite (form : MwForm) (z : BitVec 5) (sd : BitVec 3) (db : BitVec 6)
  /-- `mstat` (R180): Waits for earlier M operations and writes a status record. -/
  | mstat (sd : BitVec 3) (db : BitVec 6)
  /-- `mset.base` (R181): Writes BASE of a stream descriptor. -/
  | msetBase (sd : BitVec 3) (v : BitVec 16)
  /-- `mset.stride` (R181): Writes STRIDE of a stream descriptor. -/
  | msetStride (sd : BitVec 3) (v : BitVec 16)
  /-- `mset.fmt` (R181): Writes the operand types and formats of a stream descriptor. -/
  | msetFmt (sd : BitVec 3) (atype : BitVec 4) (afmt : BitVec 4) (btype : BitVec 4) (bfmt : BitVec 4)
  /-- `mset.scale` (R181): Writes the scale registers and QEN of a stream descriptor. -/
  | msetScale (sd : BitVec 3) (qa : BitVec 4) (qb : BitVec 4) (qen : Bool)
  /-- `gset` (R182): Sets a grist pointer. -/
  | gset (gp : BitVec 2) (off : BitVec 13)
  /-- `gset.add` (R182): Advances a grist pointer. -/
  | gsetAdd (gp : BitVec 2) (off : BitVec 13)
  /-- `sld` (R188): Loads 32 scale values from the local array at latency 6 with no interlock. -/
  | sld (q : BitVec 4) (unit : BitVec 17)
  /-- `sset` (R187): Fills a scale register with one BF16 value. -/
  | sset (q : BitVec 4) (imm : BitVec 16)
  /-- `fset` (R186): Writes a format descriptor. -/
  | fset (f : BitVec 4) (valid : Bool) (imm : BitVec 16)
  /-- `smov` (R189): Copies one S register to another of the same file. -/
  | smov (fmt : Bool) (d : BitVec 4) (a : Src)
  /-- `sclr` (R190): Clears one S register. -/
  | sclr (fmt : Bool) (d : BitVec 4)
  /-- `kset.w` (R244): Writes one word of a job-card register. -/
  | ksetW (j : BitVec 3) (k : BitVec 2) (b : Src)
  /-- `kset.c` (R244): Writes a capability slot of a job-card register. -/
  | ksetC (j : BitVec 3) (dst : Bool) (b : Src)
  /-- `kset.bnd` (R244): Narrows a kc capability's bounds as cbndr does. -/
  | ksetBnd (d : BitVec 4) (a : Src) (b : Src)
  /-- `kset.cur` (R244): Sets a kc capability's cursor. -/
  | ksetCur (d : BitVec 4) (a : Src) (b : Src)
  /-- `kset.lc` (R244): Loads a tagged granule from this core's local array into a kc register. -/
  | ksetLc (d : BitVec 4) (a : Src) (b : Src)
  /-- `kset.add` (R244): Adds two kx values. -/
  | ksetAdd (d : BitVec 5) (a : Src) (b : Src)
  /-- `kcopy` (R245): Issues a card copying rows from SRC to DST, optionally converting or with tags. -/
  | kcopy (j : BitVec 3) (db : BitVec 6) (fence : Bool) (tags : Bool)
  /-- `kmc` (R380): Issues a multicast card to up to 32 destinations. -/
  | kmc (j : BitVec 3) (db : BitVec 6) (n : BitVec 5) (fence : Bool) (tags : Bool)
  /-- `kfill` (R246): Issues a card that writes grist column slices. -/
  | kfill (j : BitVec 3) (db : BitVec 6) (fence : Bool)
  /-- `kcoll` (R373): Starts one collective job of a step on a group. -/
  | kcoll (j : BitVec 3) (db : BitVec 6) (gid : BitVec 6) (kind : CollKind) (op : CollOp) (fence : Bool)
  /-- `kpf` (R253): Prefetches the card's SRC footprint into a cache level. -/
  | kpf (j : BitVec 3) (level : PfLevel)
  /-- `kcan` (R251): Cancels an outstanding card by its done bit. -/
  | kcan (db : BitVec 6)
  /-- `kstat` (R252): Stores a status register's word to storage. -/
  | kstat (d : BitVec 4) (a : Src) (db : BitVec 6)
  /-- `ASYNC_FAULT_TAKEN` (R325): A pending port fault is taken at the context's next bundle boundary. -/
  | asyncFaultTaken
  /-- `DUE_ENTRY_VISIBLE` (R27): An exposed result's due count expires and the result becomes visible in its destination. -/
  | dueEntryVisible
  /-- `FULL_EMPTY_RESULT_ARRIVE` (R24): A full/empty-managed result arrives and fills its destination. -/
  | fullEmptyResultArrive (k : Nat)
  /-- `YIELD_EXPIRE` (R105): A yield wait's cycle count expires and the context becomes ready again. -/
  | yieldExpire
  /-- `LOAD_PERFORM` (R264): A load's value is fixed, its perform epoch is recorded and its data fills the queue entry or destination. -/
  | loadPerform (k : Nat)
  /-- `STORE_PERFORM` (R259): A store or atomic performs in the cluster or at its home. -/
  | storePerform (k : Nat)
  /-- `EXTENT_RESIDENT` (R238): A non-resident extent becomes resident, releasing held accesses and cards. -/
  | extentResident (map : Nat) (ext : Nat)
  /-- `SIDE_LOG_REPLAY` (R239): A side-log entry replays at its home, strictly in log order. -/
  | sideLogReplay
  /-- `EXTENT_FIRST_TOUCH` (R237): An absent extent receives a zero-filled HBM frame on its first touch. -/
  | extentFirstTouch (map : Nat) (ext : Nat)
  /-- `EXTENT_MIGRATE` (R241): The migration unit brings an extent in or writes one out to SCM by its cost rule. -/
  | extentMigrate (map : Nat) (ext : Nat) (inward : Bool)
  /-- `ACCESS_COUNTER_HALVE` (R241): Every 2^20 reference ticks each extent's access counter is halved. -/
  | accessCounterHalve
  /-- `XLAT_HANDLE_FILL` (R242): A translate handle becomes full once its extent is resident. -/
  | xlatHandleFill (k : Nat)
  /-- `CARD_START` (R248): A card starts once every earlier overlapping card has completed. -/
  | cardStart (k : Nat)
  /-- `CARD_COMPLETE` (R250): A card ends normally or faults and sets its done bit, fault bit and status. -/
  | cardComplete (k : Nat)
  /-- `M_OP_START` (R176): The array starts the next M-queue operation, alternating between contexts. -/
  | mOpStart
  /-- `M_OP_END` (R173): An M operation ends; its tiles become full and any done bit is set. -/
  | mOpEnd
  /-- `CREV_COMPLETE` (R339): A revocation completes after the table writes and card waits, and sets d63 in holders. -/
  | crevComplete
  /-- `SPAWN_PERFORM` (R286): A spawn performs at home: a slot is taken, the stage copied and the record queued. -/
  | spawnPerform (k : Nat)
  /-- `JOIN_PERFORM` (R290): A join performs at home, decrementing the counter and queueing a parked record at zero. -/
  | joinPerform (k : Nat)
  /-- `POOL_HANDOVER` (R285): The pool unit hands a queued record to a waiting slot and a context is created from it. -/
  | poolHandover
  /-- `CMD_TAIL_WRITE` (R301): A write to cmd.tail rings the stream's doorbell. -/
  | cmdTailWrite (stream : Nat) (v : W64)
  /-- `CMD_CTL_WRITE` (R301): A write to cmd.ctl enables or disables fetching and sets the stream's size, level and weight. -/
  | cmdCtlWrite (stream : Nat) (v : W64)
  /-- `LAUNCH` (R309): The launch engine takes a LAUNCH record through the launch sequence. -/
  | launch (stream : Nat)
  /-- `GRAPH` (R308): A GRAPH record patches its nodes and starts them as their predecessors complete. -/
  | graph (stream : Nat)
  /-- `GRAPH_NODE_START` (R308): A graph node starts once all its predecessors have ended COMPLETE. -/
  | graphNodeStart (graph : Nat) (node : Nat)
  /-- `WAIT` (R303): A WAIT record ends when its sync word reaches VALUE. -/
  | waitRecord (stream : Nat)
  /-- `WAIT_RECHECK` (R303): A WAIT rereads its sync word after each write to its line at home. -/
  | waitRecheck (stream : Nat)
  /-- `SIGNAL` (R303): A SIGNAL writes or adds to a sync word at home with a release at SY. -/
  | signal (stream : Nat)
  /-- `FENCE_RECORD` (R303): A FENCE record lets the next record start only once every earlier record has ended. -/
  | fenceRecord (stream : Nat)
  /-- `LAUNCH_END` (R322): A launch ends, writes its completion entry and releases its clusters. -/
  | launchEnd (launch : Nat)
  /-- `HANG_LIMIT` (R320): A hang counter reaches HANG x 65,536 and the launch is aborted. -/
  | hangLimit (launch : Nat)
  /-- `WALL_LIMIT` (R319): WALL x 1,024 reference ticks pass and the launch is aborted. -/
  | wallLimit (launch : Nat)
  /-- `PREEMPTION` (R332): A higher-level launch that cannot claim stops PREEMPT launches whole. -/
  | preemption (stream : Nat)
  /-- `CONTEXT_STOP` (R333): A context stops at a bundle boundary and its save area is written. -/
  | contextStop (code : StopCode)
  /-- `CONTEXT_RESUME` (R336): A stopped context is restored at its position and issues bundle BUNDLES + 1. -/
  | contextResume (launch : Nat) (clord : Nat) (core : Nat) (slot : Nat)
  /-- `FATAL_FAULT` (R337): A context faults fatally, freezes and writes a fatal dump. -/
  | fatalFault
  /-- `ABORT_TIMEOUT` (R338): TIMEOUT ticks after a fault or abort, the remaining contexts are stopped and ended. -/
  | abortTimeout (launch : Nat)
  /-- `SWEEP_START` (R341): A sparge sweep starts and records SGEN. -/
  | sweepStart
  /-- `SWEEP_CORE_PAUSE` (R344): A core is paused once per sweep to clear stale register tags. -/
  | sweepCorePause
  /-- `SWEEP_COMPLETE` (R345): The sweep completes and sets GFLOOR := SGEN in every entry. -/
  | sweepComplete
  /-- `HOST_READ` (R363): A host read into a host window is served at home by the host engine. -/
  | hostRead (req : HostReq)
  /-- `HOST_WRITE` (R280): A host write into a host window performs at home in arrival order. -/
  | hostWrite (req : HostReq) (data : List Byte)
  /-- `GET_TDISP_VERSION` (R347): Returns the TDISP version. -/
  | getTdispVersion (fn : Nat)
  /-- `GET_TDISP_CAPABILITIES` (R347): Returns the TDISP capabilities. -/
  | getTdispCapabilities (fn : Nat)
  /-- `LOCK_INTERFACE_REQUEST` (R348): Moves a TDI to CONFIG_LOCKED, rekeys its buffers and steps the generation. -/
  | lockInterfaceRequest (fn : Nat)
  /-- `GET_DEVICE_INTERFACE_REPORT` (R347): Returns the TDI's MMIO ranges and bound buffers. -/
  | getDeviceInterfaceReport (fn : Nat)
  /-- `GET_DEVICE_INTERFACE_STATE` (R347): Returns the TDI's interface state. -/
  | getDeviceInterfaceState (fn : Nat)
  /-- `START_INTERFACE_REQUEST` (R348): Moves a TDI to RUN, or re-attests a TDI held at restart. -/
  | startInterfaceRequest (fn : Nat)
  /-- `STOP_INTERFACE_REQUEST` (R348): Moves a TDI to CONFIG_UNLOCKED with teardown. -/
  | stopInterfaceRequest (fn : Nat)
  /-- `TDI_ERROR` (R348): An IDE failure, integrity error or ended session moves a TDI to ERROR. -/
  | tdiError (fn : Nat) (why : TdiErr)
  /-- `SPDM_REQUEST` (R351): The device answers an SPDM request, including measurements and key exchange. -/
  | spdmRequest (fn : Nat) (req : SpdmReq)
  /-- `VENDOR_DEFINED_REQUEST` (R354): Issues a write token for a locked item. -/
  | vendorDefinedRequest (fn : Nat) (item : LockedItem) (vhash : Nat)
  /-- `TOK_GO` (R355): A write to tok.go commits a staged locked write under a token. -/
  | tokGo
  /-- `LOCKED_ITEM_WRITE` (R352): A direct write to a locked item succeeds while unlocked, or moves the TDI to ERROR. -/
  | lockedItemWrite (part : Nat) (item : LockedItem) (val : LockedValue)
  /-- `MIGRATION_SEND` (R359): The source stops the partition, seals its keys and sends them wrapped. -/
  | migrationSend (fn : Nat)
  /-- `MIGRATION_CONFIRM` (R361): A migration confirmation arrives; a valid one zeroises the sealed keys. -/
  | migrationConfirm (fn : Nat) (sig : Nat)
  /-- `RETRY_WINDOW_EXPIRE` (R360): The retry window ends; keys are zeroised and the TDI moves to ERROR. -/
  | retryWindowExpire (fn : Nat)
  /-- `REATTEST_WINDOW_EXPIRE` (R400): A held TDI is not re-attested within its window and is torn down. -/
  | reattestWindowExpire (fn : Nat)
  /-- `FLIT_CRC_ERROR` (R367): A receiver finds a CRC error and requests a replay. -/
  | flitCrcError (link : Nat) (seq : Nat)
  /-- `LINK_DOWN` (R367): A link fails 16 replays, is taken down and routes are recomputed. -/
  | linkDown (link : Nat)
  /-- `PEER_MEMORY_REQUEST` (R281): A Waras memory packet performs at its home on this module. -/
  | peerMemoryRequest (req : PeerReq)
  /-- `PAUSED_RESPONSE` (R395): A request to a shed home is answered PAUSED and held by the requester. -/
  | pausedResponse (peer : Nat) (k : Nat)
  /-- `RESUMED` (R395): On a stack's return the IO die sends RESUMED and held requests are resent. -/
  | resumed (peer : Nat)
  /-- `MEMBER_MISSING` (R372): A member that does not answer within 20 us becomes MISSING. -/
  | memberMissing (gid : Nat) (rank : Nat)
  /-- `WAITLIM_EXPIRE` (R379): A member stays MISSING beyond WAITLIM and the jobs fault with 0x12. -/
  | waitlimExpire (gid : Nat) (rank : Nat)
  /-- `COLL_SEGMENT_RECEIVE` (R378): A collective segment arrives and is added once or discarded. -/
  | collSegmentReceive (gid : Nat) (rank : Nat) (seg : Nat) (decl : CollDecl) (vals : List Nat)
  /-- `RESUME` (R420): A resuming member's RESUME message makes both sides exchange missing segments. -/
  | resumeMember (gid : Nat) (rank : Nat) (step : Nat) (map : List (Nat × Nat))
  /-- `COLL_JOB_COMPLETE` (R376): A collective job completes after the final completion round and sets its done bit. -/
  | collJobComplete (gid : Nat)
  /-- `COLL_JOB_FAULT` (R379): A collective job faults on a member fault, mismatch, step or peer loss. -/
  | collJobFault (gid : Nat) (cause : Nat)
  /-- `KMC_DEST_STOP` (R382): A multicast destination stops on a fault or a holder missing too long. -/
  | kmcDestStop (k : Nat) (dest : Nat) (cause : Nat)
  /-- `BROWN` (R393): BROWN is raised; d62 is set and the next stack of SHEDORDER is shed. -/
  | brown
  /-- `SHED_COMPLETE` (R394): A shed completes and the bus is tested for the next shed. -/
  | shedComplete (below : Bool)
  /-- `STACK_RETURN` (R397): After VRET holds, shed stacks return in reverse order and contexts resume in place. -/
  | stackReturn
  /-- `BROWNOUT_ESCALATE` (R398): A brown-out escalates to PWRF. -/
  | brownoutEscalate (reserve : Nat)
  /-- `PWRF` (R386): PWRF starts the hibernation phases of stop, writeback, racking, seal and cut. -/
  | pwrf (reserve : Nat)
  /-- `RACKING_STOP` (R390): The reserve gauge falls to ESEAL and racking stops after the extent in progress. -/
  | rackingStop (done : Nat)
  /-- `POWER_UP` (R399): The module boots and restarts from a valid manifest or the unsealed path. -/
  | powerUp
  /-- `ERESTART_REACHED` (R399): The reserve reaches ERESTART and the restart continues. -/
  | erestartReached (gauge : Nat)
  /-- `RESTART_PWRF` (R402): A PWRF during restart steps 1..7 powers off without writing a manifest. -/
  | restartPwrf
  /-- `PHASE_LOSS` (R407): A regulator phase fails; a second loss sheds the region. -/
  | phaseLoss (region : Nat)
  /-- `THERMAL_SAMPLE` (R409): Every 1,000 ticks a region updates its damage integral and slot target. -/
  | thermalSample (region : Nat) (temp : Int)
  /-- `PATTERN_CHANGE` (R408): A cluster's pulse pattern changes at a 16-cycle boundary; a decrease sets d61. -/
  | patternChange (cluster : Nat) (k : Nat)
  /-- `THERMAL_CUT` (R410): A comparator trips, cutting the bus and latching the cause. -/
  | thermalCut (sensor : CutSensor)
  /-- `HBM_REFRESH` (R411): An HBM bank's refresh interval expires and the bank is refreshed. -/
  | hbmRefresh (bank : Nat) (temp : Int)
  /-- `FRAME_ZERO_COMPLETE` (R411): A frame's zero write completes and its rows rejoin refresh. -/
  | frameZeroComplete (stack : Nat) (frame : Nat)
  /-- `CORRECTED_ERROR` (R413): A corrected error updates or opens a journal entry. -/
  | correctedError (src : JSrc) (loc : Nat) (synd : Nat)
  /-- `JOURNAL_ENTRY_TIMEOUT` (R413): The open entry closes 2^24 ticks after FIRST. -/
  | journalEntryTimeout
  /-- `UNCORRECTABLE_ERROR` (R414): An uncorrectable sector is read, faulting the reader and writing an entry. -/
  | uncorrectableError (map : Nat) (off : Nat) (reader : UncReader)
  /-- `SCRUB_PASS` (R415): Patrol scrub reads sectors, corrects them and retires rows. -/
  | scrubPass (map : Nat) (off : Nat) (loc : Nat)
  /-- `SCRUBRCPT` (R416): Returns a signed scrub receipt after a complete pass over a range. -/
  | scrubrcpt (range : PhysRange)
  /-- `EJHEAD` (R412): Returns the signed head of the error journal. -/
  | ejhead
  /-- `JOURNAL_TRIM` (R413): Trims entries below an index and writes a TYPE 11 entry. -/
  | journalTrim (index : Nat)
  /-- `RESTART_REPORT` (R404): Returns the restart report over the management path. -/
  | restartReport
  /-- `SWEEP_REQUEST` (R341): The physical function requests a sparge sweep. -/
  | sweepRequest
  /-- `FW_UPDATE` (R417): A live firmware update writes, checks and hands over to the inactive slot. -/
  | fwUpdate (hash : Nat) (expected : Nat) (sig : Nat) (version : Nat)
  /-- `FW_HEARTBEAT` (R417): The new image's first heartbeat activates it and steps generations. -/
  | fwHeartbeat
  /-- `FW_HEARTBEAT_TIMEOUT` (R417): No heartbeat within 500 ms rolls back to the old slot. -/
  | fwHeartbeatTimeout
  /-- `REGISTER_WRITE` (R10): A write to a register with no behaviour of its own, under its access codes. -/
  | registerWrite (reg : MgmtReg) (val : MgmtVal)
  /-- `DROOP_CAP_CHANGE` (R31): The droop governor moves the core's bank-read cap among 16, 12 and 8 as sensed supply droop changes. -/
  | droopCapChange (cap : Nat)
  /-- `LINK_UP` (R365): A Waras link trains and carries traffic, setting its LINKUP bit, so that a holder answers again. -/
  | linkUp (link : LinkTrain)
  /-- `LINK_LANE_LOST` (R415): A lane of a Waras link is lost, which sets REPLACE and writes an error-journal entry of TYPE 9. -/
  | linkLaneLost (link : Nat) (lane : Nat)
  /-- `MEMBER_STATE_REPORT` (R372): A peer's link engine reports a group member's state (ACTIVE, PAUSED(n), FAULTED) and the member state held here changes. -/
  | memberStateReport (gid : Nat) (rank : Nat) (m : MemberMsg)
  /-- `SWEEP_VISIT` (R343): The sparge sweep visits a granule, line, bank or frame in spare cycles and clears the tags of stale capabilities there. -/
  | sweepVisit (place : SweepPlace)
  /-- `BUFFER_SPACE_ENTRY_WRITE` (R199): The runtime creates or changes a buffer-space entry, drawing a key from the key store. -/
  | bufferSpaceEntryWrite (asid : Nat) (index : Nat) (bits : Nat)
  /-- `POWER_LOSS` (R2): Supply is lost without a sealed hibernation (on a VPM9-P, or when the module's reserve is exhausted before the seal), and all volatile state is lost. -/
  | powerLoss
  /-- `MIGRATION_IMPORT` (R359): The destination module receives wrapped migration keys, or the source's error answer to a late confirmation, and imports the keys or moves its TDI to ERROR. -/
  | migrationImport (fn : Nat) (inp : MigrIn)
deriving DecidableEq, Repr

end Sys2Proof
end

