-- ==== Sys2Proof/WellFormed.lean ====
section
/-! DEFINITION. Which instruction words are well formed: no reserved operand coding, type or field value
(R22, R64 to R69, R73). -/

namespace Sys2Proof

/-- A source over a unit's own main and small files (A, I, VA, VB): main index 0..27 (R22). -/
def Src.okG : Src → Bool
  | .main n _ => n.toNat < 28
  | .small _ => true
  | .latch => true
  | .queue => true
  | .zero => true
  | .imm _ => true

/-- A C-unit scalar or predicate source: index 0..7, the latch, zero or an immediate (R97, R102). -/
def Src.okC : Src → Bool
  | .main n _ => n.toNat < 8
  | .small _ => false
  | .latch => true
  | .queue => false
  | .zero => true
  | .imm _ => true

/-- A capability source over c or kc: index 0..15, the latch or the null capability (R210, R244). -/
def Src.okCap : Src → Bool
  | .main n _ => n.toNat < 16
  | .small _ => false
  | .latch => true
  | .queue => false
  | .zero => true
  | .imm _ => false

/-- A kx source: R22 over kx0..kx27; K has no small file and no load-data queue (R244). -/
def Src.okKx : Src → Bool
  | .main n _ => n.toNat < 28
  | .small _ => false
  | .latch => true
  | .queue => false
  | .zero => true
  | .imm _ => true

/-- A mask operand: ma0..ma7, zero or an immediate (R128). -/
def Src.okMask : Src → Bool
  | .main n _ => n.toNat < 8
  | .small _ => false
  | .latch => false
  | .queue => false
  | .zero => true
  | .imm _ => true

/-- A wide-sum operand: wa0..wa3 (R149). -/
def Src.okWs : Src → Bool
  | .main n _ => n.toNat < 4
  | .small _ => false
  | .latch => false
  | .queue => false
  | .zero => false
  | .imm _ => false

/-- A translate-handle operand: xh0..xh7 (R242). -/
def Src.okXh : Src → Bool
  | .main n _ => n.toNat < 8
  | .small _ => false
  | .latch => false
  | .queue => false
  | .zero => false
  | .imm _ => false

/-- An S-unit register operand: index 0..15 at level 00 or 01 (R189). -/
def Src.okS : Src → Bool
  | .main n _ => n.toNat < 16
  | .small _ => false
  | .latch => false
  | .queue => false
  | .zero => false
  | .imm _ => false

/-- The first value register of `kdef`: index + c - 1 is at most 27 (R296). -/
def Src.okKdef (cnt : BitVec 2) : Src → Bool
  | .main n _ => n.toNat + cnt.toNat <= 27
  | .small _ => false
  | .latch => false
  | .queue => false
  | .zero => false
  | .imm _ => false

def VKind.isLanes : VKind → Bool
  | .lanes => true
  | .ws32 => false
  | .ws64 => false
  | .z _ => true

/-- The targets of `xput`: not the word's own unit, and a D value in the target's range (R123, R154). -/
def xputOk (u : DUnit) (t : XTgt) (n : BitVec 5) : Bool :=
  match t with
  | .c => n.toNat < 8
  | .a => u != .a
  | .i => u != .i
  | .va => u != .va
  | .vb => u != .vb
  | .k => n.toNat < 28

def CvtCode.isInt : CvtCode → Bool
  | .i32 => true | .i64 => true | .n32 => true | .n64 => true
  | .h => false | .b => false | .s => false | .d => false

/-- The reserved encodings of `fcvt` (R121). -/
def fcvtOk (rs : RSel) (src dst : CvtCode) : Bool :=
  !(src.isInt && dst.isInt) && src != dst &&
    (rs != .rto || (src == .d && (dst == .s || dst == .h || dst == .b)) || (src == .s && (dst == .h || dst == .b)))

def PackPair.isNarrow : PackPair → Bool
  | .hq => true | .bq => true
  | .ds => false | .sh => false | .sb => false | .i64 => false | .i32 => false | .i16 => false

def PackPair.isInt : PackPair → Bool
  | .i64 => true | .i32 => true | .i16 => true
  | .ds => false | .sh => false | .sb => false | .hq => false | .bq => false

/-- The reserved values of `vpack` (R147). -/
def vpackOk (pair : PackPair) (mode : BitVec 2) (fmt : BitVec 4) : Bool :=
  (pair.isNarrow || fmt == 0) && !(pair.isNarrow && mode == 3)

/-- The reserved values of `vunpk` (R147). -/
def vunpkOk (pair : PackPair) (mode : BitVec 2) (fmt : BitVec 4) : Bool :=
  (pair.isNarrow || fmt == 0) &&
    (if pair.isInt then mode.toNat < 2 else if pair.isNarrow then mode.toNat < 3 else mode == 0)

/-- A descriptor that R46 makes valid, from its SGN, EW, MW and SPEC fields. -/
def descFieldsValid (d : Nat) : Bool :=
  let sgn := natField d 0 1
  let ew := natField d 1 3
  let mw := natField d 4 3
  let spec := natField d 7 1
  ew <= 5 && 2 <= sgn + ew + mw && sgn + ew + mw <= 8 && (spec == 0 || 2 <= ew)

/-- The words of `fset` that are not ILLEGAL: a valid descriptor, or 0 (R186). -/
def fsetOk (valid : Bool) (imm : BitVec 16) : Bool :=
  if valid then descFieldsValid imm.toNat else imm == 0

/-- The matrix operand types of R167. -/
def matTypeOk (t : BitVec 4) : Bool :=
  [0, 1, 4, 5, 8, 9, 10, 11, 12].contains t.toNat

/-- The values of `mset.fmt` that are not reserved (R181). -/
def msetFmtOk (at1 af bt bf : BitVec 4) : Bool :=
  matTypeOk at1 && matTypeOk bt && (at1 == 12 || af == 0) && (bt == 12 || bf == 0)

/-- The numbers that name a system register (R108 and the register maps of the chapters). -/
def sysReadable (n : Nat) : Bool :=
  n <= 4 || n == 0x10 || n == 0x11 || (0x20 <= n && n <= 0x2C) || n == 0x30 || n == 0x31 ||
    (0x50 <= n && n <= 0x54) || (0x60 <= n && n <= 0x67) || (0x69 <= n && n <= 0x6E) || (0x100 <= n && n <= 0x13B)

/-- The system registers with a writable field: sy.fmode, sy.fflags, sy.dfault and sy.kitty0..3 (R33, R107). -/
def sysWritable (n : Nat) : Bool :=
  n == 0x10 || n == 0x11 || n == 0x21 || (0x28 <= n && n <= 0x2B)

/-- The side conditions of every word: source and destination codings, types and field values that are not reserved
(R22, R64 to R69, R73 and each entry). Events have none. -/
def Instr.wellFormed : Instr → Bool
  | .nop _ => true
  | .bra _ _ _ => true
  | .br _ _ a => a.okC
  | .call _ _ _ => true
  | .ret _ _ => true
  | .lset _ a _ => a.okC
  | .lend _ _ => true
  | .pand _ a b => a.okC && b.okC
  | .por _ a b => a.okC && b.okC
  | .pxor _ a b => a.okC && b.okC
  | .pnot _ a => a.okC
  | .pset _ a mode k => a.okC && (mode == .bit || k == 0)
  | .wanyTest _ a => a.okC
  | .wanyWait a => a.okC
  | .wallTest _ a => a.okC
  | .wallWait a => a.okC
  | .ffd _ a => a.okC
  | .dclr a => a.okC
  | .bar _ _ a => a.okC
  | .susp _ a b => a.okC && b.okC
  | .pick => true
  | .spawn => true
  | .join a => a.okC
  | .joinL => true
  | .yield a => a.okC
  | .trap _ _ a _ => a.okC
  | .rett => true
  | .rettSkip => true
  | .rettGoto a => a.okC
  | .rettAbort => true
  | .halt => true
  | .stepmark a => a.okC
  | .sysr _ num => sysReadable num.toNat
  | .sysw _ num => sysWritable num.toNat
  | .aadd _ a b => a.okG && b.okG
  | .asub _ a b => a.okG && b.okG
  | .ashl _ a b => a.okG && b.okG
  | .ashr _ a b => a.okG && b.okG
  | .aand _ a b => a.okG && b.okG
  | .aor _ a b => a.okG && b.okG
  | .aaddi _ a _ => a.okG
  | .amovi _ _ => true
  | .amovh _ _ => true
  | .acmp _ _ a b => a.okG && b.okG
  | .cmov _ a => a.okCap
  | .cclr _ a => a.okCap
  | .ccur _ a b => a.okCap && b.okG
  | .cinc _ a b => a.okCap && b.okG
  | .cbnd _ a b => a.okCap && b.okG
  | .cbndr _ a b => a.okCap && b.okG
  | .cperm _ a _ => a.okCap
  | .cget _ a _ => a.okCap
  | .ctag _ a b => a.okCap && b.okCap
  | .crev _ a => a.okCap
  | .jmpc a => a.okCap
  | .callc a => a.okCap
  | .ldA _ _ a b => a.okG && b.okG
  | .ldI _ _ a b => a.okG && b.okG
  | .stA _ _ a b => a.okG && b.okG
  | .stI _ _ a b => a.okG && b.okG
  | .vldVA k _ a b => a.okG && b.okG && (k.isLanes || b == .imm 0b11111#5)
  | .vldVB k _ a b => a.okG && b.okG && (k.isLanes || b == .imm 0b11111#5)
  | .vstVA k _ a b => a.okG && b.okG && (k.isLanes || b == .imm 0b11111#5)
  | .vstVB k _ a b => a.okG && b.okG && (k.isLanes || b == .imm 0b11111#5)
  | .vldgVA _ _ a b => a.okG && b.okG
  | .vldgVB _ _ a b => a.okG && b.okG
  | .vstsVA _ _ a b => a.okG && b.okG
  | .vstsVB _ _ a b => a.okG && b.okG
  | .lcap _ a b => a.okCap && b.okG
  | .scap _ a b => a.okG && b.okCap
  | .cas _ _ _ _ b => b.okG
  | .fence _ _ => true
  | .amoAdd _ _ _ _ _ b => b.okG
  | .amoAnd _ _ _ _ _ b => b.okG
  | .amoOr _ _ _ _ _ b => b.okG
  | .amoXor _ _ _ _ _ b => b.okG
  | .amoSwap _ _ _ _ _ b => b.okG
  | .amoMin _ _ _ _ _ b => b.okG
  | .amoMax _ _ _ _ _ b => b.okG
  | .amoWsadd _ _ _ _ _ => true
  | .tclrReg _ _ => true
  | .tclrPath _ => true
  | .tclrCap _ => true
  | .tdepReg _ _ a => a.okG
  | .tdepPath _ a => a.okG
  | .tdepCap _ a => a.okG
  | .xput u t n a => xputOk u t n && a.okG
  | .keep _ a => a.okG
  | .keepW32 _ a => a.okWs
  | .keepW64 _ a => a.okWs
  | .xlat _ a b => a.okCap && b.okG
  | .xrel a => a.okXh
  | .xrelRd _ a => a.okXh
  | .add _ _ a b => a.okG && b.okG
  | .sub _ _ a b => a.okG && b.okG
  | .mul _ _ a b => a.okG && b.okG
  | .and _ _ a b => a.okG && b.okG
  | .or _ _ a b => a.okG && b.okG
  | .xor _ _ a b => a.okG && b.okG
  | .andn _ _ a b => a.okG && b.okG
  | .shl _ _ a b => a.okG && b.okG
  | .shr _ _ a b => a.okG && b.okG
  | .sar _ _ a b => a.okG && b.okG
  | .rot _ _ a b => a.okG && b.okG
  | .sel _ _ a b => a.okG && b.okG
  | .mulh _ _ a b => a.okG && b.okG
  | .min _ _ a b => a.okG && b.okG
  | .max _ _ a b => a.okG && b.okG
  | .addSat _ _ a b => a.okG && b.okG
  | .subSat _ _ a b => a.okG && b.okG
  | .mulSat _ _ a b => a.okG && b.okG
  | .shlSat _ _ a b => a.okG && b.okG
  | .div _ d a b => a.okG && b.okG && d.toNat < 28
  | .rem _ d a b => a.okG && b.okG && d.toNat < 28
  | .divSat _ d a b => a.okG && b.okG && d.toNat < 28
  | .addi _ a _ => a.okG
  | .movi _ _ => true
  | .movh _ _ => true
  | .clz _ _ a => a.okG
  | .ctz _ _ a => a.okG
  | .popc _ _ a => a.okG
  | .cmp _ _ _ a b => a.okG && b.okG
  | .ext _ _ a => a.okG
  | .bfx _ _ a b => a.okG && b.okG
  | .bfi _ a b => a.okG && b.okG
  | .fadd _ _ a b => a.okG && b.okG
  | .fsub _ _ a b => a.okG && b.okG
  | .fmul _ _ a b => a.okG && b.okG
  | .ffma _ _ a b => a.okG && b.okG
  | .fmin _ _ a b => a.okG && b.okG
  | .fmax _ _ a b => a.okG && b.okG
  | .fcmp _ _ a b => a.okG && b.okG
  | .fdiv _ d a b => a.okG && b.okG && d.toNat < 28
  | .fsqrt _ d a => a.okG && d.toNat < 28
  | .fcvt rs src dst _ a => fcvtOk rs src dst && a.okG
  | .vadd _ _ _ a b => a.okG && b.okG
  | .vsub _ _ _ a b => a.okG && b.okG
  | .vmul _ _ _ a b => a.okG && b.okG
  | .vaddSat _ _ _ a b => a.okG && b.okG
  | .vsubSat _ _ _ a b => a.okG && b.okG
  | .vfma _ _ _ a b => a.okG && b.okG
  | .vfms _ _ _ a b => a.okG && b.okG
  | .vnfma _ _ _ a b => a.okG && b.okG
  | .vdivFp _ _ d a b => a.okG && b.okG && d.toNat < 28
  | .vsqrt _ _ d a => a.okG && d.toNat < 28
  | .vdivInt _ _ d a b => a.okG && b.okG && d.toNat < 28
  | .vdivSat _ _ d a b => a.okG && b.okG && d.toNat < 28
  | .vrcpe _ _ _ a => a.okG
  | .vrsqe _ _ _ a => a.okG
  | .vminFp _ _ _ a b => a.okG && b.okG
  | .vmaxFp _ _ _ a b => a.okG && b.okG
  | .vminInt _ _ _ a b => a.okG && b.okG
  | .vmaxInt _ _ _ a b => a.okG && b.okG
  | .vabs _ _ _ a => a.okG
  | .vneg _ _ _ a => a.okG
  | .vand _ _ _ a b => a.okG && b.okG
  | .vor _ _ _ a b => a.okG && b.okG
  | .vxor _ _ _ a b => a.okG && b.okG
  | .vshl _ _ _ a b => a.okG && b.okG
  | .vshr _ _ _ a b => a.okG && b.okG
  | .vsar _ _ _ a b => a.okG && b.okG
  | .vnot _ _ _ a => a.okG
  | .vcmpFp _ _ _ _ a b => a.okG && b.okG
  | .vcmpInt _ _ _ _ a b => a.okG && b.okG
  | .vsel _ _ _ a b => a.okG && b.okG
  | .vmand _ _ a b => a.okMask && b.okMask
  | .vmor _ _ a b => a.okMask && b.okMask
  | .vmnot _ _ a => a.okMask
  | .vmpop _ _ a => a.okMask
  | .vmff _ _ a => a.okMask
  | .vmovi _ _ _ => true
  | .vidx _ _ _ a => a.okG
  | .vbcast _ _ _ a b => a.okG && b.okG
  | .vperm _ _ _ a b => a.okG && b.okG
  | .vrot _ _ _ a b => a.okG && b.okG
  | .vslideDn _ _ _ a b => a.okG && b.okG
  | .vslideUp _ _ _ a b => a.okG && b.okG
  | .vcvt _ _ _ _ rs _ a => rs != .rto && a.okG
  | .vpack _ pair _ mode fmt _ a => vpackOk pair mode fmt && a.okG
  | .vunpk _ pair _ mode fmt _ a => vunpkOk pair mode fmt && a.okG
  | .vredsum _ _ _ a _ => a.okG
  | .vredsumSat _ _ _ a _ => a.okG
  | .vredmaxFp _ _ _ a _ => a.okG
  | .vredminFp _ _ _ a _ => a.okG
  | .vredmaxInt _ _ _ a _ => a.okG
  | .vredminInt _ _ _ a _ => a.okG
  | .wsadd _ _ _ a _ => a.okG
  | .wsrnd _ _ _ a rs => rs != .rto && a.okWs
  | .wsclr _ _ => true
  | .wsmovW _ _ a => a.okG
  | .wsmovV _ _ a => a.okWs
  | .wsmov _ _ a => a.okWs
  | .wsmovPop _ _ => true
  | .kdef _ cnt _ _ a _ => a.okKdef cnt
  | .ktake _ cnt _ d _ => d.toNat + cnt.toNat + 1 <= 27
  | .kcnt _ _ _ => true
  | .mpass _ _ _ _ _ _ => true
  | .mzero _ _ => true
  | .mread _ _ _ db => db.toNat < 60
  | .mwrite _ _ _ db => db.toNat < 60
  | .mstat _ db => db.toNat < 60
  | .msetBase _ _ => true
  | .msetStride _ _ => true
  | .msetFmt _ atype afmt btype bfmt => msetFmtOk atype afmt btype bfmt
  | .msetScale _ qa qb qen => (qen || (qa == 0 && qb == 0))
  | .gset _ _ => true
  | .gsetAdd _ _ => true
  | .sld _ _ => true
  | .sset _ _ => true
  | .fset _ valid imm => fsetOk valid imm
  | .smov _ _ a => a.okS
  | .sclr _ _ => true
  | .ksetW _ _ b => b.okKx
  | .ksetC _ _ b => b.okCap
  | .ksetBnd _ a b => a.okCap && b.okKx
  | .ksetCur _ a b => a.okCap && b.okKx
  | .ksetLc _ a b => a.okCap && b.okKx
  | .ksetAdd d a b => d.toNat < 28 && a.okKx && b.okKx
  | .kcopy _ db _ _ => db.toNat < 60
  | .kmc _ db _ _ _ => db.toNat < 60
  | .kfill _ db _ => db.toNat < 60
  | .kcoll _ db _ _ _ _ => db.toNat < 60
  | .kpf _ _ => true
  | .kcan db => db.toNat < 60
  | .kstat _ a db => a.okKx && db.toNat < 60
  | .asyncFaultTaken => true
  | .dueEntryVisible => true
  | .fullEmptyResultArrive _ => true
  | .yieldExpire => true
  | .loadPerform _ => true
  | .storePerform _ => true
  | .extentResident _ _ => true
  | .sideLogReplay => true
  | .extentFirstTouch _ _ => true
  | .extentMigrate _ _ _ => true
  | .accessCounterHalve => true
  | .xlatHandleFill _ => true
  | .cardStart _ => true
  | .cardComplete _ => true
  | .mOpStart => true
  | .mOpEnd => true
  | .crevComplete => true
  | .spawnPerform _ => true
  | .joinPerform _ => true
  | .poolHandover => true
  | .cmdTailWrite _ _ => true
  | .cmdCtlWrite _ _ => true
  | .launch _ => true
  | .graph _ => true
  | .graphNodeStart _ _ => true
  | .waitRecord _ => true
  | .waitRecheck _ => true
  | .signal _ => true
  | .fenceRecord _ => true
  | .launchEnd _ => true
  | .hangLimit _ => true
  | .wallLimit _ => true
  | .preemption _ => true
  | .contextStop _ => true
  | .contextResume _ _ _ _ => true
  | .fatalFault => true
  | .abortTimeout _ => true
  | .sweepStart => true
  | .sweepCorePause => true
  | .sweepComplete => true
  | .hostRead _ => true
  | .hostWrite _ _ => true
  | .getTdispVersion _ => true
  | .getTdispCapabilities _ => true
  | .lockInterfaceRequest _ => true
  | .getDeviceInterfaceReport _ => true
  | .getDeviceInterfaceState _ => true
  | .startInterfaceRequest _ => true
  | .stopInterfaceRequest _ => true
  | .tdiError _ _ => true
  | .spdmRequest _ _ => true
  | .vendorDefinedRequest _ _ _ => true
  | .tokGo => true
  | .lockedItemWrite _ _ _ => true
  | .migrationSend _ => true
  | .migrationConfirm _ _ => true
  | .retryWindowExpire _ => true
  | .reattestWindowExpire _ => true
  | .flitCrcError _ _ => true
  | .linkDown _ => true
  | .peerMemoryRequest _ => true
  | .pausedResponse _ _ => true
  | .resumed _ => true
  | .memberMissing _ _ => true
  | .waitlimExpire _ _ => true
  | .collSegmentReceive _ _ _ _ _ => true
  | .resumeMember _ _ _ _ => true
  | .collJobComplete _ => true
  | .collJobFault _ _ => true
  | .kmcDestStop _ _ _ => true
  | .brown => true
  | .shedComplete _ => true
  | .stackReturn => true
  | .brownoutEscalate _ => true
  | .pwrf _ => true
  | .rackingStop _ => true
  | .powerUp => true
  | .erestartReached _ => true
  | .restartPwrf => true
  | .phaseLoss _ => true
  | .thermalSample _ _ => true
  | .patternChange _ _ => true
  | .thermalCut _ => true
  | .hbmRefresh _ _ => true
  | .frameZeroComplete _ _ => true
  | .correctedError _ _ _ => true
  | .journalEntryTimeout => true
  | .uncorrectableError _ _ _ => true
  | .scrubPass _ _ _ => true
  | .scrubrcpt _ => true
  | .ejhead => true
  | .journalTrim _ => true
  | .restartReport => true
  | .sweepRequest => true
  | .fwUpdate _ _ _ _ => true
  | .fwHeartbeat => true
  | .fwHeartbeatTimeout => true
  | .registerWrite _ _ => true
  | .droopCapChange _ => true
  | .linkUp _ => true
  | .linkLaneLost _ _ => true
  | .memberStateReport _ _ _ => true
  | .sweepVisit _ => true
  | .bufferSpaceEntryWrite _ _ _ => true
  | .powerLoss => true
  | .migrationImport _ _ => true

end Sys2Proof
end

