-- ==== Sys2Proof/Decode.lean ====
section
/-! DEFINITION. The encoder and the decoder of the instruction words, from the opcode map (R71), the formats (R63) and
the field roles of each entry. The decoder reads the fields of a word, then accepts the instruction exactly when it is
well formed and its own word is the word that was read: a nonzero bit in a field the entry leaves unused, a reserved
type or operand coding, is so refused (R64, R73). -/

namespace Sys2Proof

def UnitId.code : UnitId → BitVec 3
  | .C => 0 | .A => 1 | .I => 2 | .VA => 3 | .VB => 4 | .M => 5 | .K => 6 | .S => 7

def UnitId.ofCode (b : BitVec 3) : UnitId :=
  match b.toNat with
  | 0 => .C | 1 => .A | 2 => .I | 3 => .VA | 4 => .VB | 5 => .M | 6 => .K | _ => .S

def Width.code : Width → BitVec 2
  | .w8 => 0 | .w16 => 1 | .w32 => 2 | .w64 => 3

def Width.ofCode (b : BitVec 2) : Width :=
  match b.toNat with
  | 0 => .w8 | 1 => .w16 | 2 => .w32 | _ => .w64

def XType.code (t : XType) : BitVec 3 := BitVec.ofBool t.uns ++ t.w.code
def XType.ofCode (b : BitVec 3) : XType := ⟨b.getLsbD 2, Width.ofCode (b.extractLsb' 0 2)⟩

def FType.code : FType → BitVec 2
  | .h => 0 | .b => 1 | .s => 2 | .d => 3

def FType.ofCode (b : BitVec 2) : FType :=
  match b.toNat with
  | 0 => .h | 1 => .b | 2 => .s | _ => .d

def WType.code : WType → BitVec 3
  | .int w => 0#1 ++ w.code
  | .fp f => 1#1 ++ f.code

def WType.ofCode (b : BitVec 3) : WType :=
  if b.getLsbD 2 then .fp (FType.ofCode (b.extractLsb' 0 2)) else .int (Width.ofCode (b.extractLsb' 0 2))

def Src.code : Src → BitVec 7
  | .main n t => 0#1 ++ BitVec.ofBool t ++ n
  | .small n => 0b10#2 ++ 0#3 ++ n
  | .latch => 0b1000100#7
  | .queue => 0b1000101#7
  | .zero => 0b1000110#7
  | .imm v => 0b11#2 ++ v

/-- The reading of a source field. Level 10 index 7..31 names nothing; it is read as `zero` here, and the decoder
refuses it because `zero` is not coded so. -/
def Src.ofCode (b : BitVec 7) : Src :=
  if b.getLsbD 6 then
    if b.getLsbD 5 then .imm (b.extractLsb' 0 5)
    else
      match (b.extractLsb' 0 5).toNat with
      | 0 => .small 0 | 1 => .small 1 | 2 => .small 2 | 3 => .small 3
      | 4 => .latch | 5 => .queue | _ => .zero
  else .main (b.extractLsb' 0 5) (b.getLsbD 5)

def MaskSel.code : MaskSel → BitVec 7
  | .all => 0
  | .m n => 0b0001#4 ++ n

def MaskSel.ofCode (b : BitVec 7) : MaskSel :=
  if b.getLsbD 3 then .m (b.extractLsb' 0 3) else .all

def PsetMode.code : PsetMode → BitVec 2
  | .bit => 0 | .z => 1 | .nz => 2
def PsetMode.ofCode (b : BitVec 2) : PsetMode :=
  match b.toNat with
  | 0 => .bit | 1 => .z | _ => .nz

def ACond.code : ACond → BitVec 2
  | .eq => 0 | .ne => 1 | .lt => 2 | .ltu => 3
def ACond.ofCode (b : BitVec 2) : ACond :=
  match b.toNat with
  | 0 => .eq | 1 => .ne | 2 => .lt | _ => .ltu

def ICond.code : ICond → BitVec 2
  | .eq => 0 | .ne => 1 | .lt => 2 | .le => 3
def ICond.ofCode (b : BitVec 2) : ICond :=
  match b.toNat with
  | 0 => .eq | 1 => .ne | 2 => .lt | _ => .le

def FCond.code : FCond → BitVec 2
  | .eq => 0 | .lt => 1 | .le => 2 | .un => 3
def FCond.ofCode (b : BitVec 2) : FCond :=
  match b.toNat with
  | 0 => .eq | 1 => .lt | 2 => .le | _ => .un

def RSel.code : RSel → BitVec 3
  | .dyn => 0 | .rne => 1 | .rtz => 2 | .rup => 3 | .rdn => 4 | .rto => 5
def RSel.ofCode (b : BitVec 3) : RSel :=
  match b.toNat with
  | 0 => .dyn | 1 => .rne | 2 => .rtz | 3 => .rup | 4 => .rdn | _ => .rto

def CvtCode.code : CvtCode → BitVec 3
  | .i32 => 0 | .i64 => 1 | .n32 => 2 | .n64 => 3 | .h => 4 | .b => 5 | .s => 6 | .d => 7
def CvtCode.ofCode (b : BitVec 3) : CvtCode :=
  match b.toNat with
  | 0 => .i32 | 1 => .i64 | 2 => .n32 | 3 => .n64 | 4 => .h | 5 => .b | 6 => .s | _ => .d

def PackPair.code : PackPair → BitVec 3
  | .ds => 0 | .sh => 1 | .sb => 2 | .hq => 3 | .bq => 4 | .i64 => 5 | .i32 => 6 | .i16 => 7
def PackPair.ofCode (b : BitVec 3) : PackPair :=
  match b.toNat with
  | 0 => .ds | 1 => .sh | 2 => .sb | 3 => .hq | 4 => .bq | 5 => .i64 | 6 => .i32 | _ => .i16

def WsAddTy.code : WsAddTy → BitVec 3
  | .h32 => 0 | .b32 => 1 | .s32 => 2 | .h64 => 4 | .b64 => 5 | .s64 => 6 | .d64 => 7
def WsAddTy.ofCode (b : BitVec 3) : WsAddTy :=
  match b.toNat with
  | 0 => .h32 | 1 => .b32 | 2 => .s32 | 4 => .h64 | 5 => .b64 | 6 => .s64 | _ => .d64

def WsRndTy.code : WsRndTy → BitVec 3
  | .h32 => 0 | .b32 => 1 | .s32 => 2 | .s64 => 3 | .d64 => 4
def WsRndTy.ofCode (b : BitVec 3) : WsRndTy :=
  match b.toNat with
  | 0 => .h32 | 1 => .b32 | 2 => .s32 | 3 => .s64 | _ => .d64

def VKind.code : VKind → BitVec 3
  | .lanes => 0 | .ws32 => 1 | .ws64 => 2
  | .z m => 1#1 ++ m
def VKind.ofCode (b : BitVec 3) : VKind :=
  if b.getLsbD 2 then .z (b.extractLsb' 0 2)
  else match b.toNat with
    | 0 => .lanes | 1 => .ws32 | _ => .ws64

def GKind.code : GKind → BitVec 3
  | .lanes => 0
  | .z m => 1#1 ++ m
def GKind.ofCode (b : BitVec 3) : GKind :=
  if b.getLsbD 2 then .z (b.extractLsb' 0 2) else .lanes

def Scope.code : Scope → BitVec 3
  | .co => 0 | .cl => 1 | .di => 2 | .pk => 3 | .dom => 4 | .sy => 5
def Scope.ofCode (b : BitVec 3) : Scope :=
  match b.toNat with
  | 0 => .co | 1 => .cl | 2 => .di | 3 => .pk | 4 => .dom | _ => .sy

def Ordering4.code : Ordering4 → BitVec 2
  | .rlx => 0 | .acq => 1 | .rel => 2 | .ar => 3
def Ordering4.ofCode (b : BitVec 2) : Ordering4 :=
  match b.toNat with
  | 0 => .rlx | 1 => .acq | 2 => .rel | _ => .ar

def FenceKind.code : FenceKind → BitVec 3
  | .acq => 1 | .rel => 2 | .ar => 3
def FenceKind.ofCode (b : BitVec 3) : FenceKind :=
  match b.toNat with
  | 1 => .acq | 2 => .rel | _ => .ar

def XTgt.code : XTgt → BitVec 3
  | .c => 0 | .a => 1 | .i => 2 | .va => 3 | .vb => 4 | .k => 6
def XTgt.ofCode (b : BitVec 3) : XTgt :=
  match b.toNat with
  | 0 => .c | 1 => .a | 2 => .i | 3 => .va | 4 => .vb | _ => .k

def CapSel.code : CapSel → BitVec 5
  | .cursor => 0 | .base => 1 | .top => 2 | .perms => 3 | .gen => 4 | .index => 5 | .tag => 6 | .length => 7 | .exp => 8
def CapSel.ofCode (b : BitVec 5) : CapSel :=
  match b.toNat with
  | 0 => .cursor | 1 => .base | 2 => .top | 3 => .perms | 4 => .gen | 5 => .index | 6 => .tag | 7 => .length
  | _ => .exp

def MwForm.code : MwForm → BitVec 3
  | .single => 0 | .pair => 1 | .bc => 2
def MwForm.ofCode (b : BitVec 3) : MwForm :=
  match b.toNat with
  | 0 => .single | 1 => .pair | _ => .bc

def PfLevel.code : PfLevel → BitVec 2
  | .l2 => 0 | .cc => 1 | .l1 => 2 | .msc => 3
def PfLevel.ofCode (b : BitVec 2) : PfLevel :=
  match b.toNat with
  | 0 => .l2 | 1 => .cc | 2 => .l1 | _ => .msc

def CollOp.code : CollOp → BitVec 2
  | .ar => 0 | .rs => 1 | .ag => 2 | .bc => 3
def CollOp.ofCode (b : BitVec 2) : CollOp :=
  match b.toNat with
  | 0 => .ar | 1 => .rs | 2 => .ag | _ => .bc

def CollKind.code : CollKind → BitVec 2
  | .fp => 0 | .ws32 => 1 | .ws64 => 2
def CollKind.ofCode (b : BitVec 2) : CollKind :=
  match b.toNat with
  | 0 => .fp | 1 => .ws32 | _ => .ws64

/-- A word without its stop bit: the unit code in bits 30:28, the opcode in bits 27:22, the format's fields in bits
21:0 (R62, R63). -/
def mkWord (u : UnitId) (op : BitVec 6) (fields : BitVec 22) : BitVec 32 := 0#1 ++ u.code ++ op ++ fields

/-- The word of an instruction, stop bit clear; written from the opcode map (R71) and the field roles of each entry.
Events have no word and give 0. -/
def encode : Instr → BitVec 32
  | .nop u => mkWord u 0 0
  | .bra p n disp => mkWord .C 0x01#6 (p ++ (BitVec.ofBool n) ++ disp)
  | .br p n a => mkWord .C 0x02#6 (0#3 ++ 0#1 ++ (BitVec.ofBool n) ++ p ++ a.code ++ 0#7)
  | .call p n disp => mkWord .C 0x03#6 (p ++ (BitVec.ofBool n) ++ disp)
  | .ret p n => mkWord .C 0x04#6 (0#3 ++ 0#1 ++ (BitVec.ofBool n) ++ p ++ 0#7 ++ 0#7)
  | .lset l a imm => mkWord .C 0x05#6 (0#3 ++ l ++ a.code ++ imm)
  | .lend l disp => mkWord .C 0x06#6 (0#1 ++ l ++ 0#1 ++ disp)
  | .pand d a b => mkWord .C 0x08#6 (0#3 ++ 0#2 ++ d ++ a.code ++ b.code)
  | .por d a b => mkWord .C 0x09#6 (0#3 ++ 0#2 ++ d ++ a.code ++ b.code)
  | .pxor d a b => mkWord .C 0x0a#6 (0#3 ++ 0#2 ++ d ++ a.code ++ b.code)
  | .pnot d a => mkWord .C 0x0b#6 (0#3 ++ 0#2 ++ d ++ a.code ++ 0#7)
  | .pset d a mode k => mkWord .C 0x0c#6 (0#2 ++ d ++ a.code ++ mode.code ++ 0#2 ++ k)
  | .wanyTest d a => mkWord .C 0x10#6 (0#3 ++ 0#1 ++ 0b0#1 ++ d ++ a.code ++ 0#7)
  | .wanyWait a => mkWord .C 0x10#6 (0#3 ++ 0#1 ++ 0b1#1 ++ 0#3 ++ a.code ++ 0#7)
  | .wallTest d a => mkWord .C 0x11#6 (0#3 ++ 0#1 ++ 0b0#1 ++ d ++ a.code ++ 0#7)
  | .wallWait a => mkWord .C 0x11#6 (0#3 ++ 0#1 ++ 0b1#1 ++ 0#3 ++ a.code ++ 0#7)
  | .ffd d a => mkWord .C 0x12#6 (0#3 ++ 0#2 ++ d ++ a.code ++ 0#7)
  | .dclr a => mkWord .C 0x13#6 (0#3 ++ 0#5 ++ a.code ++ 0#7)
  | .bar b launch a => mkWord .C 0x14#6 (0#3 ++ 0#2 ++ (BitVec.ofBool launch) ++ b ++ a.code ++ 0#7)
  | .susp n a b => mkWord .C 0x18#6 (0#3 ++ 0#2 ++ n ++ a.code ++ b.code)
  | .pick => mkWord .C 0x19#6 (0#3 ++ 0#5 ++ 0#7 ++ 0#7)
  | .spawn => mkWord .C 0x1a#6 (0#3 ++ 0#5 ++ 0#7 ++ 0#7)
  | .join a => mkWord .C 0x1b#6 (0#3 ++ 0#4 ++ 0b0#1 ++ a.code ++ 0#7)
  | .joinL => mkWord .C 0x1b#6 (0#3 ++ 0#4 ++ 0b1#1 ++ 0#7 ++ 0#7)
  | .yield a => mkWord .C 0x1c#6 (0#3 ++ 0#5 ++ a.code ++ 0#7)
  | .trap p n a code => mkWord .C 0x20#6 (0#1 ++ (BitVec.ofBool n) ++ p ++ a.code ++ code)
  | .rett => mkWord .C 0x21#6 (0b000#3 ++ 0#5 ++ 0#7 ++ 0#7)
  | .rettSkip => mkWord .C 0x21#6 (0b001#3 ++ 0#5 ++ 0#7 ++ 0#7)
  | .rettGoto a => mkWord .C 0x21#6 (0b010#3 ++ 0#5 ++ a.code ++ 0#7)
  | .rettAbort => mkWord .C 0x21#6 (0b011#3 ++ 0#5 ++ 0#7 ++ 0#7)
  | .halt => mkWord .C 0x22#6 (0#3 ++ 0#5 ++ 0#7 ++ 0#7)
  | .stepmark a => mkWord .C 0x23#6 (0#3 ++ 0#5 ++ a.code ++ 0#7)
  | .sysr d num => mkWord .C 0x24#6 (0#2 ++ d ++ num)
  | .sysw d num => mkWord .C 0x25#6 (0#2 ++ d ++ num)
  | .aadd d a b => mkWord .A 0x01#6 (0#3 ++ d ++ a.code ++ b.code)
  | .asub d a b => mkWord .A 0x02#6 (0#3 ++ d ++ a.code ++ b.code)
  | .ashl d a b => mkWord .A 0x06#6 (0#3 ++ d ++ a.code ++ b.code)
  | .ashr d a b => mkWord .A 0x07#6 (0#3 ++ d ++ a.code ++ b.code)
  | .aand d a b => mkWord .A 0x08#6 (0#3 ++ d ++ a.code ++ b.code)
  | .aor d a b => mkWord .A 0x09#6 (0#3 ++ d ++ a.code ++ b.code)
  | .aaddi d a imm => mkWord .A 0x03#6 (d ++ a.code ++ imm)
  | .amovi d imm => mkWord .A 0x04#6 (d ++ imm)
  | .amovh d imm => mkWord .A 0x05#6 (d ++ 0#1 ++ imm)
  | .acmp cond d a b => mkWord .A 0x0a#6 (0#3 ++ cond.code ++ d ++ a.code ++ b.code)
  | .cmov d a => mkWord .A 0x10#6 (0#3 ++ 0#1 ++ d ++ a.code ++ 0#7)
  | .cclr d a => mkWord .A 0x18#6 (0#3 ++ 0#1 ++ d ++ a.code ++ 0#7)
  | .ccur d a b => mkWord .A 0x11#6 (0#3 ++ 0#1 ++ d ++ a.code ++ b.code)
  | .cinc d a b => mkWord .A 0x12#6 (0#3 ++ 0#1 ++ d ++ a.code ++ b.code)
  | .cbnd d a b => mkWord .A 0x13#6 (0#3 ++ 0#1 ++ d ++ a.code ++ b.code)
  | .cbndr d a b => mkWord .A 0x14#6 (0#3 ++ 0#1 ++ d ++ a.code ++ b.code)
  | .cperm d a mask => mkWord .A 0x15#6 (0#1 ++ d ++ a.code ++ 0#2 ++ mask)
  | .cget d a sel => mkWord .A 0x16#6 (0#3 ++ d ++ a.code ++ 0b11#2 ++ sel.code)
  | .ctag d a b => mkWord .A 0x17#6 (0#3 ++ 0#1 ++ d ++ a.code ++ b.code)
  | .crev d a => mkWord .A 0x19#6 (0#3 ++ 0#1 ++ d ++ a.code ++ 0#7)
  | .jmpc a => mkWord .A 0x1a#6 (0#3 ++ 0#5 ++ a.code ++ 0#7)
  | .callc a => mkWord .A 0x1b#6 (0#3 ++ 0#5 ++ a.code ++ 0#7)
  | .ldA ty cd a b => mkWord .A 0x20#6 (ty.code ++ 0#1 ++ cd ++ a.code ++ b.code)
  | .ldI ty cd a b => mkWord .A 0x21#6 (ty.code ++ 0#1 ++ cd ++ a.code ++ b.code)
  | .stA w cd a b => mkWord .A 0x28#6 (0#1 ++ w.code ++ 0#1 ++ cd ++ a.code ++ b.code)
  | .stI w cd a b => mkWord .A 0x29#6 (0#1 ++ w.code ++ 0#1 ++ cd ++ a.code ++ b.code)
  | .vldVA k cd a b => mkWord .A 0x22#6 (k.code ++ 0#1 ++ cd ++ a.code ++ b.code)
  | .vldVB k cd a b => mkWord .A 0x23#6 (k.code ++ 0#1 ++ cd ++ a.code ++ b.code)
  | .vstVA k cd a b => mkWord .A 0x2a#6 (k.code ++ 0#1 ++ cd ++ a.code ++ b.code)
  | .vstVB k cd a b => mkWord .A 0x2b#6 (k.code ++ 0#1 ++ cd ++ a.code ++ b.code)
  | .vldgVA k cd a b => mkWord .A 0x24#6 (k.code ++ 0#1 ++ cd ++ a.code ++ b.code)
  | .vldgVB k cd a b => mkWord .A 0x25#6 (k.code ++ 0#1 ++ cd ++ a.code ++ b.code)
  | .vstsVA k cd a b => mkWord .A 0x2c#6 (k.code ++ 0#1 ++ cd ++ a.code ++ b.code)
  | .vstsVB k cd a b => mkWord .A 0x2d#6 (k.code ++ 0#1 ++ cd ++ a.code ++ b.code)
  | .lcap d a b => mkWord .A 0x26#6 (0#3 ++ 0#1 ++ d ++ a.code ++ b.code)
  | .scap cd a b => mkWord .A 0x2e#6 (0#3 ++ 0#1 ++ cd ++ a.code ++ b.code)
  | .cas w cd sc ord b => mkWord .A 0x27#6 (0#1 ++ w.code ++ 0#1 ++ cd ++ 0#2 ++ ord.code ++ sc.code ++ b.code)
  | .fence k sc => mkWord .A 0x2f#6 (k.code ++ 0#2 ++ sc.code ++ 0#7 ++ 0#7)
  | .amoAdd w ret cd sc ord b => mkWord .A 0x30#6 (0#1 ++ w.code ++ (BitVec.ofBool ret) ++ cd ++ 0#2 ++ ord.code ++ sc.code ++ b.code)
  | .amoAnd w ret cd sc ord b => mkWord .A 0x31#6 (0#1 ++ w.code ++ (BitVec.ofBool ret) ++ cd ++ 0#2 ++ ord.code ++ sc.code ++ b.code)
  | .amoOr w ret cd sc ord b => mkWord .A 0x32#6 (0#1 ++ w.code ++ (BitVec.ofBool ret) ++ cd ++ 0#2 ++ ord.code ++ sc.code ++ b.code)
  | .amoXor w ret cd sc ord b => mkWord .A 0x33#6 (0#1 ++ w.code ++ (BitVec.ofBool ret) ++ cd ++ 0#2 ++ ord.code ++ sc.code ++ b.code)
  | .amoSwap w ret cd sc ord b => mkWord .A 0x36#6 (0#1 ++ w.code ++ (BitVec.ofBool ret) ++ cd ++ 0#2 ++ ord.code ++ sc.code ++ b.code)
  | .amoMin ty ret cd sc ord b => mkWord .A 0x34#6 (ty.code ++ (BitVec.ofBool ret) ++ cd ++ 0#2 ++ ord.code ++ sc.code ++ b.code)
  | .amoMax ty ret cd sc ord b => mkWord .A 0x35#6 (ty.code ++ (BitVec.ofBool ret) ++ cd ++ 0#2 ++ ord.code ++ sc.code ++ b.code)
  | .amoWsadd u ws64 cd sc ord => mkWord .A 0x37#6 (0#1 ++ (BitVec.ofBool ws64) ++ (BitVec.ofBool (u == .vb)) ++ 0#1 ++ cd ++ 0#2 ++ ord.code ++ sc.code ++ 0#7)
  | .tclrReg u d => mkWord u.unit 0x38#6 (0b000#3 ++ d ++ 0#7 ++ 0#7)
  | .tclrPath u => mkWord u.unit 0x38#6 (0b001#3 ++ 0#5 ++ 0#7 ++ 0#7)
  | .tclrCap d => mkWord .A 0x38#6 (0b010#3 ++ 0#1 ++ d ++ 0#7 ++ 0#7)
  | .tdepReg u d a => mkWord u.unit 0x39#6 (0b000#3 ++ d ++ a.code ++ 0#7)
  | .tdepPath u a => mkWord u.unit 0x39#6 (0b001#3 ++ 0#5 ++ a.code ++ 0#7)
  | .tdepCap d a => mkWord .A 0x39#6 (0b010#3 ++ 0#1 ++ d ++ a.code ++ 0#7)
  | .xput u t n a => mkWord u.unit 0x3a#6 (t.code ++ n ++ a.code ++ 0#7)
  | .keep u a => mkWord u.unit 0x3b#6 (0b000#3 ++ 0#5 ++ a.code ++ 0#7)
  | .keepW32 u a => mkWord u.unit 0x3b#6 (0b001#3 ++ 0#5 ++ a.code ++ 0#7)
  | .keepW64 u a => mkWord u.unit 0x3b#6 (0b010#3 ++ 0#5 ++ a.code ++ 0#7)
  | .xlat d a b => mkWord .A 0x3c#6 (0#3 ++ 0#2 ++ d ++ a.code ++ b.code)
  | .xrel a => mkWord .A 0x3d#6 (0b000#3 ++ 0#5 ++ a.code ++ 0#7)
  | .xrelRd d a => mkWord .A 0x3d#6 (0b001#3 ++ d ++ a.code ++ 0#7)
  | .add w d a b => mkWord .I 0x01#6 (0#1 ++ w.code ++ d ++ a.code ++ b.code)
  | .sub w d a b => mkWord .I 0x02#6 (0#1 ++ w.code ++ d ++ a.code ++ b.code)
  | .mul w d a b => mkWord .I 0x06#6 (0#1 ++ w.code ++ d ++ a.code ++ b.code)
  | .and w d a b => mkWord .I 0x10#6 (0#1 ++ w.code ++ d ++ a.code ++ b.code)
  | .or w d a b => mkWord .I 0x11#6 (0#1 ++ w.code ++ d ++ a.code ++ b.code)
  | .xor w d a b => mkWord .I 0x12#6 (0#1 ++ w.code ++ d ++ a.code ++ b.code)
  | .andn w d a b => mkWord .I 0x13#6 (0#1 ++ w.code ++ d ++ a.code ++ b.code)
  | .shl w d a b => mkWord .I 0x14#6 (0#1 ++ w.code ++ d ++ a.code ++ b.code)
  | .shr w d a b => mkWord .I 0x15#6 (0#1 ++ w.code ++ d ++ a.code ++ b.code)
  | .sar w d a b => mkWord .I 0x16#6 (0#1 ++ w.code ++ d ++ a.code ++ b.code)
  | .rot w d a b => mkWord .I 0x17#6 (0#1 ++ w.code ++ d ++ a.code ++ b.code)
  | .sel w d a b => mkWord .I 0x1e#6 (0#1 ++ w.code ++ d ++ a.code ++ b.code)
  | .mulh ty d a b => mkWord .I 0x07#6 (ty.code ++ d ++ a.code ++ b.code)
  | .min ty d a b => mkWord .I 0x1c#6 (ty.code ++ d ++ a.code ++ b.code)
  | .max ty d a b => mkWord .I 0x1d#6 (ty.code ++ d ++ a.code ++ b.code)
  | .addSat ty d a b => mkWord .I 0x0a#6 (ty.code ++ d ++ a.code ++ b.code)
  | .subSat ty d a b => mkWord .I 0x0b#6 (ty.code ++ d ++ a.code ++ b.code)
  | .mulSat ty d a b => mkWord .I 0x0c#6 (ty.code ++ d ++ a.code ++ b.code)
  | .shlSat ty d a b => mkWord .I 0x0d#6 (ty.code ++ d ++ a.code ++ b.code)
  | .div ty d a b => mkWord .I 0x08#6 (ty.code ++ d ++ a.code ++ b.code)
  | .rem ty d a b => mkWord .I 0x09#6 (ty.code ++ d ++ a.code ++ b.code)
  | .divSat ty d a b => mkWord .I 0x0e#6 (ty.code ++ d ++ a.code ++ b.code)
  | .addi d a imm => mkWord .I 0x03#6 (d ++ a.code ++ imm)
  | .movi d imm => mkWord .I 0x04#6 (d ++ imm)
  | .movh d imm => mkWord .I 0x05#6 (d ++ 0#1 ++ imm)
  | .clz w d a => mkWord .I 0x18#6 (0#1 ++ w.code ++ d ++ a.code ++ 0#7)
  | .ctz w d a => mkWord .I 0x19#6 (0#1 ++ w.code ++ d ++ a.code ++ 0#7)
  | .popc w d a => mkWord .I 0x1a#6 (0#1 ++ w.code ++ d ++ a.code ++ 0#7)
  | .cmp ty cond d a b => mkWord .I 0x1f#6 (ty.code ++ cond.code ++ d ++ a.code ++ b.code)
  | .ext ty d a => mkWord .I 0x20#6 (ty.code ++ d ++ a.code ++ 0#7)
  | .bfx sx d a b => mkWord .I 0x21#6 (0#2 ++ (BitVec.ofBool sx) ++ d ++ a.code ++ b.code)
  | .bfi d a b => mkWord .I 0x22#6 (0#3 ++ d ++ a.code ++ b.code)
  | .fadd f d a b => mkWord .I 0x28#6 (0#1 ++ f.code ++ d ++ a.code ++ b.code)
  | .fsub f d a b => mkWord .I 0x29#6 (0#1 ++ f.code ++ d ++ a.code ++ b.code)
  | .fmul f d a b => mkWord .I 0x2a#6 (0#1 ++ f.code ++ d ++ a.code ++ b.code)
  | .ffma f d a b => mkWord .I 0x2b#6 (0#1 ++ f.code ++ d ++ a.code ++ b.code)
  | .fmin f d a b => mkWord .I 0x2e#6 (0#1 ++ f.code ++ d ++ a.code ++ b.code)
  | .fmax f d a b => mkWord .I 0x2f#6 (0#1 ++ f.code ++ d ++ a.code ++ b.code)
  | .fcmp f d a b => mkWord .I 0x30#6 (0#1 ++ f.code ++ d ++ a.code ++ b.code)
  | .fdiv f d a b => mkWord .I 0x2c#6 (0#1 ++ f.code ++ d ++ a.code ++ b.code)
  | .fsqrt f d a => mkWord .I 0x2d#6 (0#1 ++ f.code ++ d ++ a.code ++ 0#7)
  | .fcvt rs src dst d a => mkWord .I 0x31#6 (rs.code ++ d ++ a.code ++ 0#1 ++ dst.code ++ src.code)
  | .vadd u ty d a b => mkWord u.unit 0x01#6 (ty.code ++ d ++ a.code ++ b.code)
  | .vsub u ty d a b => mkWord u.unit 0x02#6 (ty.code ++ d ++ a.code ++ b.code)
  | .vmul u ty d a b => mkWord u.unit 0x03#6 (ty.code ++ d ++ a.code ++ b.code)
  | .vaddSat u ty d a b => mkWord u.unit 0x07#6 (ty.code ++ d ++ a.code ++ b.code)
  | .vsubSat u ty d a b => mkWord u.unit 0x17#6 (ty.code ++ d ++ a.code ++ b.code)
  | .vfma u f d a b => mkWord u.unit 0x04#6 (0#1 ++ f.code ++ d ++ a.code ++ b.code)
  | .vfms u f d a b => mkWord u.unit 0x05#6 (0#1 ++ f.code ++ d ++ a.code ++ b.code)
  | .vnfma u f d a b => mkWord u.unit 0x06#6 (0#1 ++ f.code ++ d ++ a.code ++ b.code)
  | .vdivFp u f d a b => mkWord u.unit 0x08#6 (0#1 ++ f.code ++ d ++ a.code ++ b.code)
  | .vsqrt u f d a => mkWord u.unit 0x09#6 (0#1 ++ f.code ++ d ++ a.code ++ 0#7)
  | .vdivInt u ty d a b => mkWord u.unit 0x23#6 (ty.code ++ d ++ a.code ++ b.code)
  | .vdivSat u ty d a b => mkWord u.unit 0x37#6 (ty.code ++ d ++ a.code ++ b.code)
  | .vrcpe u f d a => mkWord u.unit 0x0a#6 (0#1 ++ f.code ++ d ++ a.code ++ 0#7)
  | .vrsqe u f d a => mkWord u.unit 0x0b#6 (0#1 ++ f.code ++ d ++ a.code ++ 0#7)
  | .vminFp u f d a b => mkWord u.unit 0x0c#6 (0#1 ++ f.code ++ d ++ a.code ++ b.code)
  | .vmaxFp u f d a b => mkWord u.unit 0x0d#6 (0#1 ++ f.code ++ d ++ a.code ++ b.code)
  | .vminInt u ty d a b => mkWord u.unit 0x2d#6 (ty.code ++ d ++ a.code ++ b.code)
  | .vmaxInt u ty d a b => mkWord u.unit 0x2e#6 (ty.code ++ d ++ a.code ++ b.code)
  | .vabs u ty d a => mkWord u.unit 0x0e#6 (ty.code ++ d ++ a.code ++ 0#7)
  | .vneg u ty d a => mkWord u.unit 0x0f#6 (ty.code ++ d ++ a.code ++ 0#7)
  | .vand u w d a b => mkWord u.unit 0x10#6 (0#1 ++ w.code ++ d ++ a.code ++ b.code)
  | .vor u w d a b => mkWord u.unit 0x11#6 (0#1 ++ w.code ++ d ++ a.code ++ b.code)
  | .vxor u w d a b => mkWord u.unit 0x12#6 (0#1 ++ w.code ++ d ++ a.code ++ b.code)
  | .vshl u w d a b => mkWord u.unit 0x14#6 (0#1 ++ w.code ++ d ++ a.code ++ b.code)
  | .vshr u w d a b => mkWord u.unit 0x15#6 (0#1 ++ w.code ++ d ++ a.code ++ b.code)
  | .vsar u w d a b => mkWord u.unit 0x16#6 (0#1 ++ w.code ++ d ++ a.code ++ b.code)
  | .vnot u w d a => mkWord u.unit 0x13#6 (0#1 ++ w.code ++ d ++ a.code ++ 0#7)
  | .vcmpFp u f cond d a b => mkWord u.unit 0x18#6 (0#1 ++ f.code ++ cond.code ++ d ++ a.code ++ b.code)
  | .vcmpInt u ty cond d a b => mkWord u.unit 0x2f#6 (ty.code ++ cond.code ++ d ++ a.code ++ b.code)
  | .vsel u m d a b => mkWord u.unit 0x19#6 (m ++ d ++ a.code ++ b.code)
  | .vmand u d a b => mkWord u.unit 0x28#6 (0#3 ++ 0#2 ++ d ++ a.code ++ b.code)
  | .vmor u d a b => mkWord u.unit 0x29#6 (0#3 ++ 0#2 ++ d ++ a.code ++ b.code)
  | .vmnot u d a => mkWord u.unit 0x2a#6 (0#3 ++ 0#2 ++ d ++ a.code ++ 0#7)
  | .vmpop u d a => mkWord u.unit 0x2b#6 (0#3 ++ d ++ a.code ++ 0#7)
  | .vmff u d a => mkWord u.unit 0x2c#6 (0#3 ++ d ++ a.code ++ 0#7)
  | .vmovi u d imm => mkWord u.unit 0x1e#6 (d ++ imm)
  | .vidx u w d a => mkWord u.unit 0x1f#6 (0#1 ++ w.code ++ d ++ a.code ++ 0#7)
  | .vbcast u w d a b => mkWord u.unit 0x1d#6 (0#1 ++ w.code ++ d ++ a.code ++ b.code)
  | .vperm u w d a b => mkWord u.unit 0x20#6 (0#1 ++ w.code ++ d ++ a.code ++ b.code)
  | .vrot u w d a b => mkWord u.unit 0x21#6 (0#1 ++ w.code ++ d ++ a.code ++ b.code)
  | .vslideDn u w d a b => mkWord u.unit 0x22#6 (0b0#1 ++ w.code ++ d ++ a.code ++ b.code)
  | .vslideUp u w d a b => mkWord u.unit 0x22#6 (0b1#1 ++ w.code ++ d ++ a.code ++ b.code)
  | .vcvt u f toFp uns rs d a => mkWord u.unit 0x1a#6 ((BitVec.ofBool toFp) ++ f.code ++ d ++ a.code ++ (BitVec.ofBool uns) ++ rs.code ++ 0#3)
  | .vpack u pair hi mode fmt d a => mkWord u.unit 0x1b#6 (pair.code ++ d ++ a.code ++ (BitVec.ofBool hi) ++ mode ++ fmt)
  | .vunpk u pair hi mode fmt d a => mkWord u.unit 0x1c#6 (pair.code ++ d ++ a.code ++ (BitVec.ofBool hi) ++ mode ++ fmt)
  | .vredsum u ty d a sel => mkWord u.unit 0x24#6 (ty.code ++ d ++ a.code ++ sel.code)
  | .vredsumSat u ty d a sel => mkWord u.unit 0x27#6 (ty.code ++ d ++ a.code ++ sel.code)
  | .vredmaxFp u f d a sel => mkWord u.unit 0x25#6 (0#1 ++ f.code ++ d ++ a.code ++ sel.code)
  | .vredminFp u f d a sel => mkWord u.unit 0x26#6 (0#1 ++ f.code ++ d ++ a.code ++ sel.code)
  | .vredmaxInt u ty d a sel => mkWord u.unit 0x3c#6 (ty.code ++ d ++ a.code ++ sel.code)
  | .vredminInt u ty d a sel => mkWord u.unit 0x3d#6 (ty.code ++ d ++ a.code ++ sel.code)
  | .wsadd u ty w a sel => mkWord u.unit 0x30#6 (ty.code ++ 0#3 ++ w ++ a.code ++ sel.code)
  | .wsrnd u ty d a rs => mkWord u.unit 0x31#6 (ty.code ++ d ++ a.code ++ 0#4 ++ rs.code)
  | .wsclr u w => mkWord u.unit 0x32#6 (0#3 ++ 0#3 ++ w ++ 0#7 ++ 0#7)
  | .wsmovW u w a => mkWord u.unit 0x33#6 (0b000#3 ++ 0#3 ++ w ++ a.code ++ 0#7)
  | .wsmovV u d a => mkWord u.unit 0x33#6 (0b001#3 ++ d ++ a.code ++ 0#7)
  | .wsmov u w a => mkWord u.unit 0x33#6 (0b010#3 ++ 0#3 ++ w ++ a.code ++ 0#7)
  | .wsmovPop u w => mkWord u.unit 0x33#6 (0b011#3 ++ 0#3 ++ w ++ 0b1000101#7 ++ 0#7)
  | .kdef u cnt kt path a sel => mkWord u.unit 0x34#6 (0#1 ++ cnt ++ path ++ kt ++ a.code ++ sel.code)
  | .ktake u cnt kt d m => mkWord u.unit 0x35#6 (0#1 ++ cnt ++ d ++ 0#2 ++ kt ++ m ++ 0#7)
  | .kcnt u d kt => mkWord u.unit 0x36#6 (0#3 ++ d ++ 0#5 ++ kt ++ 0#7)
  | .mpass z sd gp cp n f => mkWord .M 0x01#6 (z ++ sd ++ gp ++ cp ++ n ++ (BitVec.ofBool f))
  | .mzero pair z => mkWord .M 0x02#6 (0#2 ++ (BitVec.ofBool pair) ++ z ++ 0#7 ++ 0#7)
  | .mread pair z sd db => mkWord .M 0x03#6 (0#2 ++ (BitVec.ofBool pair) ++ z ++ 0#4 ++ sd ++ 0#1 ++ db)
  | .mwrite form z sd db => mkWord .M 0x04#6 (form.code ++ z ++ 0#4 ++ sd ++ 0#1 ++ db)
  | .mstat sd db => mkWord .M 0x07#6 (0#3 ++ 0#2 ++ sd ++ 0#7 ++ 0#1 ++ db)
  | .msetBase sd v => mkWord .M 0x05#6 (0b000#3 ++ (v.extractLsb' 14 2) ++ sd ++ (v.extractLsb' 0 14))
  | .msetStride sd v => mkWord .M 0x05#6 (0b001#3 ++ (v.extractLsb' 14 2) ++ sd ++ (v.extractLsb' 0 14))
  | .msetFmt sd atype afmt btype bfmt => mkWord .M 0x05#6 (0b010#3 ++ (bfmt.extractLsb' 2 2) ++ sd ++ (bfmt.extractLsb' 0 2) ++ btype ++ afmt ++ atype)
  | .msetScale sd qa qb qen => mkWord .M 0x05#6 (0b011#3 ++ 0#2 ++ sd ++ 0#5 ++ (BitVec.ofBool qen) ++ qb ++ qa)
  | .gset gp off => mkWord .M 0x06#6 (0#3 ++ gp ++ 0b0#1 ++ 0#3 ++ off)
  | .gsetAdd gp off => mkWord .M 0x06#6 (0#3 ++ gp ++ 0b1#1 ++ 0#3 ++ off)
  | .sld q unit => mkWord .S 0x01#6 ((unit.extractLsb' 14 3) ++ 0#1 ++ q ++ (unit.extractLsb' 0 14))
  | .sset q imm => mkWord .S 0x02#6 (0#1 ++ q ++ 0#1 ++ imm)
  | .fset f valid imm => mkWord .S 0x03#6 (0#1 ++ f ++ (BitVec.ofBool valid) ++ imm)
  | .smov fmt d a => mkWord .S 0x04#6 (0#2 ++ (BitVec.ofBool fmt) ++ 0#1 ++ d ++ a.code ++ 0#7)
  | .sclr fmt d => mkWord .S 0x05#6 (0#2 ++ (BitVec.ofBool fmt) ++ 0#1 ++ d ++ 0#7 ++ 0#7)
  | .ksetW j k b => mkWord .K 0x01#6 (0b000#3 ++ 0#2 ++ j ++ 0b11001#5 ++ k ++ b.code)
  | .ksetC j dst b => mkWord .K 0x01#6 (0b001#3 ++ 0#2 ++ j ++ 0b110000#6 ++ (BitVec.ofBool dst) ++ b.code)
  | .ksetBnd d a b => mkWord .K 0x01#6 (0b010#3 ++ 0#1 ++ d ++ a.code ++ b.code)
  | .ksetCur d a b => mkWord .K 0x01#6 (0b011#3 ++ 0#1 ++ d ++ a.code ++ b.code)
  | .ksetLc d a b => mkWord .K 0x01#6 (0b100#3 ++ 0#1 ++ d ++ a.code ++ b.code)
  | .ksetAdd d a b => mkWord .K 0x01#6 (0b101#3 ++ d ++ a.code ++ b.code)
  | .kcopy j db fence tags => mkWord .K 0x02#6 (j ++ db ++ 0#11 ++ (BitVec.ofBool tags) ++ (BitVec.ofBool fence))
  | .kmc j db n fence tags => mkWord .K 0x03#6 (j ++ db ++ 0#6 ++ n ++ (BitVec.ofBool tags) ++ (BitVec.ofBool fence))
  | .kfill j db fence => mkWord .K 0x04#6 (j ++ db ++ 0#12 ++ (BitVec.ofBool fence))
  | .kcoll j db gid kind op fence => mkWord .K 0x05#6 (j ++ db ++ 0#2 ++ gid ++ kind.code ++ op.code ++ (BitVec.ofBool fence))
  | .kpf j level => mkWord .K 0x06#6 (j ++ 0#6 ++ 0#11 ++ level.code)
  | .kcan db => mkWord .K 0x07#6 (0#3 ++ db ++ 0#13)
  | .kstat d a db => mkWord .K 0x08#6 (0#3 ++ 0#1 ++ d ++ a.code ++ 0#1 ++ db)
  | .asyncFaultTaken => 0
  | .dueEntryVisible => 0
  | .fullEmptyResultArrive _ => 0
  | .yieldExpire => 0
  | .loadPerform _ => 0
  | .storePerform _ => 0
  | .extentResident _ _ => 0
  | .sideLogReplay => 0
  | .extentFirstTouch _ _ => 0
  | .extentMigrate _ _ _ => 0
  | .accessCounterHalve => 0
  | .xlatHandleFill _ => 0
  | .cardStart _ => 0
  | .cardComplete _ => 0
  | .mOpStart => 0
  | .mOpEnd => 0
  | .crevComplete => 0
  | .spawnPerform _ => 0
  | .joinPerform _ => 0
  | .poolHandover => 0
  | .cmdTailWrite _ _ => 0
  | .cmdCtlWrite _ _ => 0
  | .launch _ => 0
  | .graph _ => 0
  | .graphNodeStart _ _ => 0
  | .waitRecord _ => 0
  | .waitRecheck _ => 0
  | .signal _ => 0
  | .fenceRecord _ => 0
  | .launchEnd _ => 0
  | .hangLimit _ => 0
  | .wallLimit _ => 0
  | .preemption _ => 0
  | .contextStop _ => 0
  | .contextResume _ _ _ _ => 0
  | .fatalFault => 0
  | .abortTimeout _ => 0
  | .sweepStart => 0
  | .sweepCorePause => 0
  | .sweepComplete => 0
  | .hostRead _ => 0
  | .hostWrite _ _ => 0
  | .getTdispVersion _ => 0
  | .getTdispCapabilities _ => 0
  | .lockInterfaceRequest _ => 0
  | .getDeviceInterfaceReport _ => 0
  | .getDeviceInterfaceState _ => 0
  | .startInterfaceRequest _ => 0
  | .stopInterfaceRequest _ => 0
  | .tdiError _ _ => 0
  | .spdmRequest _ _ => 0
  | .vendorDefinedRequest _ _ _ => 0
  | .tokGo => 0
  | .lockedItemWrite _ _ _ => 0
  | .migrationSend _ => 0
  | .migrationConfirm _ _ => 0
  | .retryWindowExpire _ => 0
  | .reattestWindowExpire _ => 0
  | .flitCrcError _ _ => 0
  | .linkDown _ => 0
  | .peerMemoryRequest _ => 0
  | .pausedResponse _ _ => 0
  | .resumed _ => 0
  | .memberMissing _ _ => 0
  | .waitlimExpire _ _ => 0
  | .collSegmentReceive _ _ _ _ _ => 0
  | .resumeMember _ _ _ _ => 0
  | .collJobComplete _ => 0
  | .collJobFault _ _ => 0
  | .kmcDestStop _ _ _ => 0
  | .brown => 0
  | .shedComplete _ => 0
  | .stackReturn => 0
  | .brownoutEscalate _ => 0
  | .pwrf _ => 0
  | .rackingStop _ => 0
  | .powerUp => 0
  | .erestartReached _ => 0
  | .restartPwrf => 0
  | .phaseLoss _ => 0
  | .thermalSample _ _ => 0
  | .patternChange _ _ => 0
  | .thermalCut _ => 0
  | .hbmRefresh _ _ => 0
  | .frameZeroComplete _ _ => 0
  | .correctedError _ _ _ => 0
  | .journalEntryTimeout => 0
  | .uncorrectableError _ _ _ => 0
  | .scrubPass _ _ _ => 0
  | .scrubrcpt _ => 0
  | .ejhead => 0
  | .journalTrim _ => 0
  | .restartReport => 0
  | .sweepRequest => 0
  | .fwUpdate _ _ _ _ => 0
  | .fwHeartbeat => 0
  | .fwHeartbeatTimeout => 0
  | .registerWrite _ _ => 0
  | .droopCapChange _ => 0
  | .linkUp _ => 0
  | .linkLaneLost _ _ => 0
  | .memberStateReport _ _ _ => 0
  | .sweepVisit _ => 0
  | .bufferSpaceEntryWrite _ _ _ => 0
  | .powerLoss => 0
  | .migrationImport _ _ => 0

/-- Whether an instruction is a word of a bundle (an event is not). -/
def Instr.isWord : Instr → Bool
  | .nop _ => true
  | .bra _ _ _ => true
  | .br _ _ _ => true
  | .call _ _ _ => true
  | .ret _ _ => true
  | .lset _ _ _ => true
  | .lend _ _ => true
  | .pand _ _ _ => true
  | .por _ _ _ => true
  | .pxor _ _ _ => true
  | .pnot _ _ => true
  | .pset _ _ _ _ => true
  | .wanyTest _ _ => true
  | .wanyWait _ => true
  | .wallTest _ _ => true
  | .wallWait _ => true
  | .ffd _ _ => true
  | .dclr _ => true
  | .bar _ _ _ => true
  | .susp _ _ _ => true
  | .pick => true
  | .spawn => true
  | .join _ => true
  | .joinL => true
  | .yield _ => true
  | .trap _ _ _ _ => true
  | .rett => true
  | .rettSkip => true
  | .rettGoto _ => true
  | .rettAbort => true
  | .halt => true
  | .stepmark _ => true
  | .sysr _ _ => true
  | .sysw _ _ => true
  | .aadd _ _ _ => true
  | .asub _ _ _ => true
  | .ashl _ _ _ => true
  | .ashr _ _ _ => true
  | .aand _ _ _ => true
  | .aor _ _ _ => true
  | .aaddi _ _ _ => true
  | .amovi _ _ => true
  | .amovh _ _ => true
  | .acmp _ _ _ _ => true
  | .cmov _ _ => true
  | .cclr _ _ => true
  | .ccur _ _ _ => true
  | .cinc _ _ _ => true
  | .cbnd _ _ _ => true
  | .cbndr _ _ _ => true
  | .cperm _ _ _ => true
  | .cget _ _ _ => true
  | .ctag _ _ _ => true
  | .crev _ _ => true
  | .jmpc _ => true
  | .callc _ => true
  | .ldA _ _ _ _ => true
  | .ldI _ _ _ _ => true
  | .stA _ _ _ _ => true
  | .stI _ _ _ _ => true
  | .vldVA _ _ _ _ => true
  | .vldVB _ _ _ _ => true
  | .vstVA _ _ _ _ => true
  | .vstVB _ _ _ _ => true
  | .vldgVA _ _ _ _ => true
  | .vldgVB _ _ _ _ => true
  | .vstsVA _ _ _ _ => true
  | .vstsVB _ _ _ _ => true
  | .lcap _ _ _ => true
  | .scap _ _ _ => true
  | .cas _ _ _ _ _ => true
  | .fence _ _ => true
  | .amoAdd _ _ _ _ _ _ => true
  | .amoAnd _ _ _ _ _ _ => true
  | .amoOr _ _ _ _ _ _ => true
  | .amoXor _ _ _ _ _ _ => true
  | .amoSwap _ _ _ _ _ _ => true
  | .amoMin _ _ _ _ _ _ => true
  | .amoMax _ _ _ _ _ _ => true
  | .amoWsadd _ _ _ _ _ => true
  | .tclrReg _ _ => true
  | .tclrPath _ => true
  | .tclrCap _ => true
  | .tdepReg _ _ _ => true
  | .tdepPath _ _ => true
  | .tdepCap _ _ => true
  | .xput _ _ _ _ => true
  | .keep _ _ => true
  | .keepW32 _ _ => true
  | .keepW64 _ _ => true
  | .xlat _ _ _ => true
  | .xrel _ => true
  | .xrelRd _ _ => true
  | .add _ _ _ _ => true
  | .sub _ _ _ _ => true
  | .mul _ _ _ _ => true
  | .and _ _ _ _ => true
  | .or _ _ _ _ => true
  | .xor _ _ _ _ => true
  | .andn _ _ _ _ => true
  | .shl _ _ _ _ => true
  | .shr _ _ _ _ => true
  | .sar _ _ _ _ => true
  | .rot _ _ _ _ => true
  | .sel _ _ _ _ => true
  | .mulh _ _ _ _ => true
  | .min _ _ _ _ => true
  | .max _ _ _ _ => true
  | .addSat _ _ _ _ => true
  | .subSat _ _ _ _ => true
  | .mulSat _ _ _ _ => true
  | .shlSat _ _ _ _ => true
  | .div _ _ _ _ => true
  | .rem _ _ _ _ => true
  | .divSat _ _ _ _ => true
  | .addi _ _ _ => true
  | .movi _ _ => true
  | .movh _ _ => true
  | .clz _ _ _ => true
  | .ctz _ _ _ => true
  | .popc _ _ _ => true
  | .cmp _ _ _ _ _ => true
  | .ext _ _ _ => true
  | .bfx _ _ _ _ => true
  | .bfi _ _ _ => true
  | .fadd _ _ _ _ => true
  | .fsub _ _ _ _ => true
  | .fmul _ _ _ _ => true
  | .ffma _ _ _ _ => true
  | .fmin _ _ _ _ => true
  | .fmax _ _ _ _ => true
  | .fcmp _ _ _ _ => true
  | .fdiv _ _ _ _ => true
  | .fsqrt _ _ _ => true
  | .fcvt _ _ _ _ _ => true
  | .vadd _ _ _ _ _ => true
  | .vsub _ _ _ _ _ => true
  | .vmul _ _ _ _ _ => true
  | .vaddSat _ _ _ _ _ => true
  | .vsubSat _ _ _ _ _ => true
  | .vfma _ _ _ _ _ => true
  | .vfms _ _ _ _ _ => true
  | .vnfma _ _ _ _ _ => true
  | .vdivFp _ _ _ _ _ => true
  | .vsqrt _ _ _ _ => true
  | .vdivInt _ _ _ _ _ => true
  | .vdivSat _ _ _ _ _ => true
  | .vrcpe _ _ _ _ => true
  | .vrsqe _ _ _ _ => true
  | .vminFp _ _ _ _ _ => true
  | .vmaxFp _ _ _ _ _ => true
  | .vminInt _ _ _ _ _ => true
  | .vmaxInt _ _ _ _ _ => true
  | .vabs _ _ _ _ => true
  | .vneg _ _ _ _ => true
  | .vand _ _ _ _ _ => true
  | .vor _ _ _ _ _ => true
  | .vxor _ _ _ _ _ => true
  | .vshl _ _ _ _ _ => true
  | .vshr _ _ _ _ _ => true
  | .vsar _ _ _ _ _ => true
  | .vnot _ _ _ _ => true
  | .vcmpFp _ _ _ _ _ _ => true
  | .vcmpInt _ _ _ _ _ _ => true
  | .vsel _ _ _ _ _ => true
  | .vmand _ _ _ _ => true
  | .vmor _ _ _ _ => true
  | .vmnot _ _ _ => true
  | .vmpop _ _ _ => true
  | .vmff _ _ _ => true
  | .vmovi _ _ _ => true
  | .vidx _ _ _ _ => true
  | .vbcast _ _ _ _ _ => true
  | .vperm _ _ _ _ _ => true
  | .vrot _ _ _ _ _ => true
  | .vslideDn _ _ _ _ _ => true
  | .vslideUp _ _ _ _ _ => true
  | .vcvt _ _ _ _ _ _ _ => true
  | .vpack _ _ _ _ _ _ _ => true
  | .vunpk _ _ _ _ _ _ _ => true
  | .vredsum _ _ _ _ _ => true
  | .vredsumSat _ _ _ _ _ => true
  | .vredmaxFp _ _ _ _ _ => true
  | .vredminFp _ _ _ _ _ => true
  | .vredmaxInt _ _ _ _ _ => true
  | .vredminInt _ _ _ _ _ => true
  | .wsadd _ _ _ _ _ => true
  | .wsrnd _ _ _ _ _ => true
  | .wsclr _ _ => true
  | .wsmovW _ _ _ => true
  | .wsmovV _ _ _ => true
  | .wsmov _ _ _ => true
  | .wsmovPop _ _ => true
  | .kdef _ _ _ _ _ _ => true
  | .ktake _ _ _ _ _ => true
  | .kcnt _ _ _ => true
  | .mpass _ _ _ _ _ _ => true
  | .mzero _ _ => true
  | .mread _ _ _ _ => true
  | .mwrite _ _ _ _ => true
  | .mstat _ _ => true
  | .msetBase _ _ => true
  | .msetStride _ _ => true
  | .msetFmt _ _ _ _ _ => true
  | .msetScale _ _ _ _ => true
  | .gset _ _ => true
  | .gsetAdd _ _ => true
  | .sld _ _ => true
  | .sset _ _ => true
  | .fset _ _ _ => true
  | .smov _ _ _ => true
  | .sclr _ _ => true
  | .ksetW _ _ _ => true
  | .ksetC _ _ _ => true
  | .ksetBnd _ _ _ => true
  | .ksetCur _ _ _ => true
  | .ksetLc _ _ _ => true
  | .ksetAdd _ _ _ => true
  | .kcopy _ _ _ _ => true
  | .kmc _ _ _ _ _ => true
  | .kfill _ _ _ => true
  | .kcoll _ _ _ _ _ _ => true
  | .kpf _ _ => true
  | .kcan _ => true
  | .kstat _ _ _ => true
  | .asyncFaultTaken => false
  | .dueEntryVisible => false
  | .fullEmptyResultArrive _ => false
  | .yieldExpire => false
  | .loadPerform _ => false
  | .storePerform _ => false
  | .extentResident _ _ => false
  | .sideLogReplay => false
  | .extentFirstTouch _ _ => false
  | .extentMigrate _ _ _ => false
  | .accessCounterHalve => false
  | .xlatHandleFill _ => false
  | .cardStart _ => false
  | .cardComplete _ => false
  | .mOpStart => false
  | .mOpEnd => false
  | .crevComplete => false
  | .spawnPerform _ => false
  | .joinPerform _ => false
  | .poolHandover => false
  | .cmdTailWrite _ _ => false
  | .cmdCtlWrite _ _ => false
  | .launch _ => false
  | .graph _ => false
  | .graphNodeStart _ _ => false
  | .waitRecord _ => false
  | .waitRecheck _ => false
  | .signal _ => false
  | .fenceRecord _ => false
  | .launchEnd _ => false
  | .hangLimit _ => false
  | .wallLimit _ => false
  | .preemption _ => false
  | .contextStop _ => false
  | .contextResume _ _ _ _ => false
  | .fatalFault => false
  | .abortTimeout _ => false
  | .sweepStart => false
  | .sweepCorePause => false
  | .sweepComplete => false
  | .hostRead _ => false
  | .hostWrite _ _ => false
  | .getTdispVersion _ => false
  | .getTdispCapabilities _ => false
  | .lockInterfaceRequest _ => false
  | .getDeviceInterfaceReport _ => false
  | .getDeviceInterfaceState _ => false
  | .startInterfaceRequest _ => false
  | .stopInterfaceRequest _ => false
  | .tdiError _ _ => false
  | .spdmRequest _ _ => false
  | .vendorDefinedRequest _ _ _ => false
  | .tokGo => false
  | .lockedItemWrite _ _ _ => false
  | .migrationSend _ => false
  | .migrationConfirm _ _ => false
  | .retryWindowExpire _ => false
  | .reattestWindowExpire _ => false
  | .flitCrcError _ _ => false
  | .linkDown _ => false
  | .peerMemoryRequest _ => false
  | .pausedResponse _ _ => false
  | .resumed _ => false
  | .memberMissing _ _ => false
  | .waitlimExpire _ _ => false
  | .collSegmentReceive _ _ _ _ _ => false
  | .resumeMember _ _ _ _ => false
  | .collJobComplete _ => false
  | .collJobFault _ _ => false
  | .kmcDestStop _ _ _ => false
  | .brown => false
  | .shedComplete _ => false
  | .stackReturn => false
  | .brownoutEscalate _ => false
  | .pwrf _ => false
  | .rackingStop _ => false
  | .powerUp => false
  | .erestartReached _ => false
  | .restartPwrf => false
  | .phaseLoss _ => false
  | .thermalSample _ _ => false
  | .patternChange _ _ => false
  | .thermalCut _ => false
  | .hbmRefresh _ _ => false
  | .frameZeroComplete _ _ => false
  | .correctedError _ _ _ => false
  | .journalEntryTimeout => false
  | .uncorrectableError _ _ _ => false
  | .scrubPass _ _ _ => false
  | .scrubrcpt _ => false
  | .ejhead => false
  | .journalTrim _ => false
  | .restartReport => false
  | .sweepRequest => false
  | .fwUpdate _ _ _ _ => false
  | .fwHeartbeat => false
  | .fwHeartbeatTimeout => false
  | .registerWrite _ _ => false
  | .droopCapChange _ => false
  | .linkUp _ => false
  | .linkLaneLost _ _ => false
  | .memberStateReport _ _ _ => false
  | .sweepVisit _ => false
  | .bufferSpaceEntryWrite _ _ _ => false
  | .powerLoss => false
  | .migrationImport _ _ => false

/-- The instruction whose fields a word of opcode `op` of the C unit holds; none for a reserved opcode (R71). -/
def candidateC (op : Nat) (w : BitVec 32) : Option Instr :=
  match op with
  | 0x00 => some (.nop .C)
  | 0x01 => some (.bra (w.extractLsb' 19 3) (((w.extractLsb' 18 1) == 1#1)) (w.extractLsb' 0 18))
  | 0x02 => some (.br (w.extractLsb' 14 3) (((w.extractLsb' 17 1) == 1#1)) (Src.ofCode (w.extractLsb' 7 7)))
  | 0x03 => some (.call (w.extractLsb' 19 3) (((w.extractLsb' 18 1) == 1#1)) (w.extractLsb' 0 18))
  | 0x04 => some (.ret (w.extractLsb' 14 3) (((w.extractLsb' 17 1) == 1#1)))
  | 0x05 => some (.lset (w.extractLsb' 17 2) (Src.ofCode (w.extractLsb' 10 7)) (w.extractLsb' 0 10))
  | 0x06 => some (.lend (w.extractLsb' 19 2) (w.extractLsb' 0 18))
  | 0x08 => some (.pand (w.extractLsb' 14 3) (Src.ofCode (w.extractLsb' 7 7)) (Src.ofCode (w.extractLsb' 0 7)))
  | 0x09 => some (.por (w.extractLsb' 14 3) (Src.ofCode (w.extractLsb' 7 7)) (Src.ofCode (w.extractLsb' 0 7)))
  | 0x0a => some (.pxor (w.extractLsb' 14 3) (Src.ofCode (w.extractLsb' 7 7)) (Src.ofCode (w.extractLsb' 0 7)))
  | 0x0b => some (.pnot (w.extractLsb' 14 3) (Src.ofCode (w.extractLsb' 7 7)))
  | 0x0c => some (.pset (w.extractLsb' 17 3) (Src.ofCode (w.extractLsb' 10 7)) (PsetMode.ofCode (w.extractLsb' 8 2)) (w.extractLsb' 0 6))
  | 0x10 => if w.extractLsb' 17 1 == 0b0#1 then some (.wanyTest (w.extractLsb' 14 3) (Src.ofCode (w.extractLsb' 7 7)))
    else some (.wanyWait (Src.ofCode (w.extractLsb' 7 7)))
  | 0x11 => if w.extractLsb' 17 1 == 0b0#1 then some (.wallTest (w.extractLsb' 14 3) (Src.ofCode (w.extractLsb' 7 7)))
    else some (.wallWait (Src.ofCode (w.extractLsb' 7 7)))
  | 0x12 => some (.ffd (w.extractLsb' 14 3) (Src.ofCode (w.extractLsb' 7 7)))
  | 0x13 => some (.dclr (Src.ofCode (w.extractLsb' 7 7)))
  | 0x14 => some (.bar (w.extractLsb' 14 2) (((w.extractLsb' 16 1) == 1#1)) (Src.ofCode (w.extractLsb' 7 7)))
  | 0x18 => some (.susp (w.extractLsb' 14 3) (Src.ofCode (w.extractLsb' 7 7)) (Src.ofCode (w.extractLsb' 0 7)))
  | 0x19 => some (.pick)
  | 0x1a => some (.spawn)
  | 0x1b => if w.extractLsb' 14 1 == 0b0#1 then some (.join (Src.ofCode (w.extractLsb' 7 7)))
    else some (.joinL)
  | 0x1c => some (.yield (Src.ofCode (w.extractLsb' 7 7)))
  | 0x20 => some (.trap (w.extractLsb' 17 3) (((w.extractLsb' 20 1) == 1#1)) (Src.ofCode (w.extractLsb' 10 7)) (w.extractLsb' 0 10))
  | 0x21 => if w.extractLsb' 19 3 == 0b000#3 then some (.rett)
    else if w.extractLsb' 19 3 == 0b001#3 then some (.rettSkip)
    else if w.extractLsb' 19 3 == 0b010#3 then some (.rettGoto (Src.ofCode (w.extractLsb' 7 7)))
    else some (.rettAbort)
  | 0x22 => some (.halt)
  | 0x23 => some (.stepmark (Src.ofCode (w.extractLsb' 7 7)))
  | 0x24 => some (.sysr (w.extractLsb' 17 3) (w.extractLsb' 0 17))
  | 0x25 => some (.sysw (w.extractLsb' 17 3) (w.extractLsb' 0 17))
  | _ => none

/-- The instruction whose fields a word of opcode `op` of the A unit holds; none for a reserved opcode (R71). -/
def candidateA (op : Nat) (w : BitVec 32) : Option Instr :=
  match op with
  | 0x00 => some (.nop .A)
  | 0x01 => some (.aadd (w.extractLsb' 14 5) (Src.ofCode (w.extractLsb' 7 7)) (Src.ofCode (w.extractLsb' 0 7)))
  | 0x02 => some (.asub (w.extractLsb' 14 5) (Src.ofCode (w.extractLsb' 7 7)) (Src.ofCode (w.extractLsb' 0 7)))
  | 0x03 => some (.aaddi (w.extractLsb' 17 5) (Src.ofCode (w.extractLsb' 10 7)) (w.extractLsb' 0 10))
  | 0x04 => some (.amovi (w.extractLsb' 17 5) (w.extractLsb' 0 17))
  | 0x05 => some (.amovh (w.extractLsb' 17 5) (w.extractLsb' 0 16))
  | 0x06 => some (.ashl (w.extractLsb' 14 5) (Src.ofCode (w.extractLsb' 7 7)) (Src.ofCode (w.extractLsb' 0 7)))
  | 0x07 => some (.ashr (w.extractLsb' 14 5) (Src.ofCode (w.extractLsb' 7 7)) (Src.ofCode (w.extractLsb' 0 7)))
  | 0x08 => some (.aand (w.extractLsb' 14 5) (Src.ofCode (w.extractLsb' 7 7)) (Src.ofCode (w.extractLsb' 0 7)))
  | 0x09 => some (.aor (w.extractLsb' 14 5) (Src.ofCode (w.extractLsb' 7 7)) (Src.ofCode (w.extractLsb' 0 7)))
  | 0x0a => some (.acmp (ACond.ofCode (w.extractLsb' 17 2)) (w.extractLsb' 14 3) (Src.ofCode (w.extractLsb' 7 7)) (Src.ofCode (w.extractLsb' 0 7)))
  | 0x10 => some (.cmov (w.extractLsb' 14 4) (Src.ofCode (w.extractLsb' 7 7)))
  | 0x11 => some (.ccur (w.extractLsb' 14 4) (Src.ofCode (w.extractLsb' 7 7)) (Src.ofCode (w.extractLsb' 0 7)))
  | 0x12 => some (.cinc (w.extractLsb' 14 4) (Src.ofCode (w.extractLsb' 7 7)) (Src.ofCode (w.extractLsb' 0 7)))
  | 0x13 => some (.cbnd (w.extractLsb' 14 4) (Src.ofCode (w.extractLsb' 7 7)) (Src.ofCode (w.extractLsb' 0 7)))
  | 0x14 => some (.cbndr (w.extractLsb' 14 4) (Src.ofCode (w.extractLsb' 7 7)) (Src.ofCode (w.extractLsb' 0 7)))
  | 0x15 => some (.cperm (w.extractLsb' 17 4) (Src.ofCode (w.extractLsb' 10 7)) (w.extractLsb' 0 8))
  | 0x16 => some (.cget (w.extractLsb' 14 5) (Src.ofCode (w.extractLsb' 7 7)) (CapSel.ofCode (w.extractLsb' 0 5)))
  | 0x17 => some (.ctag (w.extractLsb' 14 4) (Src.ofCode (w.extractLsb' 7 7)) (Src.ofCode (w.extractLsb' 0 7)))
  | 0x18 => some (.cclr (w.extractLsb' 14 4) (Src.ofCode (w.extractLsb' 7 7)))
  | 0x19 => some (.crev (w.extractLsb' 14 4) (Src.ofCode (w.extractLsb' 7 7)))
  | 0x1a => some (.jmpc (Src.ofCode (w.extractLsb' 7 7)))
  | 0x1b => some (.callc (Src.ofCode (w.extractLsb' 7 7)))
  | 0x20 => some (.ldA (XType.ofCode (w.extractLsb' 19 3)) (w.extractLsb' 14 4) (Src.ofCode (w.extractLsb' 7 7)) (Src.ofCode (w.extractLsb' 0 7)))
  | 0x21 => some (.ldI (XType.ofCode (w.extractLsb' 19 3)) (w.extractLsb' 14 4) (Src.ofCode (w.extractLsb' 7 7)) (Src.ofCode (w.extractLsb' 0 7)))
  | 0x22 => some (.vldVA (VKind.ofCode (w.extractLsb' 19 3)) (w.extractLsb' 14 4) (Src.ofCode (w.extractLsb' 7 7)) (Src.ofCode (w.extractLsb' 0 7)))
  | 0x23 => some (.vldVB (VKind.ofCode (w.extractLsb' 19 3)) (w.extractLsb' 14 4) (Src.ofCode (w.extractLsb' 7 7)) (Src.ofCode (w.extractLsb' 0 7)))
  | 0x24 => some (.vldgVA (GKind.ofCode (w.extractLsb' 19 3)) (w.extractLsb' 14 4) (Src.ofCode (w.extractLsb' 7 7)) (Src.ofCode (w.extractLsb' 0 7)))
  | 0x25 => some (.vldgVB (GKind.ofCode (w.extractLsb' 19 3)) (w.extractLsb' 14 4) (Src.ofCode (w.extractLsb' 7 7)) (Src.ofCode (w.extractLsb' 0 7)))
  | 0x26 => some (.lcap (w.extractLsb' 14 4) (Src.ofCode (w.extractLsb' 7 7)) (Src.ofCode (w.extractLsb' 0 7)))
  | 0x27 => some (.cas (Width.ofCode (w.extractLsb' 19 2)) (w.extractLsb' 14 4) (Scope.ofCode (w.extractLsb' 7 3)) (Ordering4.ofCode (w.extractLsb' 10 2)) (Src.ofCode (w.extractLsb' 0 7)))
  | 0x28 => some (.stA (Width.ofCode (w.extractLsb' 19 2)) (w.extractLsb' 14 4) (Src.ofCode (w.extractLsb' 7 7)) (Src.ofCode (w.extractLsb' 0 7)))
  | 0x29 => some (.stI (Width.ofCode (w.extractLsb' 19 2)) (w.extractLsb' 14 4) (Src.ofCode (w.extractLsb' 7 7)) (Src.ofCode (w.extractLsb' 0 7)))
  | 0x2a => some (.vstVA (VKind.ofCode (w.extractLsb' 19 3)) (w.extractLsb' 14 4) (Src.ofCode (w.extractLsb' 7 7)) (Src.ofCode (w.extractLsb' 0 7)))
  | 0x2b => some (.vstVB (VKind.ofCode (w.extractLsb' 19 3)) (w.extractLsb' 14 4) (Src.ofCode (w.extractLsb' 7 7)) (Src.ofCode (w.extractLsb' 0 7)))
  | 0x2c => some (.vstsVA (GKind.ofCode (w.extractLsb' 19 3)) (w.extractLsb' 14 4) (Src.ofCode (w.extractLsb' 7 7)) (Src.ofCode (w.extractLsb' 0 7)))
  | 0x2d => some (.vstsVB (GKind.ofCode (w.extractLsb' 19 3)) (w.extractLsb' 14 4) (Src.ofCode (w.extractLsb' 7 7)) (Src.ofCode (w.extractLsb' 0 7)))
  | 0x2e => some (.scap (w.extractLsb' 14 4) (Src.ofCode (w.extractLsb' 7 7)) (Src.ofCode (w.extractLsb' 0 7)))
  | 0x2f => some (.fence (FenceKind.ofCode (w.extractLsb' 19 3)) (Scope.ofCode (w.extractLsb' 14 3)))
  | 0x30 => some (.amoAdd (Width.ofCode (w.extractLsb' 19 2)) (((w.extractLsb' 18 1) == 1#1)) (w.extractLsb' 14 4) (Scope.ofCode (w.extractLsb' 7 3)) (Ordering4.ofCode (w.extractLsb' 10 2)) (Src.ofCode (w.extractLsb' 0 7)))
  | 0x31 => some (.amoAnd (Width.ofCode (w.extractLsb' 19 2)) (((w.extractLsb' 18 1) == 1#1)) (w.extractLsb' 14 4) (Scope.ofCode (w.extractLsb' 7 3)) (Ordering4.ofCode (w.extractLsb' 10 2)) (Src.ofCode (w.extractLsb' 0 7)))
  | 0x32 => some (.amoOr (Width.ofCode (w.extractLsb' 19 2)) (((w.extractLsb' 18 1) == 1#1)) (w.extractLsb' 14 4) (Scope.ofCode (w.extractLsb' 7 3)) (Ordering4.ofCode (w.extractLsb' 10 2)) (Src.ofCode (w.extractLsb' 0 7)))
  | 0x33 => some (.amoXor (Width.ofCode (w.extractLsb' 19 2)) (((w.extractLsb' 18 1) == 1#1)) (w.extractLsb' 14 4) (Scope.ofCode (w.extractLsb' 7 3)) (Ordering4.ofCode (w.extractLsb' 10 2)) (Src.ofCode (w.extractLsb' 0 7)))
  | 0x34 => some (.amoMin (XType.ofCode (w.extractLsb' 19 3)) (((w.extractLsb' 18 1) == 1#1)) (w.extractLsb' 14 4) (Scope.ofCode (w.extractLsb' 7 3)) (Ordering4.ofCode (w.extractLsb' 10 2)) (Src.ofCode (w.extractLsb' 0 7)))
  | 0x35 => some (.amoMax (XType.ofCode (w.extractLsb' 19 3)) (((w.extractLsb' 18 1) == 1#1)) (w.extractLsb' 14 4) (Scope.ofCode (w.extractLsb' 7 3)) (Ordering4.ofCode (w.extractLsb' 10 2)) (Src.ofCode (w.extractLsb' 0 7)))
  | 0x36 => some (.amoSwap (Width.ofCode (w.extractLsb' 19 2)) (((w.extractLsb' 18 1) == 1#1)) (w.extractLsb' 14 4) (Scope.ofCode (w.extractLsb' 7 3)) (Ordering4.ofCode (w.extractLsb' 10 2)) (Src.ofCode (w.extractLsb' 0 7)))
  | 0x37 => some (.amoWsadd (if (w.extractLsb' 19 1) == 1#1 then .vb else .va) (((w.extractLsb' 20 1) == 1#1)) (w.extractLsb' 14 4) (Scope.ofCode (w.extractLsb' 7 3)) (Ordering4.ofCode (w.extractLsb' 10 2)))
  | 0x38 => if w.extractLsb' 19 3 == 0b000#3 then some (.tclrReg .a (w.extractLsb' 14 5))
    else if w.extractLsb' 19 3 == 0b001#3 then some (.tclrPath .a)
    else some (.tclrCap (w.extractLsb' 14 4))
  | 0x39 => if w.extractLsb' 19 3 == 0b000#3 then some (.tdepReg .a (w.extractLsb' 14 5) (Src.ofCode (w.extractLsb' 7 7)))
    else if w.extractLsb' 19 3 == 0b001#3 then some (.tdepPath .a (Src.ofCode (w.extractLsb' 7 7)))
    else some (.tdepCap (w.extractLsb' 14 4) (Src.ofCode (w.extractLsb' 7 7)))
  | 0x3a => some (.xput .a (XTgt.ofCode (w.extractLsb' 19 3)) (w.extractLsb' 14 5) (Src.ofCode (w.extractLsb' 7 7)))
  | 0x3b => some (.keep .a (Src.ofCode (w.extractLsb' 7 7)))
  | 0x3c => some (.xlat (w.extractLsb' 14 3) (Src.ofCode (w.extractLsb' 7 7)) (Src.ofCode (w.extractLsb' 0 7)))
  | 0x3d => if w.extractLsb' 19 3 == 0b000#3 then some (.xrel (Src.ofCode (w.extractLsb' 7 7)))
    else some (.xrelRd (w.extractLsb' 14 5) (Src.ofCode (w.extractLsb' 7 7)))
  | _ => none

/-- The instruction whose fields a word of opcode `op` of the I unit holds; none for a reserved opcode (R71). -/
def candidateI (op : Nat) (w : BitVec 32) : Option Instr :=
  match op with
  | 0x00 => some (.nop .I)
  | 0x01 => some (.add (Width.ofCode (w.extractLsb' 19 2)) (w.extractLsb' 14 5) (Src.ofCode (w.extractLsb' 7 7)) (Src.ofCode (w.extractLsb' 0 7)))
  | 0x02 => some (.sub (Width.ofCode (w.extractLsb' 19 2)) (w.extractLsb' 14 5) (Src.ofCode (w.extractLsb' 7 7)) (Src.ofCode (w.extractLsb' 0 7)))
  | 0x03 => some (.addi (w.extractLsb' 17 5) (Src.ofCode (w.extractLsb' 10 7)) (w.extractLsb' 0 10))
  | 0x04 => some (.movi (w.extractLsb' 17 5) (w.extractLsb' 0 17))
  | 0x05 => some (.movh (w.extractLsb' 17 5) (w.extractLsb' 0 16))
  | 0x06 => some (.mul (Width.ofCode (w.extractLsb' 19 2)) (w.extractLsb' 14 5) (Src.ofCode (w.extractLsb' 7 7)) (Src.ofCode (w.extractLsb' 0 7)))
  | 0x07 => some (.mulh (XType.ofCode (w.extractLsb' 19 3)) (w.extractLsb' 14 5) (Src.ofCode (w.extractLsb' 7 7)) (Src.ofCode (w.extractLsb' 0 7)))
  | 0x08 => some (.div (XType.ofCode (w.extractLsb' 19 3)) (w.extractLsb' 14 5) (Src.ofCode (w.extractLsb' 7 7)) (Src.ofCode (w.extractLsb' 0 7)))
  | 0x09 => some (.rem (XType.ofCode (w.extractLsb' 19 3)) (w.extractLsb' 14 5) (Src.ofCode (w.extractLsb' 7 7)) (Src.ofCode (w.extractLsb' 0 7)))
  | 0x0a => some (.addSat (XType.ofCode (w.extractLsb' 19 3)) (w.extractLsb' 14 5) (Src.ofCode (w.extractLsb' 7 7)) (Src.ofCode (w.extractLsb' 0 7)))
  | 0x0b => some (.subSat (XType.ofCode (w.extractLsb' 19 3)) (w.extractLsb' 14 5) (Src.ofCode (w.extractLsb' 7 7)) (Src.ofCode (w.extractLsb' 0 7)))
  | 0x0c => some (.mulSat (XType.ofCode (w.extractLsb' 19 3)) (w.extractLsb' 14 5) (Src.ofCode (w.extractLsb' 7 7)) (Src.ofCode (w.extractLsb' 0 7)))
  | 0x0d => some (.shlSat (XType.ofCode (w.extractLsb' 19 3)) (w.extractLsb' 14 5) (Src.ofCode (w.extractLsb' 7 7)) (Src.ofCode (w.extractLsb' 0 7)))
  | 0x0e => some (.divSat (XType.ofCode (w.extractLsb' 19 3)) (w.extractLsb' 14 5) (Src.ofCode (w.extractLsb' 7 7)) (Src.ofCode (w.extractLsb' 0 7)))
  | 0x10 => some (.and (Width.ofCode (w.extractLsb' 19 2)) (w.extractLsb' 14 5) (Src.ofCode (w.extractLsb' 7 7)) (Src.ofCode (w.extractLsb' 0 7)))
  | 0x11 => some (.or (Width.ofCode (w.extractLsb' 19 2)) (w.extractLsb' 14 5) (Src.ofCode (w.extractLsb' 7 7)) (Src.ofCode (w.extractLsb' 0 7)))
  | 0x12 => some (.xor (Width.ofCode (w.extractLsb' 19 2)) (w.extractLsb' 14 5) (Src.ofCode (w.extractLsb' 7 7)) (Src.ofCode (w.extractLsb' 0 7)))
  | 0x13 => some (.andn (Width.ofCode (w.extractLsb' 19 2)) (w.extractLsb' 14 5) (Src.ofCode (w.extractLsb' 7 7)) (Src.ofCode (w.extractLsb' 0 7)))
  | 0x14 => some (.shl (Width.ofCode (w.extractLsb' 19 2)) (w.extractLsb' 14 5) (Src.ofCode (w.extractLsb' 7 7)) (Src.ofCode (w.extractLsb' 0 7)))
  | 0x15 => some (.shr (Width.ofCode (w.extractLsb' 19 2)) (w.extractLsb' 14 5) (Src.ofCode (w.extractLsb' 7 7)) (Src.ofCode (w.extractLsb' 0 7)))
  | 0x16 => some (.sar (Width.ofCode (w.extractLsb' 19 2)) (w.extractLsb' 14 5) (Src.ofCode (w.extractLsb' 7 7)) (Src.ofCode (w.extractLsb' 0 7)))
  | 0x17 => some (.rot (Width.ofCode (w.extractLsb' 19 2)) (w.extractLsb' 14 5) (Src.ofCode (w.extractLsb' 7 7)) (Src.ofCode (w.extractLsb' 0 7)))
  | 0x18 => some (.clz (Width.ofCode (w.extractLsb' 19 2)) (w.extractLsb' 14 5) (Src.ofCode (w.extractLsb' 7 7)))
  | 0x19 => some (.ctz (Width.ofCode (w.extractLsb' 19 2)) (w.extractLsb' 14 5) (Src.ofCode (w.extractLsb' 7 7)))
  | 0x1a => some (.popc (Width.ofCode (w.extractLsb' 19 2)) (w.extractLsb' 14 5) (Src.ofCode (w.extractLsb' 7 7)))
  | 0x1c => some (.min (XType.ofCode (w.extractLsb' 19 3)) (w.extractLsb' 14 5) (Src.ofCode (w.extractLsb' 7 7)) (Src.ofCode (w.extractLsb' 0 7)))
  | 0x1d => some (.max (XType.ofCode (w.extractLsb' 19 3)) (w.extractLsb' 14 5) (Src.ofCode (w.extractLsb' 7 7)) (Src.ofCode (w.extractLsb' 0 7)))
  | 0x1e => some (.sel (Width.ofCode (w.extractLsb' 19 2)) (w.extractLsb' 14 5) (Src.ofCode (w.extractLsb' 7 7)) (Src.ofCode (w.extractLsb' 0 7)))
  | 0x1f => some (.cmp (XType.ofCode (w.extractLsb' 19 3)) (ICond.ofCode (w.extractLsb' 17 2)) (w.extractLsb' 14 3) (Src.ofCode (w.extractLsb' 7 7)) (Src.ofCode (w.extractLsb' 0 7)))
  | 0x20 => some (.ext (XType.ofCode (w.extractLsb' 19 3)) (w.extractLsb' 14 5) (Src.ofCode (w.extractLsb' 7 7)))
  | 0x21 => some (.bfx (((w.extractLsb' 19 1) == 1#1)) (w.extractLsb' 14 5) (Src.ofCode (w.extractLsb' 7 7)) (Src.ofCode (w.extractLsb' 0 7)))
  | 0x22 => some (.bfi (w.extractLsb' 14 5) (Src.ofCode (w.extractLsb' 7 7)) (Src.ofCode (w.extractLsb' 0 7)))
  | 0x28 => some (.fadd (FType.ofCode (w.extractLsb' 19 2)) (w.extractLsb' 14 5) (Src.ofCode (w.extractLsb' 7 7)) (Src.ofCode (w.extractLsb' 0 7)))
  | 0x29 => some (.fsub (FType.ofCode (w.extractLsb' 19 2)) (w.extractLsb' 14 5) (Src.ofCode (w.extractLsb' 7 7)) (Src.ofCode (w.extractLsb' 0 7)))
  | 0x2a => some (.fmul (FType.ofCode (w.extractLsb' 19 2)) (w.extractLsb' 14 5) (Src.ofCode (w.extractLsb' 7 7)) (Src.ofCode (w.extractLsb' 0 7)))
  | 0x2b => some (.ffma (FType.ofCode (w.extractLsb' 19 2)) (w.extractLsb' 14 5) (Src.ofCode (w.extractLsb' 7 7)) (Src.ofCode (w.extractLsb' 0 7)))
  | 0x2c => some (.fdiv (FType.ofCode (w.extractLsb' 19 2)) (w.extractLsb' 14 5) (Src.ofCode (w.extractLsb' 7 7)) (Src.ofCode (w.extractLsb' 0 7)))
  | 0x2d => some (.fsqrt (FType.ofCode (w.extractLsb' 19 2)) (w.extractLsb' 14 5) (Src.ofCode (w.extractLsb' 7 7)))
  | 0x2e => some (.fmin (FType.ofCode (w.extractLsb' 19 2)) (w.extractLsb' 14 5) (Src.ofCode (w.extractLsb' 7 7)) (Src.ofCode (w.extractLsb' 0 7)))
  | 0x2f => some (.fmax (FType.ofCode (w.extractLsb' 19 2)) (w.extractLsb' 14 5) (Src.ofCode (w.extractLsb' 7 7)) (Src.ofCode (w.extractLsb' 0 7)))
  | 0x30 => some (.fcmp (FType.ofCode (w.extractLsb' 19 2)) (w.extractLsb' 14 5) (Src.ofCode (w.extractLsb' 7 7)) (Src.ofCode (w.extractLsb' 0 7)))
  | 0x31 => some (.fcvt (RSel.ofCode (w.extractLsb' 19 3)) (CvtCode.ofCode (w.extractLsb' 0 3)) (CvtCode.ofCode (w.extractLsb' 3 3)) (w.extractLsb' 14 5) (Src.ofCode (w.extractLsb' 7 7)))
  | 0x38 => if w.extractLsb' 19 3 == 0b000#3 then some (.tclrReg .i (w.extractLsb' 14 5))
    else some (.tclrPath .i)
  | 0x39 => if w.extractLsb' 19 3 == 0b000#3 then some (.tdepReg .i (w.extractLsb' 14 5) (Src.ofCode (w.extractLsb' 7 7)))
    else some (.tdepPath .i (Src.ofCode (w.extractLsb' 7 7)))
  | 0x3a => some (.xput .i (XTgt.ofCode (w.extractLsb' 19 3)) (w.extractLsb' 14 5) (Src.ofCode (w.extractLsb' 7 7)))
  | 0x3b => some (.keep .i (Src.ofCode (w.extractLsb' 7 7)))
  | _ => none

/-- The instruction whose fields a word of opcode `op` of the VA or VB unit holds; none for a reserved opcode (R71). -/
def candidateV (u : VUnit) (op : Nat) (w : BitVec 32) : Option Instr :=
  match op with
  | 0x00 => some (.nop u.unit)
  | 0x01 => some (.vadd u (WType.ofCode (w.extractLsb' 19 3)) (w.extractLsb' 14 5) (Src.ofCode (w.extractLsb' 7 7)) (Src.ofCode (w.extractLsb' 0 7)))
  | 0x02 => some (.vsub u (WType.ofCode (w.extractLsb' 19 3)) (w.extractLsb' 14 5) (Src.ofCode (w.extractLsb' 7 7)) (Src.ofCode (w.extractLsb' 0 7)))
  | 0x03 => some (.vmul u (WType.ofCode (w.extractLsb' 19 3)) (w.extractLsb' 14 5) (Src.ofCode (w.extractLsb' 7 7)) (Src.ofCode (w.extractLsb' 0 7)))
  | 0x04 => some (.vfma u (FType.ofCode (w.extractLsb' 19 2)) (w.extractLsb' 14 5) (Src.ofCode (w.extractLsb' 7 7)) (Src.ofCode (w.extractLsb' 0 7)))
  | 0x05 => some (.vfms u (FType.ofCode (w.extractLsb' 19 2)) (w.extractLsb' 14 5) (Src.ofCode (w.extractLsb' 7 7)) (Src.ofCode (w.extractLsb' 0 7)))
  | 0x06 => some (.vnfma u (FType.ofCode (w.extractLsb' 19 2)) (w.extractLsb' 14 5) (Src.ofCode (w.extractLsb' 7 7)) (Src.ofCode (w.extractLsb' 0 7)))
  | 0x07 => some (.vaddSat u (XType.ofCode (w.extractLsb' 19 3)) (w.extractLsb' 14 5) (Src.ofCode (w.extractLsb' 7 7)) (Src.ofCode (w.extractLsb' 0 7)))
  | 0x08 => some (.vdivFp u (FType.ofCode (w.extractLsb' 19 2)) (w.extractLsb' 14 5) (Src.ofCode (w.extractLsb' 7 7)) (Src.ofCode (w.extractLsb' 0 7)))
  | 0x09 => some (.vsqrt u (FType.ofCode (w.extractLsb' 19 2)) (w.extractLsb' 14 5) (Src.ofCode (w.extractLsb' 7 7)))
  | 0x0a => some (.vrcpe u (FType.ofCode (w.extractLsb' 19 2)) (w.extractLsb' 14 5) (Src.ofCode (w.extractLsb' 7 7)))
  | 0x0b => some (.vrsqe u (FType.ofCode (w.extractLsb' 19 2)) (w.extractLsb' 14 5) (Src.ofCode (w.extractLsb' 7 7)))
  | 0x0c => some (.vminFp u (FType.ofCode (w.extractLsb' 19 2)) (w.extractLsb' 14 5) (Src.ofCode (w.extractLsb' 7 7)) (Src.ofCode (w.extractLsb' 0 7)))
  | 0x0d => some (.vmaxFp u (FType.ofCode (w.extractLsb' 19 2)) (w.extractLsb' 14 5) (Src.ofCode (w.extractLsb' 7 7)) (Src.ofCode (w.extractLsb' 0 7)))
  | 0x0e => some (.vabs u (WType.ofCode (w.extractLsb' 19 3)) (w.extractLsb' 14 5) (Src.ofCode (w.extractLsb' 7 7)))
  | 0x0f => some (.vneg u (WType.ofCode (w.extractLsb' 19 3)) (w.extractLsb' 14 5) (Src.ofCode (w.extractLsb' 7 7)))
  | 0x10 => some (.vand u (Width.ofCode (w.extractLsb' 19 2)) (w.extractLsb' 14 5) (Src.ofCode (w.extractLsb' 7 7)) (Src.ofCode (w.extractLsb' 0 7)))
  | 0x11 => some (.vor u (Width.ofCode (w.extractLsb' 19 2)) (w.extractLsb' 14 5) (Src.ofCode (w.extractLsb' 7 7)) (Src.ofCode (w.extractLsb' 0 7)))
  | 0x12 => some (.vxor u (Width.ofCode (w.extractLsb' 19 2)) (w.extractLsb' 14 5) (Src.ofCode (w.extractLsb' 7 7)) (Src.ofCode (w.extractLsb' 0 7)))
  | 0x13 => some (.vnot u (Width.ofCode (w.extractLsb' 19 2)) (w.extractLsb' 14 5) (Src.ofCode (w.extractLsb' 7 7)))
  | 0x14 => some (.vshl u (Width.ofCode (w.extractLsb' 19 2)) (w.extractLsb' 14 5) (Src.ofCode (w.extractLsb' 7 7)) (Src.ofCode (w.extractLsb' 0 7)))
  | 0x15 => some (.vshr u (Width.ofCode (w.extractLsb' 19 2)) (w.extractLsb' 14 5) (Src.ofCode (w.extractLsb' 7 7)) (Src.ofCode (w.extractLsb' 0 7)))
  | 0x16 => some (.vsar u (Width.ofCode (w.extractLsb' 19 2)) (w.extractLsb' 14 5) (Src.ofCode (w.extractLsb' 7 7)) (Src.ofCode (w.extractLsb' 0 7)))
  | 0x17 => some (.vsubSat u (XType.ofCode (w.extractLsb' 19 3)) (w.extractLsb' 14 5) (Src.ofCode (w.extractLsb' 7 7)) (Src.ofCode (w.extractLsb' 0 7)))
  | 0x18 => some (.vcmpFp u (FType.ofCode (w.extractLsb' 19 2)) (FCond.ofCode (w.extractLsb' 17 2)) (w.extractLsb' 14 3) (Src.ofCode (w.extractLsb' 7 7)) (Src.ofCode (w.extractLsb' 0 7)))
  | 0x19 => some (.vsel u (w.extractLsb' 19 3) (w.extractLsb' 14 5) (Src.ofCode (w.extractLsb' 7 7)) (Src.ofCode (w.extractLsb' 0 7)))
  | 0x1a => some (.vcvt u (FType.ofCode (w.extractLsb' 19 2)) (((w.extractLsb' 21 1) == 1#1)) (((w.extractLsb' 6 1) == 1#1)) (RSel.ofCode (w.extractLsb' 3 3)) (w.extractLsb' 14 5) (Src.ofCode (w.extractLsb' 7 7)))
  | 0x1b => some (.vpack u (PackPair.ofCode (w.extractLsb' 19 3)) (((w.extractLsb' 6 1) == 1#1)) (w.extractLsb' 4 2) (w.extractLsb' 0 4) (w.extractLsb' 14 5) (Src.ofCode (w.extractLsb' 7 7)))
  | 0x1c => some (.vunpk u (PackPair.ofCode (w.extractLsb' 19 3)) (((w.extractLsb' 6 1) == 1#1)) (w.extractLsb' 4 2) (w.extractLsb' 0 4) (w.extractLsb' 14 5) (Src.ofCode (w.extractLsb' 7 7)))
  | 0x1d => some (.vbcast u (Width.ofCode (w.extractLsb' 19 2)) (w.extractLsb' 14 5) (Src.ofCode (w.extractLsb' 7 7)) (Src.ofCode (w.extractLsb' 0 7)))
  | 0x1e => some (.vmovi u (w.extractLsb' 17 5) (w.extractLsb' 0 17))
  | 0x1f => some (.vidx u (Width.ofCode (w.extractLsb' 19 2)) (w.extractLsb' 14 5) (Src.ofCode (w.extractLsb' 7 7)))
  | 0x20 => some (.vperm u (Width.ofCode (w.extractLsb' 19 2)) (w.extractLsb' 14 5) (Src.ofCode (w.extractLsb' 7 7)) (Src.ofCode (w.extractLsb' 0 7)))
  | 0x21 => some (.vrot u (Width.ofCode (w.extractLsb' 19 2)) (w.extractLsb' 14 5) (Src.ofCode (w.extractLsb' 7 7)) (Src.ofCode (w.extractLsb' 0 7)))
  | 0x22 => if w.extractLsb' 21 1 == 0b0#1 then some (.vslideDn u (Width.ofCode (w.extractLsb' 19 2)) (w.extractLsb' 14 5) (Src.ofCode (w.extractLsb' 7 7)) (Src.ofCode (w.extractLsb' 0 7)))
    else some (.vslideUp u (Width.ofCode (w.extractLsb' 19 2)) (w.extractLsb' 14 5) (Src.ofCode (w.extractLsb' 7 7)) (Src.ofCode (w.extractLsb' 0 7)))
  | 0x23 => some (.vdivInt u (XType.ofCode (w.extractLsb' 19 3)) (w.extractLsb' 14 5) (Src.ofCode (w.extractLsb' 7 7)) (Src.ofCode (w.extractLsb' 0 7)))
  | 0x24 => some (.vredsum u (WType.ofCode (w.extractLsb' 19 3)) (w.extractLsb' 14 5) (Src.ofCode (w.extractLsb' 7 7)) (MaskSel.ofCode (w.extractLsb' 0 7)))
  | 0x25 => some (.vredmaxFp u (FType.ofCode (w.extractLsb' 19 2)) (w.extractLsb' 14 5) (Src.ofCode (w.extractLsb' 7 7)) (MaskSel.ofCode (w.extractLsb' 0 7)))
  | 0x26 => some (.vredminFp u (FType.ofCode (w.extractLsb' 19 2)) (w.extractLsb' 14 5) (Src.ofCode (w.extractLsb' 7 7)) (MaskSel.ofCode (w.extractLsb' 0 7)))
  | 0x27 => some (.vredsumSat u (XType.ofCode (w.extractLsb' 19 3)) (w.extractLsb' 14 5) (Src.ofCode (w.extractLsb' 7 7)) (MaskSel.ofCode (w.extractLsb' 0 7)))
  | 0x28 => some (.vmand u (w.extractLsb' 14 3) (Src.ofCode (w.extractLsb' 7 7)) (Src.ofCode (w.extractLsb' 0 7)))
  | 0x29 => some (.vmor u (w.extractLsb' 14 3) (Src.ofCode (w.extractLsb' 7 7)) (Src.ofCode (w.extractLsb' 0 7)))
  | 0x2a => some (.vmnot u (w.extractLsb' 14 3) (Src.ofCode (w.extractLsb' 7 7)))
  | 0x2b => some (.vmpop u (w.extractLsb' 14 5) (Src.ofCode (w.extractLsb' 7 7)))
  | 0x2c => some (.vmff u (w.extractLsb' 14 5) (Src.ofCode (w.extractLsb' 7 7)))
  | 0x2d => some (.vminInt u (XType.ofCode (w.extractLsb' 19 3)) (w.extractLsb' 14 5) (Src.ofCode (w.extractLsb' 7 7)) (Src.ofCode (w.extractLsb' 0 7)))
  | 0x2e => some (.vmaxInt u (XType.ofCode (w.extractLsb' 19 3)) (w.extractLsb' 14 5) (Src.ofCode (w.extractLsb' 7 7)) (Src.ofCode (w.extractLsb' 0 7)))
  | 0x2f => some (.vcmpInt u (XType.ofCode (w.extractLsb' 19 3)) (ICond.ofCode (w.extractLsb' 17 2)) (w.extractLsb' 14 3) (Src.ofCode (w.extractLsb' 7 7)) (Src.ofCode (w.extractLsb' 0 7)))
  | 0x30 => some (.wsadd u (WsAddTy.ofCode (w.extractLsb' 19 3)) (w.extractLsb' 14 2) (Src.ofCode (w.extractLsb' 7 7)) (MaskSel.ofCode (w.extractLsb' 0 7)))
  | 0x31 => some (.wsrnd u (WsRndTy.ofCode (w.extractLsb' 19 3)) (w.extractLsb' 14 5) (Src.ofCode (w.extractLsb' 7 7)) (RSel.ofCode (w.extractLsb' 0 3)))
  | 0x32 => some (.wsclr u (w.extractLsb' 14 2))
  | 0x33 => if w.extractLsb' 19 3 == 0b000#3 then some (.wsmovW u (w.extractLsb' 14 2) (Src.ofCode (w.extractLsb' 7 7)))
    else if w.extractLsb' 19 3 == 0b001#3 then some (.wsmovV u (w.extractLsb' 14 5) (Src.ofCode (w.extractLsb' 7 7)))
    else if w.extractLsb' 19 3 == 0b010#3 then some (.wsmov u (w.extractLsb' 14 2) (Src.ofCode (w.extractLsb' 7 7)))
    else some (.wsmovPop u (w.extractLsb' 14 2))
  | 0x34 => some (.kdef u (w.extractLsb' 19 2) (w.extractLsb' 14 2) (w.extractLsb' 16 3) (Src.ofCode (w.extractLsb' 7 7)) (MaskSel.ofCode (w.extractLsb' 0 7)))
  | 0x35 => some (.ktake u (w.extractLsb' 19 2) (w.extractLsb' 10 2) (w.extractLsb' 14 5) (w.extractLsb' 7 3))
  | 0x36 => some (.kcnt u (w.extractLsb' 14 5) (w.extractLsb' 7 2))
  | 0x37 => some (.vdivSat u (XType.ofCode (w.extractLsb' 19 3)) (w.extractLsb' 14 5) (Src.ofCode (w.extractLsb' 7 7)) (Src.ofCode (w.extractLsb' 0 7)))
  | 0x38 => if w.extractLsb' 19 3 == 0b000#3 then some (.tclrReg u.dunit (w.extractLsb' 14 5))
    else some (.tclrPath u.dunit)
  | 0x39 => if w.extractLsb' 19 3 == 0b000#3 then some (.tdepReg u.dunit (w.extractLsb' 14 5) (Src.ofCode (w.extractLsb' 7 7)))
    else some (.tdepPath u.dunit (Src.ofCode (w.extractLsb' 7 7)))
  | 0x3a => some (.xput u.dunit (XTgt.ofCode (w.extractLsb' 19 3)) (w.extractLsb' 14 5) (Src.ofCode (w.extractLsb' 7 7)))
  | 0x3b => if w.extractLsb' 19 3 == 0b000#3 then some (.keep u.dunit (Src.ofCode (w.extractLsb' 7 7)))
    else if w.extractLsb' 19 3 == 0b001#3 then some (.keepW32 u (Src.ofCode (w.extractLsb' 7 7)))
    else some (.keepW64 u (Src.ofCode (w.extractLsb' 7 7)))
  | 0x3c => some (.vredmaxInt u (XType.ofCode (w.extractLsb' 19 3)) (w.extractLsb' 14 5) (Src.ofCode (w.extractLsb' 7 7)) (MaskSel.ofCode (w.extractLsb' 0 7)))
  | 0x3d => some (.vredminInt u (XType.ofCode (w.extractLsb' 19 3)) (w.extractLsb' 14 5) (Src.ofCode (w.extractLsb' 7 7)) (MaskSel.ofCode (w.extractLsb' 0 7)))
  | _ => none

/-- The instruction whose fields a word of opcode `op` of the M unit holds; none for a reserved opcode (R71). -/
def candidateM (op : Nat) (w : BitVec 32) : Option Instr :=
  match op with
  | 0x00 => some (.nop .M)
  | 0x01 => some (.mpass (w.extractLsb' 17 5) (w.extractLsb' 14 3) (w.extractLsb' 12 2) (w.extractLsb' 4 8) (w.extractLsb' 1 3) (((w.extractLsb' 0 1) == 1#1)))
  | 0x02 => some (.mzero (((w.extractLsb' 19 1) == 1#1)) (w.extractLsb' 14 5))
  | 0x03 => some (.mread (((w.extractLsb' 19 1) == 1#1)) (w.extractLsb' 14 5) (w.extractLsb' 7 3) (w.extractLsb' 0 6))
  | 0x04 => some (.mwrite (MwForm.ofCode (w.extractLsb' 19 3)) (w.extractLsb' 14 5) (w.extractLsb' 7 3) (w.extractLsb' 0 6))
  | 0x05 => if w.extractLsb' 19 3 == 0b000#3 then some (.msetBase (w.extractLsb' 14 3) ((w.extractLsb' 17 2) ++ (w.extractLsb' 0 14)))
    else if w.extractLsb' 19 3 == 0b001#3 then some (.msetStride (w.extractLsb' 14 3) ((w.extractLsb' 17 2) ++ (w.extractLsb' 0 14)))
    else if w.extractLsb' 19 3 == 0b010#3 then some (.msetFmt (w.extractLsb' 14 3) (w.extractLsb' 0 4) (w.extractLsb' 4 4) (w.extractLsb' 8 4) ((w.extractLsb' 17 2) ++ (w.extractLsb' 12 2)))
    else some (.msetScale (w.extractLsb' 14 3) (w.extractLsb' 0 4) (w.extractLsb' 4 4) (((w.extractLsb' 8 1) == 1#1)))
  | 0x06 => if w.extractLsb' 16 1 == 0b0#1 then some (.gset (w.extractLsb' 17 2) (w.extractLsb' 0 13))
    else some (.gsetAdd (w.extractLsb' 17 2) (w.extractLsb' 0 13))
  | 0x07 => some (.mstat (w.extractLsb' 14 3) (w.extractLsb' 0 6))
  | _ => none

/-- The instruction whose fields a word of opcode `op` of the S unit holds; none for a reserved opcode (R71). -/
def candidateS (op : Nat) (w : BitVec 32) : Option Instr :=
  match op with
  | 0x00 => some (.nop .S)
  | 0x01 => some (.sld (w.extractLsb' 14 4) ((w.extractLsb' 19 3) ++ (w.extractLsb' 0 14)))
  | 0x02 => some (.sset (w.extractLsb' 17 4) (w.extractLsb' 0 16))
  | 0x03 => some (.fset (w.extractLsb' 17 4) (((w.extractLsb' 16 1) == 1#1)) (w.extractLsb' 0 16))
  | 0x04 => some (.smov (((w.extractLsb' 19 1) == 1#1)) (w.extractLsb' 14 4) (Src.ofCode (w.extractLsb' 7 7)))
  | 0x05 => some (.sclr (((w.extractLsb' 19 1) == 1#1)) (w.extractLsb' 14 4))
  | _ => none

/-- The instruction whose fields a word of opcode `op` of the K unit holds; none for a reserved opcode (R71). -/
def candidateK (op : Nat) (w : BitVec 32) : Option Instr :=
  match op with
  | 0x00 => some (.nop .K)
  | 0x01 => if w.extractLsb' 19 3 == 0b000#3 && w.extractLsb' 9 5 == 0b11001#5 then some (.ksetW (w.extractLsb' 14 3) (w.extractLsb' 7 2) (Src.ofCode (w.extractLsb' 0 7)))
    else if w.extractLsb' 19 3 == 0b001#3 && w.extractLsb' 8 6 == 0b110000#6 then some (.ksetC (w.extractLsb' 14 3) (((w.extractLsb' 7 1) == 1#1)) (Src.ofCode (w.extractLsb' 0 7)))
    else if w.extractLsb' 19 3 == 0b010#3 then some (.ksetBnd (w.extractLsb' 14 4) (Src.ofCode (w.extractLsb' 7 7)) (Src.ofCode (w.extractLsb' 0 7)))
    else if w.extractLsb' 19 3 == 0b011#3 then some (.ksetCur (w.extractLsb' 14 4) (Src.ofCode (w.extractLsb' 7 7)) (Src.ofCode (w.extractLsb' 0 7)))
    else if w.extractLsb' 19 3 == 0b100#3 then some (.ksetLc (w.extractLsb' 14 4) (Src.ofCode (w.extractLsb' 7 7)) (Src.ofCode (w.extractLsb' 0 7)))
    else some (.ksetAdd (w.extractLsb' 14 5) (Src.ofCode (w.extractLsb' 7 7)) (Src.ofCode (w.extractLsb' 0 7)))
  | 0x02 => some (.kcopy (w.extractLsb' 19 3) (w.extractLsb' 13 6) (((w.extractLsb' 0 1) == 1#1)) (((w.extractLsb' 1 1) == 1#1)))
  | 0x03 => some (.kmc (w.extractLsb' 19 3) (w.extractLsb' 13 6) (w.extractLsb' 2 5) (((w.extractLsb' 0 1) == 1#1)) (((w.extractLsb' 1 1) == 1#1)))
  | 0x04 => some (.kfill (w.extractLsb' 19 3) (w.extractLsb' 13 6) (((w.extractLsb' 0 1) == 1#1)))
  | 0x05 => some (.kcoll (w.extractLsb' 19 3) (w.extractLsb' 13 6) (w.extractLsb' 5 6) (CollKind.ofCode (w.extractLsb' 3 2)) (CollOp.ofCode (w.extractLsb' 1 2)) (((w.extractLsb' 0 1) == 1#1)))
  | 0x06 => some (.kpf (w.extractLsb' 19 3) (PfLevel.ofCode (w.extractLsb' 0 2)))
  | 0x07 => some (.kcan (w.extractLsb' 13 6))
  | 0x08 => some (.kstat (w.extractLsb' 14 4) (Src.ofCode (w.extractLsb' 7 7)) (w.extractLsb' 0 6))
  | _ => none

/-- The instruction whose fields a word holds, by its unit (bits 30:28) and opcode (bits 27:22). -/
def candidate (w : BitVec 32) : Option Instr :=
  let op := (w.extractLsb' 22 6).toNat
  match UnitId.ofCode (w.extractLsb' 28 3) with
  | .C => candidateC op w
  | .A => candidateA op w
  | .I => candidateI op w
  | .VA => candidateV .va op w
  | .VB => candidateV .vb op w
  | .M => candidateM op w
  | .K => candidateK op w
  | .S => candidateS op w

/-- Why a word is no instruction: a reserved opcode (check 6 of R16), or a reserved field, operand coding or type
(check 7). Both trap ILLEGAL. -/
inductive DecodeError where
  | reservedOpcode
  | reservedField
deriving DecidableEq, Repr

/-- A word with its stop bit (bit 31) cleared. -/
def clearStop (w : BitVec 32) : BitVec 32 := 0#1 ++ w.extractLsb' 0 31

/-- Decode one word; its stop bit is not part of the instruction. -/
def decodeWord (w : BitVec 32) : Except DecodeError Instr :=
  match candidate w with
  | none => .error .reservedOpcode
  | some i => if i.wellFormed && encode i == clearStop w then .ok i else .error .reservedField

/-- The stop bit of a word (R13). -/
def stopBit (w : BitVec 32) : Bool := w.getLsbD 31

/-- The word that four little-endian bytes hold (R8). -/
def wordOfBytes (bs : List Byte) : BitVec 32 := BitVec.ofNat 32 (bytesToNat (bs.take 4))

/-- The four bytes of a word, at rising addresses (R8). -/
def bytesOfWord (w : BitVec 32) : List Byte := natToBytes 4 w.toNat

/-- Decode the first four bytes of a list, total on any bytes: the instruction and the bytes after it, or the name of
the refusal (a list of fewer than four bytes is read as if zero bytes followed). -/
def decodeBytes (bs : List Byte) : Except DecodeError (Instr × List Byte) :=
  match decodeWord (wordOfBytes bs) with
  | .error e => .error e
  | .ok i => .ok (i, bs.drop 4)

/-- The instruction this decoder reads from a word of `nbits` bits with value `w`. Every instruction of this hardware
is one 32-bit word, so a shorter `nbits` leaves the bits above it 0. -/
def decodeTableWord (nbits w : Nat) : Option Instr :=
  match decodeBytes (bytesOfWord (BitVec.ofNat 32 (w % 2 ^ nbits))) with
  | .ok (i, _) => some i
  | .error _ => none

end Sys2Proof
end

