-- ==== Sys2Proof/Machine/Fp.lean ====
section
/-! DEFINITION. Number formats and exact arithmetic (chapter 02): IEEE formats, narrow formats, roundings, conversions,
estimates. Every operation is computed on exact dyadic numbers and rounded once at the end. -/

namespace Sys2Proof.Machine

open Sys2Proof

/-! ### Flags and modes -/

/-- Flags in the bit order of sy.fflags (R42). -/
def fNV : BitVec 5 := 1
def fDZ : BitVec 5 := 2
def fOF : BitVec 5 := 4
def fUF : BitVec 5 := 8
def fNX : BitVec 5 := 16

/-- A flag word: `f` when `b` holds, else no flag. -/
def flagIf (b : Bool) (f : BitVec 5) : BitVec 5 := if b then f else 0

/-- Rounding modes (R40). -/
inductive Rm where
  | rne | rtz | rup | rdn | rto
deriving DecidableEq, Repr

/-- The mode of sy.fmode.RM. -/
def Rm.ofField (b : BitVec 2) : Rm :=
  match b.toNat with
  | 0 => .rne | 1 => .rtz | 2 => .rup | _ => .rdn

end Sys2Proof.Machine

namespace Sys2Proof

open Sys2Proof.Machine

/-- The mode a rounding selection gives under the dynamic mode `d`. -/
def RSel.mode (r : RSel) (d : Rm) : Rm :=
  match r with
  | .dyn => d | .rne => .rne | .rtz => .rtz | .rup => .rup | .rdn => .rdn | .rto => .rto

/-- Exponent and fraction widths of an IEEE format (R37). -/
def FType.eb : FType → Nat
  | .h => 5 | .b => 8 | .s => 8 | .d => 11
def FType.fb : FType → Nat
  | .h => 10 | .b => 7 | .s => 23 | .d => 52
def FType.wd : FType → Nat
  | .h => 16 | .b => 16 | .s => 32 | .d => 64
def FType.bias (t : FType) : Nat := 2 ^ (t.eb - 1) - 1
/-- The code of +infinity. -/
def FType.infBits (t : FType) : Nat := (2 ^ t.eb - 1) * 2 ^ t.fb
/-- The canonical NaN (R37, R39). -/
def FType.canon (t : FType) : Nat := t.infBits + 2 ^ (t.fb - 1)
/-- The sign bit of the format. -/
def FType.signBit (t : FType) : Nat := 2 ^ (t.wd - 1)

end Sys2Proof

namespace Sys2Proof.Machine

open Sys2Proof

/-! ### Values -/

/-- A floating-point value: a NaN (signalling or quiet), an infinity, or `(-1)^neg * m * 2^e` exactly. -/
inductive FVal where
  | nan (sig : Bool)
  | inf (neg : Bool)
  | fin (neg : Bool) (m : Nat) (e : Int)
deriving DecidableEq, Repr

/-- The value of a code of an IEEE format (R37, R38). -/
def unpack (t : FType) (x : Nat) : FVal :=
  let neg := natBit x (t.wd - 1)
  let ex := natField x t.fb t.eb
  let fr := natField x 0 t.fb
  let q : Int := 1 - (t.bias : Int) - t.fb
  if ex = 2 ^ t.eb - 1 then
    if fr = 0 then .inf neg else .nan (!natBit fr (t.fb - 1))
  else if ex = 0 then .fin neg fr q
  else .fin neg (2 ^ t.fb + fr) (q + (ex - 1 : Nat))

def FVal.isNan : FVal → Bool
  | .nan _ => true | .inf _ => false | .fin _ _ _ => false
def FVal.isSnan : FVal → Bool
  | .nan s => s | .inf _ => false | .fin _ _ _ => false
def FVal.isInf : FVal → Bool
  | .inf _ => true | .nan _ => false | .fin _ _ _ => false
def FVal.isZero : FVal → Bool
  | .fin _ m _ => m == 0 | .nan _ => false | .inf _ => false
def FVal.neg : FVal → Bool
  | .inf n => n | .fin n _ _ => n | .nan _ => false
def FVal.negate : FVal → FVal
  | .inf n => .inf (!n) | .fin n m e => .fin (!n) m e | .nan s => .nan s

/-! ### Rounding -/

/-- Whether a magnitude `sig + rem/2^sh` (with `0 < sh`) rounds up in the mode (R40); RTO is handled by the caller. -/
def roundsUp (rm : Rm) (neg : Bool) (sig rem sh : Nat) : Bool :=
  match rm with
  | .rne => 2 ^ (sh - 1) < rem || (rem == 2 ^ (sh - 1) && sig % 2 == 1)
  | .rtz => false
  | .rup => rem != 0 && !neg
  | .rdn => rem != 0 && neg
  | .rto => false

/-- A magnitude `m * 2^e` as a multiple of `2^q`, rounded in the mode, and whether the rounding was inexact.
(DEDUCED, log 69.) -/
def roundAt (rm : Rm) (neg : Bool) (m : Nat) (e q : Int) : Nat × Bool :=
  if q ≤ e then (m * 2 ^ (e - q).toNat, false)
  else
    let sh := (q - e).toNat
    let sig := m / 2 ^ sh
    let rem := m % 2 ^ sh
    if rem = 0 then (sig, false)
    else
      match rm with
      | .rto => (if sig % 2 = 0 then sig + 1 else sig, true)
      | .rne => (if roundsUp .rne neg sig rem sh then sig + 1 else sig, true)
      | .rtz => (sig, true)
      | .rup => (if roundsUp .rup neg sig rem sh then sig + 1 else sig, true)
      | .rdn => (if roundsUp .rdn neg sig rem sh then sig + 1 else sig, true)

/-- Whether an overflow of this sign gives the largest finite value instead of an infinity (R41). -/
def overflowToMax (rm : Rm) (neg : Bool) : Bool :=
  match rm with
  | .rne => false | .rtz => true | .rto => true | .rup => neg | .rdn => !neg

/-- The code (without sign) and flags of a nonzero magnitude `m * 2^e` in a format of `fb` fraction bits and minimum
normal exponent `emin`; `top` is the first code that is an overflow (R38, R40, R41). -/
def roundMag (fb : Nat) (emin : Int) (top : Nat) (rm : Rm) (neg : Bool) (m : Nat) (e : Int) : Nat × Bool × BitVec 5 :=
  let ex : Int := (bitLen m : Int) - 1 + e
  let q : Int := max ex emin - fb
  let (sig, inex) := roundAt rm neg m e q
  let code := (q - (emin - fb)).toNat * 2 ^ fb + sig
  if top ≤ code then (code, true, fOF ||| fNX)
  else
    let unb := (roundAt rm neg m e (ex - fb)).1
    let tiny := decide (ex < emin) && !(ex == emin - 1 && unb == 2 ^ (fb + 1))
    (code, false, flagIf inex fNX ||| flagIf (inex && tiny) fUF)

/-- Put the sign on a code. -/
def withSign (t : FType) (neg : Bool) (code : Nat) : Nat := if neg then code + t.signBit else code

/-- Round `(-1)^neg * m * 2^e` to an IEEE format (R40, R41). A zero keeps the given sign. -/
def roundF (t : FType) (rm : Rm) (neg : Bool) (m : Nat) (e : Int) : Nat × BitVec 5 :=
  if m = 0 then (withSign t neg 0, 0)
  else
    let (code, ovf, fl) := roundMag t.fb (1 - (t.bias : Int)) t.infBits rm neg m e
    if ovf then (withSign t neg (if overflowToMax rm neg then t.infBits - 1 else t.infBits), fl)
    else (withSign t neg code, fl)

/-- Round an exact signed dyadic `z * 2^e`; an exact zero has sign `zneg`. -/
def roundZ (t : FType) (rm : Rm) (z : Int) (e : Int) (zneg : Bool) : Nat × BitVec 5 :=
  if z = 0 then (withSign t zneg 0, 0) else roundF t rm (z < 0) z.natAbs e

def FVal.sgn (neg : Bool) (m : Nat) : Int := if neg then -(m : Int) else m

/-- The sum of two exact dyadics, at the smaller exponent. -/
def addDyadic (z1 : Int) (e1 : Int) (z2 : Int) (e2 : Int) : Int × Int :=
  let e := min e1 e2
  (z1 * (2 ^ (e1 - e).toNat : Nat) + z2 * (2 ^ (e2 - e).toNat : Nat), e)

/-- The sum of two values, rounded once (R39, R41). -/
def addV (t : FType) (rm : Rm) (x y : FVal) : Nat × BitVec 5 :=
  match x, y with
  | .nan s, y => (t.canon, flagIf (s || y.isSnan) fNV)
  | .inf _, .nan s => (t.canon, flagIf s fNV)
  | .fin _ _ _, .nan s => (t.canon, flagIf s fNV)
  | .inf n, .inf n2 => if n = n2 then (withSign t n t.infBits, 0) else (t.canon, fNV)
  | .inf n, .fin _ _ _ => (withSign t n t.infBits, 0)
  | .fin _ _ _, .inf n => (withSign t n t.infBits, 0)
  | .fin n1 m1 e1, .fin n2 m2 e2 =>
    let (z, e) := addDyadic (FVal.sgn n1 m1) e1 (FVal.sgn n2 m2) e2
    let zneg := if m1 = 0 ∧ m2 = 0 ∧ n1 = n2 then n1 else rm == .rdn
    roundZ t rm z e zneg

/-- The exact product of two values; `none` is `0 * inf`. NaNs are the caller's. -/
def mulV (x y : FVal) : Option FVal :=
  match x, y with
  | .nan s, _ => some (.nan s)
  | .inf _, .nan s => some (.nan s)
  | .fin _ _ _, .nan s => some (.nan s)
  | .inf a, .inf b => some (.inf (a != b))
  | .inf a, .fin b m _ => if m = 0 then none else some (.inf (a != b))
  | .fin a m _, .inf b => if m = 0 then none else some (.inf (a != b))
  | .fin a m e, .fin b n f => some (.fin (a != b) (m * n) (e + f))

/-- Addition, subtraction, multiplication (R119, R133). -/
def fAdd (t : FType) (rm : Rm) (a b : Nat) : Nat × BitVec 5 := addV t rm (unpack t a) (unpack t b)
def fSub (t : FType) (rm : Rm) (a b : Nat) : Nat × BitVec 5 := addV t rm (unpack t a) (unpack t b).negate
def fMul (t : FType) (rm : Rm) (a b : Nat) : Nat × BitVec 5 :=
  let x := unpack t a
  let y := unpack t b
  if x.isNan || y.isNan then (t.canon, flagIf (x.isSnan || y.isSnan) fNV)
  else
    match mulV x y with
    | none => (t.canon, fNV)
    | some (.nan _) => (t.canon, 0)
    | some (.inf n) => (withSign t n t.infBits, 0)
    | some (.fin n m e) => roundF t rm n m e

/-- `±(a * b) ± d` with one rounding (R119, R135): `np` negates the product, `nd` the addend. An infinity times zero raises
NV whatever the addend, in `ffma` too. (DEDUCED, log 115.) -/
def fFma (t : FType) (rm : Rm) (np nd : Bool) (a b d : Nat) : Nat × BitVec 5 :=
  let x := unpack t a
  let y := unpack t b
  let z := if nd then (unpack t d).negate else unpack t d
  let sig := x.isSnan || y.isSnan || z.isSnan
  match (if x.isNan || y.isNan then some (.nan false) else mulV x y) with
  | none => (t.canon, fNV)
  | some p =>
    if p.isNan || z.isNan then (t.canon, flagIf sig fNV)
    else addV t rm (if np then p.negate else p) z

/-- Division (R119). -/
def fDiv (t : FType) (rm : Rm) (a b : Nat) : Nat × BitVec 5 :=
  match unpack t a, unpack t b with
  | .nan s, y => (t.canon, flagIf (s || y.isSnan) fNV)
  | .inf _, .nan s => (t.canon, flagIf s fNV)
  | .fin _ _ _, .nan s => (t.canon, flagIf s fNV)
  | .inf _, .inf _ => (t.canon, fNV)
  | .inf n, .fin n2 _ _ => (withSign t (n != n2) t.infBits, 0)
  | .fin n _ _, .inf n2 => (withSign t (n != n2) 0, 0)
  | .fin n m e, .fin n2 m2 e2 =>
    let neg := n != n2
    if m2 = 0 then
      if m = 0 then (t.canon, fNV) else (withSign t neg t.infBits, fDZ)
    else if m = 0 then (withSign t neg 0, 0)
    else
      let s := t.fb + 3 + bitLen m2 - bitLen m
      let q := m * 2 ^ s / m2
      let r := m * 2 ^ s % m2
      roundF t rm neg (2 * q + (if r = 0 then 0 else 1)) (e - e2 - s - 1)

/-- Integer square root by bits: the largest `r` with `r * r ≤ n`, given `r0 * r0 ≤ n` and `k` bits still to try. -/
def isqrtBits : Nat → Nat → Nat → Nat
  | 0, _, r => r
  | k + 1, n, r => if (r + 2 ^ k) * (r + 2 ^ k) ≤ n then isqrtBits k n (r + 2 ^ k) else isqrtBits k n r

def isqrt (n : Nat) : Nat := isqrtBits (bitLen n / 2 + 1) n 0

/-- Square root (R119). -/
def fSqrt (t : FType) (rm : Rm) (a : Nat) : Nat × BitVec 5 :=
  match unpack t a with
  | .nan s => (t.canon, flagIf s fNV)
  | .inf n => if n then (t.canon, fNV) else (t.infBits, 0)
  | .fin n m e =>
    if m = 0 then (withSign t n 0, 0)
    else if n then (t.canon, fNV)
    else
      let s0 := 2 * (t.fb + 3) - bitLen m
      let s := if (e - s0) % 2 = 0 then s0 else s0 + 1
      let v := m * 2 ^ s
      let r := isqrt v
      roundF t rm false (2 * r + (if r * r = v then 0 else 1)) ((e - s) / 2 - 1)

/-- The exact order of two non-NaN values: -1, 0 or 1, with -0 = +0. -/
def cmpV (x y : FVal) : Int :=
  match x, y with
  | .inf n, .inf n2 => if n = n2 then 0 else if n then -1 else 1
  | .inf n, .fin _ _ _ => if n then -1 else 1
  | .inf _, .nan _ => 0
  | .fin _ _ _, .inf n => if n then 1 else -1
  | .fin n m e, .fin n2 m2 e2 =>
    (addDyadic (FVal.sgn n m) e (-(FVal.sgn n2 m2)) e2).1.sign
  | .fin _ _ _, .nan _ => 0
  | .nan _, _ => 0

/-- Minimum and maximum with -0 below +0 (R44). -/
def fMinMax (t : FType) (isMax : Bool) (a b : Nat) : Nat × BitVec 5 :=
  let x := unpack t a
  let y := unpack t b
  let fl := flagIf (x.isSnan || y.isSnan) fNV
  if x.isNan && y.isNan then (t.canon, fl)
  else if x.isNan then (b % 2 ^ t.wd, fl)
  else if y.isNan then (a % 2 ^ t.wd, fl)
  else
    let c := cmpV x y
    let less := c < 0 || (c == 0 && x.neg && !y.neg)
    (if less != isMax then a % 2 ^ t.wd else b % 2 ^ t.wd, fl)

/-- The relation mask of `fcmp`: less, equal, greater, unordered (R120). -/
def fCmpMask (t : FType) (a b : Nat) : Nat × BitVec 5 :=
  let x := unpack t a
  let y := unpack t b
  if x.isNan || y.isNan then (8, flagIf (x.isSnan || y.isSnan) fNV)
  else if cmpV x y < 0 then (1, 0) else if cmpV x y = 0 then (2, 0) else (4, 0)

/-- The IEEE conditions of `vcmp` (R139). -/
def fCond (t : FType) (c : FCond) (a b : Nat) : Bool × BitVec 5 :=
  let x := unpack t a
  let y := unpack t b
  let un := x.isNan || y.isNan
  let quiet := flagIf (x.isSnan || y.isSnan) fNV
  match c with
  | .eq => (!un && cmpV x y == 0, quiet)
  | .lt => (!un && decide (cmpV x y < 0), flagIf un fNV)
  | .le => (!un && decide (cmpV x y ≤ 0), flagIf un fNV)
  | .un => (un, quiet)

/-! ### Conversions (R43) -/

/-- A finite value rounded to an integer in the mode, and whether that was inexact. -/
def toIntRound (rm : Rm) (neg : Bool) (m : Nat) (e : Int) : Int × Bool :=
  let (v, inex) := roundAt rm neg m e 0
  (FVal.sgn neg v, inex)

/-- Least and greatest values of an integer type (R34). -/
def intMin (uns : Bool) (w : Nat) : Int := if uns then 0 else -((2 ^ (w - 1) : Nat) : Int)
def intMax (uns : Bool) (w : Nat) : Int := if uns then ((2 ^ w : Nat) : Int) - 1 else ((2 ^ (w - 1) : Nat) : Int) - 1

/-- Clamp to a type's range (R35). -/
def clampInt (uns : Bool) (w : Nat) (z : Int) : Int := max (intMin uns w) (min (intMax uns w) z)

/-- Floating point to integer (R43). -/
def cvtToInt (v : FVal) (rm : Rm) (uns : Bool) (w : Nat) : Nat × BitVec 5 :=
  match v with
  | .nan _ => (0, fNV)
  | .inf n => (wrapInt w (if n then intMin uns w else intMax uns w), fNV)
  | .fin n m e =>
    let (z, inex) := toIntRound rm n m e
    if z < intMin uns w then (wrapInt w (intMin uns w), fNV)
    else if intMax uns w < z then (wrapInt w (intMax uns w), fNV)
    else (wrapInt w z, flagIf inex fNX)

/-- Integer to floating point (R43). -/
def cvtFromInt (t : FType) (rm : Rm) (z : Int) : Nat × BitVec 5 := roundZ t rm z 0 false

/-- A value to an IEEE format (R43): a NaN gives the canonical NaN, NV when signalling. -/
def cvtToF (t : FType) (rm : Rm) (v : FVal) : Nat × BitVec 5 :=
  match v with
  | .nan s => (t.canon, flagIf s fNV)
  | .inf n => (withSign t n t.infBits, 0)
  | .fin n m e => roundF t rm n m e

/-! ### Narrow formats (R45 to R48) -/

def descSgn (d : Nat) : Nat := natField d 0 1
def descEw (d : Nat) : Nat := natField d 1 3
def descMw (d : Nat) : Nat := natField d 4 3
def descSpec (d : Nat) : Bool := natBit d 7
def descBias (d : Nat) : Int := signedVal 8 (natField d 8 8)
/-- The code width of a descriptor (R46). -/
def descWidth (d : Nat) : Nat := descSgn d + descEw d + descMw d

/-- The value of a code under a descriptor (R47); a NaN code is quiet. -/
def unpackQ (d code : Nat) : FVal :=
  let mw := descMw d
  let ew := descEw d
  let c := code % 2 ^ descWidth d
  if ew = 0 then
    let z : Int := if descSgn d = 1 then signedVal (mw + 1) c else c
    .fin (z < 0) z.natAbs (-(descBias d))
  else
    let neg := descSgn d == 1 && natBit c (mw + ew)
    let e := natField c mw ew
    let m := natField c 0 mw
    if descSpec d && e == 2 ^ ew - 1 then (if m = 0 then .inf neg else .nan false)
    else if e = 0 then .fin neg m (1 - descBias d - mw)
    else .fin neg (2 ^ mw + m) ((e : Int) - descBias d - mw)

/-- The integer code of a scaled-integer format (R52). -/
def intOfQ (d code : Nat) : Int :=
  if descSgn d = 1 then signedVal (descMw d + 1) (code % 2 ^ descWidth d) else ((code % 2 ^ descWidth d : Nat) : Int)

/-- Conversion of a value to a narrow format (R48). With SGN = 0 and EW = 0 a negative value that rounds to -0 gives code
0 and raises NX. (DESIGN CHOICE, log 94.) -/
def packQ (d : Nat) (rm : Rm) (v : FVal) : Nat × BitVec 5 :=
  let mw := descMw d
  let ew := descEw d
  let sgn := descSgn d
  let sb := 2 ^ (mw + ew)
  if ew = 0 then
    let lo : Int := if sgn = 1 then -((2 ^ mw : Nat) : Int) else 0
    let hi : Int := ((2 ^ mw : Nat) : Int) - 1
    let enc := fun z : Int => wrapInt (mw + sgn) z
    match v with
    | .nan _ => (0, fNV)
    | .inf n => (enc (if n then lo else hi), fNV)
    | .fin n m e =>
      let (r, inex) := roundAt rm n m e (-(descBias d))
      let z := FVal.sgn n r
      if z < lo then (enc lo, fNV) else if hi < z then (enc hi, fNV) else (enc z, flagIf inex fNX)
  else
    let spec := descSpec d
    let top := if spec then (2 ^ ew - 1) * 2 ^ mw else 2 ^ (ew + mw)
    let put := fun (neg : Bool) (code : Nat) (fl : BitVec 5) =>
      if neg then
        if sgn = 1 then (code + sb, fl) else if code = 0 then (0, fl) else (0, fNV)
      else (code, fl)
    match v with
    | .nan _ => (if spec && mw != 0 then (2 ^ ew - 1) * 2 ^ mw + 2 ^ (mw - 1) else 0, fNV)
    | .inf n => if spec then put n top 0 else (if n && sgn == 0 then 0 else (put n (top - 1) fNV).1, fNV)
    | .fin n m e =>
      if m = 0 then put n 0 0
      else
        let (code, ovf, fl) := roundMag mw (1 - descBias d) top rm n m e
        if ovf then
          if n && sgn == 0 then (0, fNV)
          else if spec && !overflowToMax rm n then put n top fl
          else put n (top - 1) fl
        else if n && sgn == 0 && code == 0 then (0, 0)
        else put n code fl

/-! ### Estimates (R59, R60) -/

/-- The exponent and the fraction's leading bits of a nonzero magnitude `m * 2^e`: `m * 2^e = 1.f * 2^ex`, and the top
`k` bits of `f`. -/
def leadBits (m : Nat) (e : Int) (k : Nat) : Int × Nat :=
  let l := bitLen m
  ((l : Int) - 1 + e, (m * 2 ^ k / 2 ^ (l - 1)) % 2 ^ k)

/-- The reciprocal estimate (R59). -/
def fRcpe (t : FType) (a : Nat) : Nat × BitVec 5 :=
  match unpack t a with
  | .nan s => (t.canon, flagIf s fNV)
  | .inf n => (withSign t n 0, 0)
  | .fin n m e =>
    if m = 0 then (withSign t n t.infBits, fDZ)
    else
      let (ex, j) := leadBits m e 6
      let d := 129 + 2 * j
      let est := (65536 + d) / (2 * d)
      roundF t .rne n est (-ex - 8)

/-- The nearest integer `E` with `(2E-1)^2 n < 2^24 < (2E+1)^2 n` (R60). -/
def rsqEntry (n : Nat) : Nat := (isqrt (16777216 / n) + 1) / 2

/-- The reciprocal square-root estimate (R60). -/
def fRsqe (t : FType) (a : Nat) : Nat × BitVec 5 :=
  match unpack t a with
  | .nan s => (t.canon, flagIf s fNV)
  | .inf n => if n then (t.canon, fNV) else (0, 0)
  | .fin n m e =>
    if m = 0 then (withSign t n t.infBits, fDZ)
    else if n then (t.canon, fNV)
    else
      let (ex, f) := leadBits m e 5
      let j := 32 * (ex % 2).toNat + f
      let nn := if j < 32 then 65 + 2 * j else 2 * (65 + 2 * (j - 32))
      roundF t .rne false (rsqEntry nn) (-(ex / 2) - 8)

end Sys2Proof.Machine
end

