-- ==== Sys2Proof/Machine/Arith.lean ====
section
/-! DEFINITION. Integer arithmetic of the scalar and vector units, element access of vector registers, and wide sums
(R34 to R36, R54 to R58, R112 to R118, R127). Elements are numbers below `2^w`. -/

namespace Sys2Proof.Machine

open Sys2Proof

/-! ### Integer operations on elements of width `w` -/

/-- The value of an element as its type reads it. -/
def intVal (uns : Bool) (w n : Nat) : Int := if uns then ((n % 2 ^ w : Nat) : Int) else signedVal w n

def iAdd (w a b : Nat) : Nat := (a + b) % 2 ^ w
def iSub (w a b : Nat) : Nat := wrapInt w ((a : Int) - b)
def iMul (w a b : Nat) : Nat := a * b % 2 ^ w
/-- Bits 2w-1:w of the exact product (R112). -/
def iMulh (uns : Bool) (w a b : Nat) : Nat := wrapInt w (intVal uns w a * intVal uns w b / ((2 ^ w : Nat) : Int))
def iShl (w a b : Nat) : Nat := a * 2 ^ (b % w) % 2 ^ w
def iShr (w a b : Nat) : Nat := a % 2 ^ w / 2 ^ (b % w)
def iSar (w a b : Nat) : Nat := wrapInt w (signedVal w a / ((2 ^ (b % w) : Nat) : Int))
def iRot (w a b : Nat) : Nat :=
  let s := b % w
  (a % 2 ^ w * 2 ^ s % 2 ^ w) + (a % 2 ^ w) / 2 ^ (w - s)
def iMin (uns : Bool) (w a b : Nat) : Nat := if intVal uns w a ≤ intVal uns w b then a % 2 ^ w else b % 2 ^ w
def iMax (uns : Bool) (w a b : Nat) : Nat := if intVal uns w a ≤ intVal uns w b then b % 2 ^ w else a % 2 ^ w
def iSat (uns : Bool) (w : Nat) (z : Int) : Nat := wrapInt w (clampInt uns w z)
def iAddSat (uns : Bool) (w a b : Nat) : Nat := iSat uns w (intVal uns w a + intVal uns w b)
def iSubSat (uns : Bool) (w a b : Nat) : Nat := iSat uns w (intVal uns w a - intVal uns w b)
def iMulSat (uns : Bool) (w a b : Nat) : Nat := iSat uns w (intVal uns w a * intVal uns w b)
/-- `clamp(a * 2^s)` with `s` the unsigned value of `b[5:0]` (R112). -/
def iShlSat (uns : Bool) (w a b : Nat) : Nat := iSat uns w (intVal uns w a * ((2 ^ (b % 64) : Nat) : Int))
/-- Quotient toward zero; the minimum by -1 is the minimum (R36, R114). -/
def iDiv (uns : Bool) (w a b : Nat) : Nat := wrapInt w (Int.tdiv (intVal uns w a) (intVal uns w b))
/-- The saturating quotient: the minimum by -1 is the maximum (R36). -/
def iDivSat (uns : Bool) (w a b : Nat) : Nat := iSat uns w (Int.tdiv (intVal uns w a) (intVal uns w b))
/-- The remainder, with the sign of the dividend (R36). -/
def iRem (uns : Bool) (w a b : Nat) : Nat := wrapInt w (Int.tmod (intVal uns w a) (intVal uns w b))
def iAnd (_w a b : Nat) : Nat := a &&& b
def iOr (_w a b : Nat) : Nat := a ||| b
def iXor (_w a b : Nat) : Nat := a ^^^ b
def iNot (w a : Nat) : Nat := 2 ^ w - 1 - a % 2 ^ w
def iAndn (w a b : Nat) : Nat := a &&& iNot w b
def iClz (w a : Nat) : Nat := w - bitLen (a % 2 ^ w)
def iCtz (w a : Nat) : Nat := lowestBit w (a % 2 ^ w)
def iAbs (w a : Nat) : Nat := wrapInt w (signedVal w a).natAbs
def iNeg (w a : Nat) : Nat := wrapInt w (-(signedVal w a))
/-- Integer conditions of `cmp` and `vcmp` (R116, R139). -/
def iCond (c : ICond) (uns : Bool) (w a b : Nat) : Bool :=
  match c with
  | .eq => a % 2 ^ w == b % 2 ^ w
  | .ne => a % 2 ^ w != b % 2 ^ w
  | .lt => intVal uns w a < intVal uns w b
  | .le => intVal uns w a ≤ intVal uns w b

/-- A `w`-bit result extended to 64 bits: by sign for signed types of class X, by zero otherwise (R93). -/
def extend64 (signed : Bool) (w n : Nat) : W64 :=
  if signed then BitVec.ofInt 64 (signedVal w n) else BitVec.ofNat 64 (n % 2 ^ w)

/-- `bfx` (R118): the field at `pos` of at most `width` bits. -/
def bfxField (sx : Bool) (a spec : Nat) : Nat :=
  let pos := natField spec 0 6
  let m := min (natField spec 6 6 + 1) (64 - pos)
  let v := natField a pos m
  if sx then wrapInt 64 (signedVal m v) else v

/-- `bfi` (R118): the field of `d` replaced by the low bits of `a`. -/
def bfiField (d a spec : Nat) : Nat :=
  let pos := natField spec 0 6
  let m := min (natField spec 6 6 + 1) (64 - pos)
  natSetField d pos m a

/-! ### Elements of a vector register (R127) -/

/-- Elements of width `w` to a number, element 0 lowest. -/
def ofElems (w : Nat) : List Nat → Nat
  | [] => 0
  | x :: xs => x % 2 ^ w + 2 ^ w * ofElems w xs

def elemCount (w : Nat) : Nat := 2048 / w

def elemOf (v e w : Nat) : Nat := natField v (w * e) w

/-- The elements of a register, element 0 first. -/
def elems (w v : Nat) : List Nat := (List.range (elemCount w)).map (fun e => elemOf v e w)

def vecOf (w : Nat) (l : List Nat) : V2048 := BitVec.ofNat 2048 (ofElems w l)

/-- The same 64-bit value in every lane. -/
def splat (x : Nat) : V2048 := vecOf 64 (List.replicate 32 x)

/-- Results of an element-wise operation with flags. -/
def collect (w : Nat) (l : List (Nat × BitVec 5)) : V2048 × BitVec 5 :=
  (vecOf w (l.map (·.1)), l.foldl (fun f x => f ||| x.2) 0)

def map1 (w : Nat) (f : Nat → Nat) (a : V2048) : V2048 := vecOf w ((elems w a.toNat).map f)
def map2 (w : Nat) (f : Nat → Nat → Nat) (a b : V2048) : V2048 :=
  vecOf w ((elems w a.toNat).zipWith f (elems w b.toNat))
def fmap1 (w : Nat) (f : Nat → Nat × BitVec 5) (a : V2048) : V2048 × BitVec 5 :=
  collect w ((elems w a.toNat).map f)
def fmap2 (w : Nat) (f : Nat → Nat → Nat × BitVec 5) (a b : V2048) : V2048 × BitVec 5 :=
  collect w ((elems w a.toNat).zipWith f (elems w b.toNat))
def fmap3 (w : Nat) (f : Nat → Nat → Nat → Nat × BitVec 5) (a b d : V2048) : V2048 × BitVec 5 :=
  collect w (((elems w a.toNat).zip (elems w b.toNat)).zipWith (fun x z => f x.1 x.2 z) (elems w d.toNat))

/-- Whether the lane of element `e` is active under a mask (R128). -/
def laneActive (mask : BitVec 32) (e w : Nat) : Bool := natBit mask.toNat (w * e / 64)

/-- The mask with bit i set when every element of lane i meets the condition (R139). -/
def laneMask (w : Nat) (conds : List Bool) : BitVec 32 :=
  let per := 64 / w
  BitVec.ofNat 32 (ofElems 1 ((List.range 32).map (fun i =>
    if ((conds.drop (i * per)).take per).all id then 1 else 0)))

/-! ### Reduction trees (R57, R58) -/

/-- One level of the pairwise tree over possibly absent operands. -/
def treeLevel (f : Nat → Nat → Nat × BitVec 5) : List (Option Nat) → List (Option Nat) × BitVec 5
  | x :: y :: rest =>
    let (r, fl) := treeLevel f rest
    match x, y with
    | some a, some b => (some (f a b).1 :: r, (f a b).2 ||| fl)
    | some a, none => (some a :: r, fl)
    | none, some b => (some b :: r, fl)
    | none, none => (none :: r, fl)
  | l => (l, 0)

/-- The pairwise tree, `k` levels at most. -/
def treeReduce (f : Nat → Nat → Nat × BitVec 5) : Nat → List (Option Nat) → Option Nat × BitVec 5
  | 0, l => ((l.head?).getD none, 0)
  | k + 1, l =>
    match l with
    | [] => (none, 0)
    | [x] => (x, 0)
    | l =>
      let (r, fl) := treeLevel f l
      let (v, fl2) := treeReduce f k r
      (v, fl ||| fl2)

/-- A reduction of the active elements of a register into every element; `dflt` stands for an absent result. -/
def reduceVec (w : Nat) (f : Nat → Nat → Nat × BitVec 5) (dflt : Nat) (mask : BitVec 32) (a : V2048) :
    V2048 × BitVec 5 :=
  let l := (List.range (elemCount w)).map (fun e => if laneActive mask e w then some (elemOf a.toNat e w) else none)
  let (r, fl) := treeReduce f 12 l
  (vecOf w (List.replicate (elemCount w) (r.getD dflt)), fl)

/-- The result of a floating-point reduction: one active element passes the tree without an operation, and a NaN is then
made the canonical one (R39). (DEDUCED, log 99.) -/
def quietResult (t : FType) (x : Nat) : Nat :=
  match unpack t x with
  | .nan _ => t.canon
  | .inf _ => x
  | .fin _ _ _ => x

/-- A reduction of IEEE elements (R39, R57, R58): its flags are those of the combinations made (R148). -/
def reduceFp (t : FType) (f : Nat → Nat → Nat × BitVec 5) (dflt : Nat) (mask : BitVec 32) (a : V2048) :
    V2048 × BitVec 5 :=
  let (v, fl) := reduceVec t.wd f dflt mask a
  (vecOf t.wd (List.replicate (elemCount t.wd) (quietResult t (elemOf v.toNat 0 t.wd))), fl)

/-! ### Wide sums (R54 to R56) -/

/-- Bits of F, and the binary weight of its bit 0 as a negative exponent. -/
def wsBits (ws64 : Bool) : Nat := if ws64 then 2296 else 376
def wsExp (ws64 : Bool) : Nat := if ws64 then 1074 else 149
/-- F as a two's complement integer. -/
def wsF (ws64 : Bool) (x : Nat) : Int := signedVal (wsBits ws64) x
/-- The four status bits; the reserved bits are ignored. -/
def wsStatus (ws64 : Bool) (x : Nat) : Nat := natField x (wsBits ws64) 4
/-- The image of F and a status. -/
def wsPack (ws64 : Bool) (f : Int) (st : Nat) : Nat := wrapInt (wsBits ws64) f + st % 16 * 2 ^ wsBits ws64

/-- Add an exact increment and a status byte to an image (R55): OVF is bit 3. -/
def wsAddInc (ws64 : Bool) (x : Nat) (inc : Int) (st : Nat) : Nat :=
  let m := wsBits ws64
  let s := wsF ws64 x + inc
  let ovf := s < -((2 ^ (m - 1) : Nat) : Int) ∨ ((2 ^ (m - 1) : Nat) : Int) ≤ s
  wsPack ws64 s (wsStatus ws64 x ||| st ||| (if ovf then 8 else 0))

/-- Add two images (R55). -/
def wsAddImage (ws64 : Bool) (x y : Nat) : Nat := wsAddInc ws64 x (wsF ws64 y) (wsStatus ws64 y)

/-- What one value contributes to a wide sum: increment, status byte, flags (R55, R150). -/
def wsContrib (ws64 : Bool) (v : FVal) : Int × Nat × BitVec 5 :=
  match v with
  | .nan s => (0, 4, flagIf s fNV)
  | .inf n => (0, if n then 2 else 1, 0)
  | .fin n m e => (FVal.sgn n m * (2 ^ (e + wsExp ws64).toNat : Nat) / ((2 ^ (-(e + wsExp ws64)).toNat : Nat) : Int), 0, 0)

/-- Round a wide sum to an IEEE format (R56). -/
def wsRound (ws64 : Bool) (t : FType) (rm : Rm) (x : Nat) : Nat × BitVec 5 :=
  let st := wsStatus ws64 x
  if natBit st 2 || (natBit st 0 && natBit st 1) then (t.canon, 0)
  else if natBit st 0 then (t.infBits, 0)
  else if natBit st 1 then (withSign t true t.infBits, 0)
  else if natBit st 3 then (t.canon, fNV)
  else roundZ t rm (wsF ws64 x) (-(wsExp ws64 : Int)) false

/-- The image bits of a wide sum as a register holds it: reserved status bits zero, WS32 in bits 383:0 (R54, R153). -/
def wsClean (ws64 : Bool) (x : Nat) : WSum := BitVec.ofNat 2304 (wsPack ws64 (wsF ws64 x) (wsStatus ws64 x))

end Sys2Proof.Machine

namespace Sys2Proof

def WsAddTy.ws64 : WsAddTy → Bool
  | .h32 => false | .b32 => false | .s32 => false | .h64 => true | .b64 => true | .s64 => true | .d64 => true
def WsAddTy.elem : WsAddTy → FType
  | .h32 => .h | .b32 => .b | .s32 => .s | .h64 => .h | .b64 => .b | .s64 => .s | .d64 => .d
def WsRndTy.ws64 : WsRndTy → Bool
  | .h32 => false | .b32 => false | .s32 => false | .s64 => true | .d64 => true
def WsRndTy.target : WsRndTy → FType
  | .h32 => .h | .b32 => .b | .s32 => .s | .s64 => .s | .d64 => .d

end Sys2Proof

namespace Sys2Proof.Machine

open Sys2Proof

/-- The increment, status and flags of `wsadd` over the active elements (R150). -/
def wsIncrement (ws64 : Bool) (t : FType) (mask : BitVec 32) (a : V2048) : Int × Nat × BitVec 5 :=
  let w := t.wd
  ((List.range (elemCount w)).filter (fun e => laneActive mask e w)).foldl
    (fun acc e =>
      let (i, st, fl) := wsContrib ws64 (unpack t (elemOf a.toNat e w))
      (acc.1 + i, acc.2.1 ||| st, acc.2.2 ||| fl)) (0, 0, 0)

end Sys2Proof.Machine
end

