-- ==== Sys2Proof/Machine/Context.lean ====
section
/-! DEFINITION. The data types of the state: contexts, cores, clusters, accesses, cards and queues, as plain data.
Registers are bit vectors; structural things (queues, tables, records) are lists, options and structures. -/

namespace Sys2Proof.Machine

open Sys2Proof

/-! ### Registers of a context (R20) -/

/-- A register entry without full/empty state: its value and its taint set (R26). -/
structure TV (α : Type) where
  val : α
  taint : Taint
deriving DecidableEq, Repr

/-- A register entry with full/empty state (R24). -/
structure FE (α : Type) where
  val : α
  taint : Taint
  full : Bool
deriving DecidableEq, Repr

/-- A capability as a register, latch or granule holds it: 128 bits and the tag beside them (R192). -/
structure CapV where
  bits : BitVec 128
  tag : Bool
deriving DecidableEq, Repr

/-- The null capability (R192). -/
def CapV.null : CapV := ⟨0, false⟩

/-- The C unit: predicates, loop counters, general registers, the DONE bitmap, the latch and the return stack
(R20, R98). -/
structure CFile where
  p : Vector (TV Bool) 8
  l : Vector (TV (BitVec 32)) 4
  g : Vector (TV W64) 8
  done : W64
  latch : TV W64
  rstk : Vector (BitVec 32) 16
  depth : Nat
deriving DecidableEq, Repr

/-- The A unit: a0..a27, a.s0..a.s3, c0..c15, xh0..xh7 and the latch. -/
structure AFile where
  a : Vector (FE W64) 28
  s : Vector (TV W64) 4
  c : Vector (FE CapV) 16
  xh : Vector (FE W64) 8
  latch : TV CapV
deriving DecidableEq, Repr

/-- The I unit: i0..i27, i.s0..i.s3 and the latch. -/
structure IFile where
  i : Vector (FE W64) 28
  s : Vector (TV W64) 4
  latch : TV W64
deriving DecidableEq, Repr

/-- A vector unit: main and small registers, masks, wide sums and the latch. -/
structure VFile where
  v : Vector (FE V2048) 28
  s : Vector (TV V2048) 4
  m : Vector (TV (BitVec 32)) 8
  w : Vector (TV WSum) 4
  latch : TV V2048
deriving DecidableEq, Repr

/-- The M unit: stream descriptors, grist pointers and the latch (tiles belong to the core). -/
structure MFile where
  sd : Vector (TV (BitVec 256)) 8
  gp : Vector (TV (BitVec 32)) 4
  latch : TV W64
deriving DecidableEq, Repr

/-- A job-card register: two capability slots with their tags and words 4..7 (R243). -/
structure JobCard where
  src : CapV
  dst : CapV
  w4 : W64
  w5 : W64
  w6 : W64
  w7 : W64
deriving DecidableEq, Repr

/-- The K unit: kc, kx, kj and the latch. -/
structure KFile where
  kc : Vector (TV CapV) 16
  kx : Vector (TV W64) 28
  kj : Vector (TV JobCard) 8
  latch : TV CapV
deriving DecidableEq, Repr

/-- The S unit: format registers, scale registers and the latch. -/
structure SFile where
  f : Vector (TV (BitVec 32)) 16
  q : Vector (TV (BitVec 512)) 16
  latch : TV W64
deriving DecidableEq, Repr

/-- A main-file register that a word reads or writes, with full/empty state where its file has it. -/
inductive RegRef where
  | g (n : BitVec 5)
  | a (n : BitVec 5)
  | c (n : BitVec 5)
  | xh (n : BitVec 5)
  | i (n : BitVec 5)
  | v (u : VUnit) (n : BitVec 5)
  | kc (n : BitVec 5)
  | kx (n : BitVec 5)
  | sreg (n : BitVec 5)
deriving DecidableEq, Repr

/-! ### Results in flight -/

/-- One register write of an exposed or full/empty result. Register numbers 28..31 of `addr`, `int` and `vec` are the
small file (R22). A `wsinc` adds an increment to a wide sum instead of replacing it (R150). -/
inductive RegWrite where
  | pred (n : BitVec 3) (v : Bool)
  | loop (n : BitVec 2) (v : BitVec 32) (latch : Bool)
  | gen (n : BitVec 3) (v : W64)
  | addr (n : BitVec 5) (v : W64)
  | cap (n : BitVec 4) (v : CapV)
  | handle (n : BitVec 3) (v : W64)
  | int (n : BitVec 5) (v : W64)
  | vec (u : VUnit) (n : BitVec 5) (v : V2048)
  | mask (u : VUnit) (n : BitVec 3) (v : BitVec 32)
  | wsum (u : VUnit) (n : BitVec 2) (v : WSum)
  | wsinc (u : VUnit) (n : BitVec 2) (ws64 : Bool) (inc : Int) (st : BitVec 8)
  | sd (n : BitVec 3) (v : BitVec 256)
  | gp (n : BitVec 2) (v : BitVec 32)
  | kc (n : BitVec 4) (v : CapV)
  | kx (n : BitVec 5) (v : W64)
  | kjWord (n : BitVec 3) (k : BitVec 2) (v : W64)
  | kjSlot (n : BitVec 3) (dst : Bool) (v : CapV)
  | fmt (n : BitVec 4) (v : BitVec 32)
  | scale (n : BitVec 4) (v : BitVec 512)
deriving DecidableEq, Repr

/-- An entry of the due queue (R27 to R29, R334): remaining count of issued bundles, handler mark, the results of one
word, their taint set and flags. `rem` is the number of bundles still to issue before the results are visible. -/
structure DueEntry where
  rem : Nat
  hand : Bool
  writes : List RegWrite
  taint : Taint
  flags : BitVec 5
deriving DecidableEq, Repr

/-- A full/empty result on its way: its destination is empty until it arrives (R24). -/
structure Pending where
  write : RegWrite
  taint : Taint
  flags : BitVec 5
deriving DecidableEq, Repr

/-- A value of a load-data or store-data queue: a scalar, a vector, or a wide-sum image (R225, R229). -/
inductive QVal where
  | s (v : W64)
  | v (v : V2048)
  | w32 (v : WSum)
  | w64 (v : WSum)
deriving DecidableEq, Repr

/-- An entry of a load-data queue: the load id it is reserved under, its data once the load has performed, and its
taint set (R225). -/
structure LqEntry where
  id : Nat
  data : Option QVal
  taint : Taint
deriving DecidableEq, Repr

/-- An entry of a store-data queue (R124, R155). -/
structure SqEntry where
  val : QVal
  taint : Taint
deriving DecidableEq, Repr

/-! ### Buffers and accesses -/

/-- Kinds of buffer (R199). -/
inductive BufKind where
  | memory | local | code | reserved
deriving DecidableEq, Repr, Inhabited

/-- A buffer-space entry (R199). -/
structure BufEntry where
  length : Nat
  kind : BufKind
  valid : Bool
  shared : Bool
  world : Bool
  rack : Nat
  key : Nat
  owner : Nat
  gen : Nat
  stackSet : Nat
  pch : Nat
  stride : Nat
  extmap : Nat
  home : Nat
  loff : Nat
  gfloor : Nat
deriving DecidableEq, Repr, Inhabited

/-- A buffer space: the entries of one ASID by index (R199), and how many are loaded (sy.space.SIZE). -/
structure Space where
  asid : Nat
  size : Nat
  entries : List (Nat × BufEntry)
deriving DecidableEq, Repr

/-- Where the bytes of an access lie: in the buffer whose extent map stands at device address `map`, or in the local
array of a core of this cluster (R219). -/
inductive Loc where
  | mem (map : Nat)
  | loc (core : Nat)
deriving DecidableEq, Repr

/-- Integer atomic operations (R232). -/
inductive AmoOp where
  | add | and | or | xor | min | max | swap
deriving DecidableEq, Repr

/-- What an access does when it performs. A `fence` that is the acquire half of an atomic names the atomic's place in the
issue order: the acquire waits for it (R273). -/
inductive AccOp where
  | load (q : DUnit) (ty : XType)
  | vload (u : VUnit)
  | wload (u : VUnit) (ws64 : Bool)
  | lcap (d : BitVec 4)
  | store
  | scap (tag : Bool)
  | amo (op : AmoOp) (ty : XType) (ret : Bool)
  | cas (w : Width) (new : Nat)
  | wsadd (ws64 : Bool)
  | spawn
  | join (slot : Nat)
  | fence (after : Option Nat)
deriving DecidableEq, Repr

/-- One piece of an access: its lane, its address in the location and its data (stores and operands). -/
structure Piece where
  lane : Nat
  addr : Nat
  data : Nat
deriving DecidableEq, Repr

/-- An access that has issued and not yet performed, or a side-log entry (R239, R259): `seq` is its place in the
context's issue order, `hold` marks one that holds the context until it has performed (R238, R240, R286). -/
structure Access where
  op : AccOp
  loc : Loc
  pieces : List Piece
  size : Nat
  ent : Option BufEntry
  index : Nat
  id : Option Nat
  addrTaint : Taint
  dataTaint : Taint
  rel : Option Scope
  acq : Option Scope
  baddr : Nat
  unit : UnitId
  hand : Bool
  seq : Nat
  hold : Bool
deriving DecidableEq, Repr

/-- A load id: held by an outstanding load or free, and the perform epoch last recorded (R264). -/
structure LoadId where
  held : Bool
  pe : Nat
deriving DecidableEq, Repr

/-- What a translate handle pins: an extent of a buffer (R242). -/
structure Pin where
  map : Nat
  ext : Nat
deriving DecidableEq, Repr

/-- A translate whose handle is not yet full, with the last cycle in which it may stay so where its extent was resident at
issue (R242). -/
structure XlatWait where
  handle : BitVec 3
  pin : Pin
  value : W64
  taint : Taint
  limit : Option Nat
deriving DecidableEq, Repr

/-- An operation of the M queue, with everything it read at its issue (R173 to R180). -/
inductive MOp where
  | pass (z : Nat) (kind : Nat) (n : Nat) (cp : Nat) (overwrite : Bool) (desc : BitVec 256) (grist : Nat)
      (fa fb : BitVec 32) (qa qb : BitVec 512) (taint : Taint)
  | zero (z : Nat) (pair : Bool)
  | read (z : Nat) (pair : Bool) (base stride : Nat) (db : Nat)
  | write (z : Nat) (form : MwForm) (base stride : Nat) (db : Nat) (taint : Taint)
  | stat (base : Nat) (db : Nat)
deriving DecidableEq, Repr

/-- What the array keeps of the operation that it runs (R164, R175): the local array and the grist as it has read them,
and the aligned 8-byte words that it has written. -/
structure MRun where
  la : List Host.Cell
  grist : List Host.Cell
  wrote : List Nat
deriving DecidableEq, Repr

/-- An M-queue entry: the operation, its ordering taint, and its run once the array has started it (R176). -/
structure MEntry where
  op : MOp
  taint : Taint
  seq : Nat
  run : Option MRun
deriving DecidableEq, Repr

/-- A kitty's registers and taint set (R295). -/
structure Kitty where
  base : Nat
  cap : Nat
  head : Nat
  count : Nat
  taint : Taint
deriving DecidableEq, Repr

/-! ### Traps -/

/-- Trap causes (R323). -/
inductive Cause where
  | illegal | bundle | auth | empty | untag | bound | perm | stale | space | align | idiv | kitty | represent | swtrap
deriving DecidableEq, Repr

/-- What a trap writes into the fault record (R326). -/
structure TrapInfo where
  cause : Cause
  unit : UnitId
  post : Bool
  port : Bool
  replay : Bool
  lanes : Option (BitVec 32)
  cap : Option (BitVec 128)
  addr : W64
  index : Nat
  extent : Option Nat
  code : BitVec 10
  baddr : Nat
  raddr : Nat
deriving DecidableEq, Repr

/-- What one bundle accumulates while its words issue, applied when the bundle has issued whole: the trap a word raised
on its operands, the path taint and rounding mode to come, the next bundle address a C-unit word or `jmpc` chose, a
SWTRAP to take, whether a C-unit word decided the next bundle (R99), the sequential successor (R76), whether the
bundle began in handler mode, and whether a word that reads or writes the own array as it issues found an earlier access
still to perform (R164, R262). -/
structure Bun where
  trap : Option TrapInfo
  path : Taint
  rm : BitVec 2
  next : Option Nat
  decided : Bool
  post : Option TrapInfo
  seqNext : Nat
  hand : Bool
  late : Bool
deriving DecidableEq, Repr

/-! ### A context (R17) -/

/-- Queues and accesses of a context (R225, R239, R242). -/
structure CtxMem where
  ids : Vector LoadId 16
  floor : Nat
  aseq : Nat
  lqA : List LqEntry
  lqI : List LqEntry
  lqVA : List LqEntry
  lqVB : List LqEntry
  sqA : List SqEntry
  sqI : List SqEntry
  sqVA : List SqEntry
  sqVB : List SqEntry
  outs : List Access
  slog : List Access
  pins : Vector (Option Pin) 8
  xlats : List XlatWait
  pend : List Pending
  mq : List MEntry
deriving DecidableEq, Repr

/-- System registers and status of a context (R33, R40, R42, R250, R295, R326, R331). `loose` holds the flags of
full/empty results that have arrived and that no level-00 read has taken up yet (R42), `dump` says that the fatal dump of a frozen context is owed
(R337). -/
structure CtxStat where
  rm : BitVec 2
  fflags : BitVec 5
  loose : List (RegRef × BitVec 5)
  bundles : W64
  bubbles : W64
  melddeny : W64
  dfault : W64
  hintdrop : W64
  kitty : Vector Kitty 4
  step : BitVec 32
  stepValid : Bool
  frec : BitVec 512
  jstat : Vector W64 60
  hibs : Nat
  sheds : Nat
  passes : W64
  passFlags : BitVec 5
  hang : Nat
  dump : Bool
deriving DecidableEq, Repr

/-- Where a context stands and what its placement gave it (R159, R161, R218, R284, R314). -/
structure Place where
  cluster : Nat
  core : Nat
  slot : Nat
  prim : Bool
  launch : Nat
  asid : Nat
  contSlot : Nat
  link : Nat
  poolsz : Nat
  clord : Nat
  zown : BitVec 32
  gLo : Nat
  gHi : Nat
  gLost : Nat
  l1 : BitVec 16
  own : BitVec 16
  sbanks : BitVec 16
  sl1max : Nat
  image : Nat
  segMap : Nat
  segBase : Nat
  segBlocks : Nat
  segKey : Nat
  handler : Option Nat
  frame : CapV
deriving DecidableEq, Repr

/-- What a slot holds. `waiting` is a slot whose continuation ended by `pick` or `susp` (R287); `stopped` a context
saved by a pre-emption, a shed or a power failure (R333). -/
inductive Phase where
  | vacant | running | waiting | ended | frozen | stopped
deriving DecidableEq, Repr

/-- A `bar` not yet released: the barrier and the generation that it closes (R292). -/
structure BarWait where
  launch : Bool
  b : Nat
  gen : Nat
deriving DecidableEq, Repr

/-- A `crev` under way (R339): the buffer, the destination, the capability to deliver and its taint set, and the
generation that it has written, once it has. -/
structure CrevWait where
  index : Nat
  d : BitVec 4
  cap : CapV
  taint : Taint
  step : Option Nat
deriving DecidableEq, Repr

/-- What the next bundle of a context waits for beside the readiness of its own words: the cycles of a `yield` (R105), a
`bar` (R292) and a `crev` (R339). -/
structure CtxWait where
  yield : Nat
  bar : Option BarWait
  crev : Option CrevWait
deriving DecidableEq, Repr

/-- A port fault reported for an access of this context (R206, R325). -/
structure PortFault where
  info : TrapInfo
  hand : Bool
deriving DecidableEq, Repr

/-- Kinds of card in the dependency table (R248). -/
inductive CardKind where
  | copy (tags : Bool)
  | fill
  | mcast (tags : Bool) (dests : List (CapV × BufEntry))
  | coll (gid : Nat) (op : CollOp) (kind : CollKind) (step : Nat) (root : Nat)
deriving DecidableEq, Repr

/-- A byte range of one storage, for the overlap test of R248: a buffer (OWNER and INDEX), a local array or a grist
slice. -/
inductive Storage where
  | buf (owner index : Nat)
  | array (cluster core : Nat)
  | grist (cluster core : Nat)
deriving DecidableEq, Repr

structure Footprint where
  at_ : Storage
  lo : Nat
  hi : Nat
deriving DecidableEq, Repr

/-- A job card in the dependency table, with what it read at issue (R243 to R248). A slot above 1 is that of a card whose
context has left slot `slot - 2`. `stops` lists the destinations of a
`kmc` that have stopped, with their causes (R382); `moved` counts the sectors written to each destination, the progress
that a stop keeps (R250, R258), and `late` the bytes of those sectors not yet performed, as places of a destination's
write order (R249); `behind` marks a card whose footprint met a logged sector at its issue (R240); `flags` gathers the
flags raised so far; `own` are the banks of its context's scratchpad. -/
structure Card where
  slot : Nat
  launch : Nat
  kind : CardKind
  card : JobCard
  db : Nat
  fence : Bool
  srcEnt : BufEntry
  dstEnt : Option BufEntry
  fsrc : BitVec 32
  fdst : BitVec 32
  reads : List Footprint
  writes : List Footprint
  taint : Taint
  seq : Nat
  started : Bool
  held : Bool
  stops : List (Nat × Nat)
  moved : List Nat
  late : List (Nat × Nat)
  behind : Bool
  flags : BitVec 5
  own : BitVec 16
deriving DecidableEq, Repr

/-- What a stop keeps beside the context's own registers and queues (R258, R333 to R336): the cause of the stop, the
phase to come back to, the cards not complete, the owned tiles' full bits and taint sets (their values lie in the save
area), how many losses of a grist region of its window there have been since (R159), and whether a restart has brought it
back. -/
structure Saved where
  code : StopCode
  phase : Phase
  cluster : Nat
  cards : List Card
  tiles : List (Nat × Bool × Taint)
  banks : List Host.Cell
  grist : Nat
  dark : Bool
deriving DecidableEq, Repr

/-- A context: its private copy of every file, queue and register (R17, R20). -/
structure Ctx where
  c : CFile
  a : AFile
  i : IFile
  va : VFile
  vb : VFile
  m : MFile
  k : KFile
  s : SFile
  due : List DueEntry
  mem : CtxMem
  st : CtxStat
  pc : Nat
  path : Taint
  savedPath : Taint
  handler : Bool
  bun : Bun
  ports : List PortFault
  wait : CtxWait
  phase : Phase
  place : Place
  bubblesLeft : Nat
  saved : Option Saved
deriving DecidableEq, Repr

/-! ### The core, the cluster and the device -/

/-- A tile of accumulator memory: 1,024 words, its full/empty bit and taint set, and the ASID of its last owner
(R160 to R162). -/
structure Tile where
  val : BitVec 32768
  full : Bool
  taint : Taint
  asid : Option Nat
deriving DecidableEq, Repr

/-- A block of the instruction store: the code buffer it was filled from, its number, its 252 words (R75). -/
structure CodeBlock where
  map : Nat
  base : Nat
  num : Nat
  words : List (BitVec 32)
deriving DecidableEq, Repr

/-- A line of a cache: the buffer and line it holds, its fill epoch, its 192 bytes, the tags of its 12 granules, which of
its four sectors have been filled, the places of its dirty bytes, rising, and those of its sectors that were uncorrectable
when they were filled (R4, R259, R268, R414). -/
structure Line where
  map : Nat
  line : Nat
  epoch : Nat
  bytes : List Byte
  tags : List Bool
  sects : List Bool
  dirty : List Nat
  bad : List Nat
deriving DecidableEq, Repr

/-- What the meld stage has given away in the current cycle (R19): whether the primary has issued, or its bundle is in a
bubble cycle (R32), with the units and bank reads taken. -/
structure Cycle where
  primIssued : Bool
  bubble : Bool
  units : List UnitId
  reads : Nat
deriving DecidableEq, Repr

/-- A core: local array with its tags, bank owners, tiles, grist, instruction store, L1, dependency table, droop cap. -/
structure Core where
  cluster : Nat
  num : Nat
  la : List Host.Cell
  laTags : List Nat
  bankAsid : Vector (Option Nat) 16
  tiles : Vector Tile 32
  grist : List Host.Cell
  gristAsid : Vector (Option Nat) 64
  istore : List CodeBlock
  l1 : List Line
  cards : List Card
  cap : Nat
  mLast : Nat
  cyc : Cycle
deriving DecidableEq, Repr

/-- A barrier: the count its generation's first arrival fixed, its arrivals, and the generations closed (R292). -/
structure Barrier where
  k : Nat
  arrivals : Nat
  gen : Nat
deriving DecidableEq, Repr

/-- A cluster: its partition and world, epoch clock, cache, buffer table, slot pattern and health
(R200, R268, R310, R318, R319). -/
structure Cluster where
  num : Nat
  part : Nat
  world : Bool
  healthy : Bool
  shed : Bool
  clock : Nat
  wraps : Nat
  lines : List Line
  table : Option Space
  pattern : BitVec 16
  cycles : Nat
deriving DecidableEq, Repr

end Sys2Proof.Machine
end

