-- ==== Sys2Proof/Machine/Device.lean ====
section
/-! DEFINITION. The data types of the device around the cores: extents, launches, streams, partitions, keys, groups,
power, thermal regions, journals, links, the sweep and the management registers, as plain data. -/

namespace Sys2Proof.Machine

open Sys2Proof

/-! ### Memory residency (R237, R241, R411) -/

/-- Residency of an extent (R237). -/
inductive ExtState where
  | hbm | scm | remote | absent
deriving DecidableEq, Repr

/-- An extent of a buffer: its extent-map entry, the stack of its frame, and its access counter (R207, R237, R241). An
extent not listed is absent. -/
structure Extent where
  map : Nat
  ext : Nat
  state : ExtState
  mig : Bool
  stack : Nat
  frame : Nat
  peer : Nat
  owner : Nat
  world : Bool
  counter : Nat
deriving DecidableEq, Repr

/-- A frame of HBM allocated for an extent that is not in HBM yet (R238, R411): its stack and number, the extent with the
owner and world that it will have, and whether zeros have been written to every row. -/
structure Frame where
  stack : Nat
  num : Nat
  map : Nat
  ext : Nat
  owner : Nat
  world : Bool
  clean : Bool
deriving DecidableEq, Repr

/-! ### Launches (R304 to R322) -/

/-- A LAUNCH record's fields (R304). -/
structure LaunchRec where
  anchor : Bool
  meld : Bool
  preempt : Bool
  asid : Nat
  rows : Nat
  cols : Nat
  row0 : Nat
  col0 : Nat
  cores : Nat
  image : Nat
  pool : Nat
  poolsz : Nat
  frame : Nat
  save : Nat
  framesz : Nat
  arg : Nat
  argPerms : Nat
  argCur : Nat
  argBase : Nat
  argLen : Nat
  s1 : W64
  hang : Nat
  wall : Nat
  timeout : Nat
  tag : W64
deriving DecidableEq, Repr

/-- A scratchpad-plan entry: first and last bank, offset in units of 48 bytes, bound buffer (0xFFFF for none), size in
units of 48 bytes, first and last live bundle numbers (R307). -/
structure PlanEntry where
  bank : Nat
  bank2 : Nat
  off : Nat
  bind : Nat
  size : Nat
  first : Nat
  last : Nat
deriving DecidableEq, Repr

/-- A buffer-list entry: buffer index, rights, and the hibernation class when `.rack` named it (R307). -/
structure BufListEntry where
  index : Nat
  rights : Nat
  cls : Option Nat
deriving DecidableEq, Repr

/-- The parts of a kernel image and its signed segment header that the launch uses (R307, R356). -/
structure ImageInfo where
  entry : Nat
  handler : Option Nat
  l1 : Nat
  ztiles : Nat
  gunits : Nat
  nblocks : Nat
  segMap : Nat
  segBase : Nat
  segKey : Nat
  segNonce : W64
  banks : BitVec 16
  l1max : Nat
  plan : List PlanEntry
  bufs : List BufListEntry
deriving DecidableEq, Repr

/-- What the pool unit keeps beside the record slots in memory (R283, R285): a slot's join counter and whether its
record is parked. A slot not listed is free. -/
structure PoolSlot where
  slot : Nat
  counter : Int
  parked : Bool
deriving DecidableEq, Repr

/-- The pool of a launch: its buffer, its record slots, the queue in enqueue order, each cluster's position in the
priority sequence, and the spawns that wait for a slot. -/
structure Pool where
  map : Nat
  index : Nat
  gen : Nat
  size : Nat
  slots : List PoolSlot
  queue : List Nat
  pos : List (Nat × Nat)
deriving DecidableEq, Repr

/-- The course of a launch: running, stopped whole (R332, R386), waiting to claim again after a stop, or under an abort
with its cause and the tick at which its remaining contexts are ended (R338). -/
inductive LState where
  | running
  | stopped (code : StopCode)
  | aborting (cause : Nat) (deadline : Nat)
deriving DecidableEq, Repr

/-- The four CL barriers of a launch in one of its clusters (R292); they stay with the launch when it is stopped
(R384). -/
structure ClBars where
  clord : Nat
  bars : Vector Barrier 4
deriving DecidableEq, Repr

/-- A launch that holds clusters or waits to resume (R309 to R322). `node` names the graph node it runs, `level` is its
stream's level when it started, `seq` its place in the order of starts; `stained` holds the blocks of its code
segment that its contexts have stored to (R78). -/
structure Launch where
  id : Nat
  stream : Nat
  seq : Nat
  level : Nat
  node : Option (Nat × Nat)
  lrec : LaunchRec
  img : ImageInfo
  row : Nat
  col : Nat
  clusters : List Nat
  pool : Pool
  bars : Vector Barrier 4
  clBars : List ClBars
  state : LState
  first : Option Nat
  journal : Nat
  stained : List Nat
deriving DecidableEq, Repr

/-- A completion entry owed after a restart (R399): its bytes and, unless it is a parked record's, what its END entry in the
launch journal will hold (R403): ASID, TAG, STATUS, CAUSE and the BEGIN entry. -/
structure Owed where
  bytes : List Byte
  fin : Option (Nat × W64 × Nat × Nat × Nat)
deriving DecidableEq, Repr

/-- A command stream (R301, R302): its registers, the record numbers given out, the round-robin credit left, whether
a WAIT record has been taken and stands at its head, the LAUNCH at its head whose launch sequence has begun, as its BEGIN
entry and its bytes (R309, R403), and, after a restart and until the host enables it (R399), the completion entries it
owes. -/
structure Stream where
  num : Nat
  base : Nat
  enable : Bool
  size : Nat
  level : Nat
  weight : Nat
  tail : Nat
  head : Nat
  cqbase : Nat
  cqtail : Nat
  state : Nat
  credit : Nat
  waiting : Bool
  begun : Option (Nat × Nat)
  restored : Bool
  owed : List Owed
deriving DecidableEq, Repr

/-- The course of a graph node (R308). -/
inductive GState where
  | pending
  | running
  | ended (status cause : Nat)
deriving DecidableEq, Repr

/-- A node of a running graph: its record after patching; `bad` marks one with another TYPE or a nonzero reserved field. -/
structure GNode where
  num : Nat
  lrec : LaunchRec
  bad : Bool
  state : GState
deriving DecidableEq, Repr

/-- A running graph (R308): `first` is the tick of the first bundle of any node, `journal` its launch-journal entry. -/
structure Graph where
  id : Nat
  stream : Nat
  journal : Nat
  first : Option Nat
  tag : W64
  nodes : List GNode
  edges : List (Nat × Nat)
deriving DecidableEq, Repr

/-- An entry of the verified-image cache (R313), the most recently used first in its list. -/
structure Verified where
  digest : Nat
  signer : Nat
  part : Nat
  mgen : Nat
deriving DecidableEq, Repr

/-! ### Partitions, sessions and keys (R346 to R361) -/

/-- TDISP states (R348). -/
inductive TdiState where
  | unlocked | locked | run | error
deriving DecidableEq, Repr

/-- A partition and its TDI (R346 to R355). `held` marks a TDI held at restart (R400) with the tick at which its retry
window ends; `migr` the tick at which a running migration's window ends (R360); `refusals` counts host requests to its
secure buffers that were not accepted (R363). `sess` names its SPDM session's keys, `keyEx` stands between KEY_EXCHANGE and
FINISH, `ide` says that its IDE stream's keys are set (R362), `attested` that the tenant has read measurements in the
session, `migSess` names the session of its migration (R359), `lates` the digests of sent blobs whose window has ended
unconfirmed (R361). -/
structure Part where
  num : Nat
  tdi : TdiState
  asids : List Nat
  mgen : BitVec 32
  keys : Vector Nat 4
  wrapKey : Nat
  retry : Nat
  refusals : Nat
  session : Bool
  sess : Nat
  keyEx : Bool
  ide : Bool
  attested : Bool
  migSess : Nat
  tokSeq : Nat
  tokSeen : Nat
  held : Option Nat
  migr : Option Nat
  lost : Bool
  lates : List Nat
deriving DecidableEq, Repr

/-- States of a key-store index (R350); an index not listed is FREE, and key 0, the device's own, is LIVE. `held` is a key
kept wrapped at a restart (R399), `sealed` one that awaits a migration confirmation, `retired` one being zeroised. -/
inductive KeyState where
  | live (part : Nat)
  | sealed (part : Nat)
  | held (part : Nat)
  | retired
deriving DecidableEq, Repr

/-- An index of the key store in use; `serial` names the key drawn for it. -/
structure KeyRec where
  index : Nat
  st : KeyState
  serial : Nat
deriving DecidableEq, Repr

/-- An HDM decoder of a host port (R362): the function whose host window it is, the window's host address, and the buffer
that it maps. -/
structure Hdm where
  port : Nat
  num : Nat
  fn : Nat
  base : Nat
  asid : Nat
  index : Nat
deriving DecidableEq, Repr

/-- A write that waits until launches let go of what it changes (R200, R317, R318, R346): of a buffer-space entry, of a
locked item, directly or under a token, or of a deal table. -/
inductive Deferred where
  | entry (asid index bits : Nat)
  | direct (part : Nat) (i : LockedItem) (v : LockedValue)
  | commit (t : Token) (v : Option (LockedItem × LockedValue))
  | deal (cls port : Nat) (slots : List (Option Nat))
deriving DecidableEq, Repr

/-- A deal table of one port of a class (R317): 64 slots, each naming a partition or free. -/
structure DealTable where
  cls : Nat
  port : Nat
  slots : List (Option Nat)
deriving DecidableEq, Repr

/-! ### The fabric and groups (R365 to R379) -/

/-- A Waras link (R365, R367): whether it is up, its lost lanes, replays of the flit in progress. -/
structure Link where
  num : Nat
  up : Bool
  lost : List Nat
  seq : Nat
  replays : Nat
deriving DecidableEq, Repr

/-- A group-table entry (R371). -/
structure GroupEntry where
  valid : Bool
  gid : Nat
  g : Nat
  rank : Nat
  asid : Nat
  key : Nat
  waitlim : Nat
  members : List Nat
deriving DecidableEq, Repr

/-- The state held here of one member (R372), and the tick since when it has been missing. -/
structure Member where
  rank : Nat
  st : MState
  since : Nat
deriving DecidableEq, Repr

/-- A group: its table entry, its last completed step in this package, the states of its members (this package's own
under its own rank; a rank not listed is ACTIVE), and what came before this package's job of its step: segments, steps
that members have announced, reports of a written DST and of a fault, by rank and step. -/
structure Group where
  entry : GroupEntry
  lastStep : Option Nat
  members : List Member
  early : List ((Nat × Nat) × CollDecl × List Nat)
  ahead : List (Nat × Nat)
  wrote : List (Nat × Nat)
  failed : List (Nat × Nat)
deriving DecidableEq, Repr

/-- The job state of an outstanding collective job (R375, R376, R378): the segments received, by source rank and
segment number, with their values, what each peer declared of its job, the segments accepted by each peer, the steps that
members have announced, whether this member has written its DST, the ranks that have reported so, whether a member's fault
has been reported (R379), and the ranks that a resumed member still waits for (R401); `free` numbers the free values of its
sums. -/
structure CollJob where
  gid : Nat
  recv : List ((Nat × Nat) × List Nat)
  decls : List (Nat × CollDecl)
  sent : List (Nat × Nat)
  steps : List (Nat × Nat)
  written : Bool
  reports : List Nat
  fault : Bool
  awaits : List Nat
  free : Nat
deriving DecidableEq, Repr

/-! ### Power, temperature, errors (R385 to R417) -/

/-- Where the module stands between power events: on, in a phase of hibernation (R386), without power, or in a step of
a restart (R399). -/
inductive PowerPhase where
  | on
  | hib (phase : Nat)
  | off
  | restart (step : Nat)
deriving DecidableEq, Repr

/-- A launch-journal entry (R403): TYPE 1 BEGIN, 2 END, 3 REPORTED, with its CHECK; `index` is its number in the
journal, `begins` the index of the BEGIN entry that an END or REPORTED entry closes. -/
structure LJEntry where
  type : Nat
  stream : Nat
  asid : Nat
  tag : W64
  ticks : Nat
  status : Nat
  cause : Nat
  check : Nat
  index : Nat
  begins : Nat
deriving DecidableEq, Repr

/-- A manifest slot (R391): what a restart reads back, with its DIGEST and its signature. The tables stand here as the data
they describe (their bytes are Manifest.bytes); saved contexts and the racked image stand here whole. `racked` counts the extents racked
of each buffer, `windows` holds the ticks left of each migration's retry window. -/
structure Manifest where
  seq : Nat
  reason : Nat
  partialRack : Bool
  ticks : Nat
  reserve : Nat
  jhead : Nat
  streams : List Stream
  parts : List Part
  assign : List (Nat × Nat)
  deal : List DealTable
  groups : List Group
  spaces : List Space
  lost : List Nat
  racked : List (Nat × Nat)
  mem : List Host.Cell
  memTags : List Nat
  poison : List Nat
  exts : List Extent
  ctxs : List Ctx
  launches : List Launch
  graphs : List Graph
  jobs : List (Nat × Nat × Card)
  coll : List CollJob
  keys : List KeyRec
  windows : List (Nat × Nat)
  digest : Nat
  sig : Nat
deriving DecidableEq, Repr

/-- The power state of a module (R385 to R402): brown-out, shed stacks in shedding order, the stack being shed, whether
stacks return; the tick, reason and reserve energy in mJ of a PWRF, and the buffers (by extent map) that it racks first;
the hibernation counter and the two manifest slots; whether a thermal cut stands before the next restart; the launches of
a restart that have not yet resumed or ended, and its launch sequences that have not ended, as stream and BEGIN entry; the launches that the last restart reported failed; the tick at which power
last came up. -/
structure Power where
  phase : PowerPhase
  brown : Bool
  shed : List Nat
  shedding : Option Nat
  returning : Bool
  raised : Nat
  reason : Nat
  reserve : Nat
  rackFirst : List Nat
  counter : Nat
  slotA : Option Manifest
  slotB : Option Manifest
  cut : Bool
  pending : List Nat
  seqs : List (Nat × Nat)
  failed : List LJEntry
  upAt : Nat
deriving DecidableEq, Repr

/-- A voltage region of four clusters (R406 to R409): damage integral, slot count from the thermal target, samples since
SLOTS last rose, phases lost, whether it was shed, whether its power is off, and the number of the first period of 1,000
reference ticks that it has not sampled yet. -/
structure Region where
  num : Nat
  d : Nat
  slots : Nat
  since : Nat
  lost : Nat
  shed : Bool
  off : Bool
  sampled : Nat
deriving DecidableEq, Repr

/-- An error-journal entry (R412); `link` is set when it closes. -/
structure JEntry where
  type : Nat
  src : JSrc
  count : Nat
  index : Nat
  loc : Nat
  first : Nat
  last : Nat
  synd : Nat
  link : Nat
deriving DecidableEq, Repr

/-- The error journal (R412, R413): the closed entries, the open one, the first index kept, the next index, the chained
hash (none before the first entry), the indices whose signed heads have been
read, and the states of the open entry before its latest corrections, the newest first. -/
structure Journal where
  entries : List JEntry
  openEntry : Option JEntry
  first : Nat
  next : Nat
  hash : Option Nat
  heads : List Nat
  prior : List (Option JEntry)
deriving DecidableEq, Repr

/-- A retired row (R415): whether it is SCM's, its number, its bank, its location. -/
structure RetRow where
  scm : Bool
  row : Nat
  bank : Nat
  loc : Nat
deriving DecidableEq, Repr

/-- A correction remembered for the count of R415: the row and the tick. -/
structure RowFix where
  scm : Bool
  row : Nat
  at_ : Nat
deriving DecidableEq, Repr

/-- Management registers (R355, R410, R413, R418). Voltages are in tenths of a volt, energies in joules. Of the firmware
(R417): the active slot, the digests of the images in the active and the inactive slot, what the last request gave beside its
image (digest, signature, VERSION), the VERSION of the state handed over last, and during an update the new image and the tick
of its start. -/
structure Mgmt where
  replace : Bool
  phlost : Nat
  hbmless : Nat
  ejdrop : Nat
  update : Bool
  cutCause : BitVec 4
  cutStack : Nat
  dleak : Nat
  dthr : Nat
  dstep : Nat
  pcap : Nat
  vbrown : Nat
  vret : Nat
  shedOrder : List Nat
  eseal : Nat
  erestart : Nat
  wacc : Nat
  wlink : Nat
  fmin : Nat
  pfull : Nat
  scrubt : Nat
  fwSlot : Bool
  fwHash : Nat
  fwOther : Nat
  fwGiven : Nat × Nat × Nat
  fwVersion : Nat
  fwNew : Option (Nat × Nat)
  tokCode : Nat
  tokCount : Nat
  tokStage : Token
  staged : List (LockedItem × LockedValue)
deriving DecidableEq, Repr

/-- A scrub receipt asked for (R416): the range, the tick of the request, and the sectors of the pass that met an
uncorrectable error. -/
structure ScrubReq where
  range : PhysRange
  start : Nat
  exc : List Nat
deriving DecidableEq, Repr

/-- The sweep (R341 to R345): whether one is active, its SGEN by ASID and index, completed sweeps, cores paused and places
visited. -/
structure Sweep where
  active : Bool
  sgen : List ((Nat × Nat) × Nat)
  seq : BitVec 32
  paused : List (Nat × Nat)
deriving DecidableEq, Repr

/-- A reason for which the device sets a system done bit at the end of the cycle (R321): the abort of a launch or another
context frozen under it (d60), fewer
slots in a cluster (d61), a brown-out (d62), the revocation of a buffer (d63). -/
inductive Notice where
  | abort (launch : Nat)
  | again (launch : Nat)
  | pattern (cluster : Nat)
  | brown
  | revoked (asid index : Nat) (e : BufEntry)
deriving DecidableEq, Repr

/-- A host request held for a shed stack (R395): a read, or a write with its bytes. -/
structure HeldHost where
  req : HostReq
  data : Option (List Byte)
deriving DecidableEq, Repr

/-! ### What the device answers -/

/-- The SPDM capabilities that the device reports (R351). -/
inductive SpdmCap where
  | cert | chal | measSig | keyEx | encrypt | mac | hbeat
deriving DecidableEq, Repr

/-- The algorithms that the SPDM responder uses (R351). -/
inductive SpdmAlg where
  | rsaPss4096Sha512 | sha512 | ecdheSecp384r1 | aes256Gcm
deriving DecidableEq, Repr

/-- Answers and messages that leave the device. -/
inductive Msg where
  | tdispVersion (fn version : Nat)
  | tdispCaps (fn : Nat)
  | tdispReport (fn stream : Nat) (windows : List (Nat × Nat × Nat)) (bufs : List (Nat × Nat × Nat × Nat))
  | tdispState (fn : Nat) (st : TdiState) (lost : Bool)
  | tdispError (fn : Nat)
  | tdispOk (fn : Nat)
  | spdm (fn code payload : Nat)
  | spdmVersions (fn : Nat) (l : List Nat)
  | spdmCaps (fn : Nat) (l : List SpdmCap)
  | spdmAlgs (fn : Nat) (l : List SpdmAlg)
  | spdmError (fn : Nat)
  | imageKey (fn blob : Nat)
  | token (fn : Nat) (t : Token)
  | unsupported (fn : Nat)
  | hostData (fn : Nat) (data : List Byte)
  | hostDone (fn : Nat)
  | poisoned (fn : Nat)
  | peerData (dest : Nat) (data : List Byte) (tags : List Bool)
  | peerAck (dest : Nat)
  | peerFault (dest : Nat)
  | peerPaused (dest : Nat)
  | peerResumed (dest : Nat)
  | replay (link seq : Nat)
  | resume (gid rank step : Nat) (map : List (Nat × Nat))
  | segment (gid rank dest seg : Nat) (decl : CollDecl) (vals : List Nat)
  | memberState (gid rank : Nat) (st : MState)
  | written (gid rank step : Nat)
  | jobFault (gid rank step : Nat)
  | rejoined (gid rank dest step : Nat) (map : List (Nat × Nat)) (phase : Nat)
  | migrKeys (part : Nat) (l : List WrappedKey)
  | migrData (part : Nat) (l : List (Nat × Nat × Nat × Byte))
  | regData (r : MgmtReg) (l : List Nat)
  | migrLate (part : Nat)
  | migrConfirm (part sig : Nat)
  | scrubReceipt (range : PhysRange) (clean : Bool) (start stop jidx : Nat) (exc : List (Nat × Nat)) (sig : Nat)
  | ejhead (index : Option Nat) (hash ticks sig : Nat)
  | event (type src loc : Nat)
  | restartReport (failed : List LJEntry) (lostTdis : List Nat)
deriving DecidableEq, Repr

/-- The ordering codes: a package and a module (R1). -/
inductive OrderCode where
  | vpm9p | vpm9mh
deriving DecidableEq, Repr

end Sys2Proof.Machine
end

