-- ==== Sys2Proof/Machine/State.lean ====
section
/-! DEFINITION. The state of the machine and the state right after reset. -/

namespace Sys2Proof.Machine

open Sys2Proof

/-- Reasons the machine stops with a fault.
* `absentUnit`: raised by the meaning of an event of a unit that exists only on a VPM9-MH (R1, R2) in a machine whose
  ordering code is VPM9-P. Safe: no step of a VPM9-P is described by it. -/
inductive Fault where
  | absentUnit
deriving DecidableEq, Repr

/-- Reasons a step is refused.
* `notModelled`: raised by an arm of Dispatch for an instruction that has no meaning yet. Safe: the run stops. -/
inductive Refusal where
  | notModelled (mnemonic : String)
deriving DecidableEq, Repr

/-- The machine. `ctx`, `core` and `clus` are the context whose turn it is, its core and its cluster; the others stand
in the lists. A core or cluster that is not listed is as at reset. -/
structure State where
  ctx : Ctx
  others : List Ctx
  core : Core
  cores : List Core
  clus : Cluster
  clusters : List Cluster
  mem : List Host.Cell
  memTags : List Nat
  tagSum : List (Nat × Nat)
  exts : List Extent
  zeroing : List Frame
  spaces : List Space
  poison : List Nat
  l2 : List (Nat × Nat)
  msc : List (Nat × Nat)
  launches : List Launch
  streams : List Stream
  graphs : List Graph
  verified : List Verified
  hostMem : List Host.Cell
  parts : List Part
  keys : List KeyRec
  hdm : List Hdm
  deferred : List Deferred
  deal : List DealTable
  groups : List Group
  coll : List CollJob
  links : List Link
  module : Nat
  dsize : Nat
  pausedBy : List (Nat × Nat)
  away : List (Nat × Nat)
  pausedTo : List Nat
  heldHost : List HeldHost
  power : Power
  regions : List Region
  refreshed : List (Nat × Nat)
  patrol : List Nat
  journal : Journal
  ljournal : List LJEntry
  scrubs : List ScrubReq
  corrections : List RowFix
  retired : List RetRow
  mgmt : Mgmt
  sweep : Sweep
  notices : List Notice
  code : OrderCode
  outbox : List Msg
  agenda : List Instr
  acted : Bool
  cycle : Nat
  draws : Nat
  nextId : Nat
deriving DecidableEq, Repr

/-! ### The state of a context at its creation (R20) -/

def CFile.zero : CFile :=
  { p := Vector.replicate 8 ⟨false, 0⟩, l := Vector.replicate 4 ⟨0, 0⟩, g := Vector.replicate 8 ⟨0, 0⟩, done := 0,
    latch := ⟨0, 0⟩, rstk := Vector.replicate 16 0, depth := 0 }

def AFile.zero : AFile :=
  { a := Vector.replicate 28 ⟨0, 0, true⟩, s := Vector.replicate 4 ⟨0, 0⟩,
    c := Vector.replicate 16 ⟨CapV.null, 0, true⟩, xh := Vector.replicate 8 ⟨0, 0, true⟩, latch := ⟨CapV.null, 0⟩ }

def IFile.zero : IFile :=
  { i := Vector.replicate 28 ⟨0, 0, true⟩, s := Vector.replicate 4 ⟨0, 0⟩, latch := ⟨0, 0⟩ }

def VFile.zero : VFile :=
  { v := Vector.replicate 28 ⟨0, 0, true⟩, s := Vector.replicate 4 ⟨0, 0⟩, m := Vector.replicate 8 ⟨0, 0⟩,
    w := Vector.replicate 4 ⟨0, 0⟩, latch := ⟨0, 0⟩ }

def MFile.zero : MFile :=
  { sd := Vector.replicate 8 ⟨0, 0⟩, gp := Vector.replicate 4 ⟨0, 0⟩, latch := ⟨0, 0⟩ }

def JobCard.zero : JobCard :=
  { src := CapV.null, dst := CapV.null, w4 := 0, w5 := 0, w6 := 0, w7 := 0 }

def KFile.zero : KFile :=
  { kc := Vector.replicate 16 ⟨CapV.null, 0⟩, kx := Vector.replicate 28 ⟨0, 0⟩,
    kj := Vector.replicate 8 ⟨JobCard.zero, 0⟩, latch := ⟨CapV.null, 0⟩ }

def SFile.zero : SFile :=
  { f := Vector.replicate 16 ⟨0, 0⟩, q := Vector.replicate 16 ⟨0, 0⟩, latch := ⟨0, 0⟩ }

def Kitty.zero : Kitty := { base := 0, cap := 0, head := 0, count := 0, taint := 0 }

def CtxMem.zero : CtxMem :=
  { ids := Vector.replicate 16 ⟨false, 0⟩, floor := 0, aseq := 0, lqA := [], lqI := [], lqVA := [], lqVB := [], sqA := [],
    sqI := [], sqVA := [], sqVB := [], outs := [], slog := [], pins := Vector.replicate 8 none, xlats := [],
    pend := [], mq := [] }

def CtxStat.zero : CtxStat :=
  { rm := 0, fflags := 0, loose := [], bundles := 0, bubbles := 0, melddeny := 0, dfault := 0, hintdrop := 0,
    kitty := Vector.replicate 4 Kitty.zero, step := 0, stepValid := false, frec := 0, jstat := Vector.replicate 60 0,
    hibs := 0, sheds := 0, passes := 0, passFlags := 0, hang := 0, dump := false }

def Bun.zero : Bun :=
  { trap := none, path := 0, rm := 0, next := none, decided := false, post := none, seqNext := 0, hand := false,
    late := false }

/-- The next bundle waits for nothing. -/
def CtxWait.clear : CtxWait := { yield := 0, bar := none, crev := none }

/-- A context as it is created at a place (R20, R284): every register zero, tags clear, entries full. -/
def Ctx.create (p : Place) : Ctx :=
  { c := CFile.zero, a := AFile.zero, i := IFile.zero, va := VFile.zero, vb := VFile.zero, m := MFile.zero,
    k := KFile.zero, s := SFile.zero, due := [], mem := CtxMem.zero, st := CtxStat.zero, pc := 0, path := 0,
    savedPath := 0, handler := false, bun := Bun.zero, ports := [], wait := .clear, phase := .running, place := p,
    bubblesLeft := 0, saved := none }

def Place.zero : Place :=
  { cluster := 0, core := 0, slot := 0, prim := true, launch := 0, asid := 0, contSlot := 0, link := 0xFFFF,
    poolsz := 0, clord := 0, zown := 0, gLo := 0, gHi := 0, gLost := 0, l1 := 0, own := 0, sbanks := 0, sl1max := 0,
    image := 0, segMap := 0, segBase := 0, segBlocks := 0, segKey := 0, handler := none, frame := CapV.null }

/-- An empty slot. -/
def Ctx.vacant (cluster core slot : Nat) : Ctx :=
  { Ctx.create { Place.zero with cluster := cluster, core := core, slot := slot } with phase := .vacant }

/-! ### Reset -/

def Tile.zero : Tile := { val := 0, full := true, taint := 0, asid := none }

/-- A core at reset: its array, tiles and grist all zero (no ASID has used them), the governor idle (R31).
(DEDUCED, log 11.) -/
def Core.blank (cluster num : Nat) : Core :=
  { cluster := cluster, num := num, la := [], laTags := [], bankAsid := Vector.replicate 16 none,
    tiles := Vector.replicate 32 Tile.zero, grist := [], gristAsid := Vector.replicate 64 none, istore := [], l1 := [],
    cards := [], cap := 16, mLast := 0, cyc := { primIssued := false, bubble := false, units := [], reads := 0 } }

def Barrier.zero : Barrier := { k := 0, arrivals := 0, gen := 0 }

/-- A cluster at reset: the physical function's, healthy, all 16 slots enabled (R318, R319).
(DESIGN CHOICE, log 17.) -/
def Cluster.blank (num : Nat) : Cluster :=
  { num := num, part := 0, world := false, healthy := true, shed := false, clock := 0, wraps := 0, lines := [],
    table := none, pattern := 0xFFFF, cycles := 0 }

/-- A command stream at reset (R301). -/
def Stream.blank (n : Nat) : Stream :=
  { num := n, base := 0, enable := false, size := 0, level := 0, weight := 1, tail := 0, head := 0, cqbase := 0,
    cqtail := 0, state := 0, credit := 0, waiting := false,
    begun := none, restored := false, owed := [] }

/-- A partition at reset: its TDI in CONFIG_UNLOCKED, a retry window of 60 s (R348, R353, R360). -/
def Part.blank (n : Nat) : Part :=
  { num := n, tdi := .unlocked, asids := [], mgen := 0, keys := Vector.replicate 4 0, wrapKey := 0, retry := 60,
    refusals := 0, session := false, sess := 0, keyEx := false, ide := false, attested := false, migSess := 0, tokSeq := 0, tokSeen := 0, held := none, migr := none, lost := false,
    lates := [] }

def Link.blank (n : Nat) : Link := { num := n, up := false, lost := [], seq := 0, replays := 0 }

def Region.blank (n : Nat) : Region := { num := n, d := 0, slots := 16, since := 0, lost := 0, shed := false, off := false, sampled := 0 }

def GroupEntry.zero : GroupEntry :=
  { valid := false, gid := 0, g := 0, rank := 0, asid := 0, key := 0, waitlim := 0, members := [] }

def Token.zero : Token := { item := 0, part := 0, mgen := 0, seq := 0, vhash := 0, mac := 0 }

/-- The management registers at reset, with the defaults of R385, R409, R415. (DESIGN CHOICE, log 18.) -/
def Mgmt.reset : Mgmt :=
  { replace := false, phlost := 0, hbmless := 0, ejdrop := 0, update := false, cutCause := 0, cutStack := 0,
    dleak := 1, dthr := 2 ^ 24, dstep := 2 ^ 20, pcap := 16, vbrown := 470, vret := 480,
    shedOrder := [7, 6, 5, 4, 3, 2, 1], eseal := 60, erestart := 1200, wacc := 0, wlink := 0, fmin := 0, pfull := 0,
    scrubt := 24, fwSlot := false, fwHash := 0, fwOther := 0, fwGiven := (0, 0, 0), fwVersion := 0, fwNew := none, tokCode := 0, tokCount := 0, tokStage := Token.zero,
    staged := [] }

/-- The supply at reset: on, never hibernated. (DESIGN CHOICE, log 20.) -/
def Power.reset : Power :=
  { phase := .on, brown := false, shed := [], shedding := none, returning := false, raised := 0, reason := 0,
    reserve := 0, rackFirst := [], counter := 0, slotA := none, slotB := none, cut := false, pending := [], seqs := [], failed := [],
    upAt := 0 }

/-- The machine right after reset: no context, no buffer, no launch, every stream disabled, memory with nothing
listed. (DESIGN CHOICE, log 1.) (DESIGN CHOICE, log 19.) -/
def State.reset : State :=
  { ctx := Ctx.vacant 0 0 0, others := [], core := Core.blank 0 0, cores := [], clus := Cluster.blank 0, clusters := [],
    mem := [], memTags := [], tagSum := [], exts := [], zeroing := [], spaces := [], poison := [], l2 := [], msc := [], launches := [], streams := [],
    graphs := [], verified := [], hostMem := [], parts := [], keys := [], hdm := [], deferred := [], deal := [], groups := [], coll := [],
    links := [], module := 0, dsize := 1, pausedBy := [], away := [], pausedTo := [], heldHost := [],
    power := Power.reset, regions := [], refreshed := [], patrol := [],
    journal := { entries := [], openEntry := none, first := 0, next := 0, hash := none, heads := [], prior := [] }, ljournal := [], scrubs := [],
    corrections := [], retired := [], mgmt := Mgmt.reset,
    sweep := { active := false, sgen := [], seq := 0, paused := [] }, notices := [], code := .vpm9mh, outbox := [], agenda := [],
    acted := false, cycle := 0, draws := 0, nextId := 1 }

end Sys2Proof.Machine
end

