-- ==== Sys2Proof/Machine/Regs.lean ====
section
/-! DEFINITION. Registers of a context: access, latches, taint sets, full/empty state, and results becoming visible
(R20 to R30). Every read and write of a register goes through these operations. -/

namespace Sys2Proof.Machine

open Sys2Proof

/-! ### Entries of a file -/

/-- Entry `i` of a file, `d` outside it. -/
def vget {α : Type} {n : Nat} (v : Vector α n) (i : Nat) (d : α) : α := v[i]?.getD d

/-- A file with entry `i` replaced; unchanged when `i` lies outside it. -/
def vset {α : Type} {n : Nat} (v : Vector α n) (i : Nat) (x : α) : Vector α n := v.setIfInBounds i x

/-- A file with entry `i` changed by `f`. -/
def vmod {α : Type} {n : Nat} (v : Vector α n) (i : Nat) (f : α → α) : Vector α n :=
  match v[i]? with
  | some x => v.setIfInBounds i (f x)
  | none => v

/-- A function applied to every entry of a file. -/
def vmap {α β : Type} {n : Nat} (f : α → β) (v : Vector α n) : Vector β n :=
  ⟨(v.toList.map f).toArray, by simp⟩

/-- The empty entry values of the files. -/
def tv0 : TV W64 := ⟨0, 0⟩
def fe0 : FE W64 := ⟨0, 0, true⟩

/-- The files of a vector unit. -/
def Ctx.vf (c : Ctx) : VUnit → VFile
  | .va => c.va
  | .vb => c.vb

def Ctx.setVf (c : Ctx) (u : VUnit) (f : VFile) : Ctx :=
  match u with
  | .va => { c with va := f }
  | .vb => { c with vb := f }

/-- Whether a register is full; files without full/empty state are always full (R20). -/
def Ctx.isFull (c : Ctx) : RegRef → Bool
  | .g _ => true
  | .a n => (vget c.a.a n.toNat fe0).full
  | .c n => (vget c.a.c n.toNat ⟨CapV.null, 0, true⟩).full
  | .xh n => (vget c.a.xh n.toNat fe0).full
  | .i n => (vget c.i.i n.toNat fe0).full
  | .v u n => (vget (c.vf u).v n.toNat ⟨0, 0, true⟩).full
  | .kc _ => true
  | .kx _ => true
  | .sreg _ => true

/-- Mark a register empty (R24). -/
def Ctx.setEmpty (c : Ctx) : RegRef → Ctx
  | .g _ => c
  | .a n => { c with a := { c.a with a := vmod c.a.a n.toNat (fun e => { e with full := false }) } }
  | .c n => { c with a := { c.a with c := vmod c.a.c n.toNat (fun e => { e with full := false }) } }
  | .xh n => { c with a := { c.a with xh := vmod c.a.xh n.toNat (fun e => { e with full := false }) } }
  | .i n => { c with i := { c.i with i := vmod c.i.i n.toNat (fun e => { e with full := false }) } }
  | .v u n => c.setVf u { c.vf u with v := vmod (c.vf u).v n.toNat (fun e => { e with full := false }) }
  | .kc _ => c
  | .kx _ => c
  | .sreg _ => c

/-- The main-file register a result goes to, where it has full/empty state (R22, R24). -/
def RegWrite.ref : RegWrite → Option RegRef
  | .pred _ _ => none
  | .loop _ _ _ => none
  | .gen _ _ => none
  | .addr n _ => if n.toNat < 28 then some (.a n) else none
  | .cap n _ => some (.c (n.setWidth 5))
  | .handle n _ => some (.xh (n.setWidth 5))
  | .int n _ => if n.toNat < 28 then some (.i n) else none
  | .vec u n _ => if n.toNat < 28 then some (.v u n) else none
  | .mask _ _ _ => none
  | .wsum _ _ _ => none
  | .wsinc _ _ _ _ _ => none
  | .sd _ _ => none
  | .gp _ _ => none
  | .kc _ _ => none
  | .kx _ _ => none
  | .kjWord _ _ _ => none
  | .kjSlot _ _ _ => none
  | .fmt _ _ => none
  | .scale _ _ => none

/-! ### Latches (R23, R92, R130, R183) -/

/-- A 64-bit value in a latch of 128 bits and tag: zero-extended, tag clear (R210). -/
def capOfW64 (v : W64) : CapV := ⟨v.setWidth 128, false⟩

def Ctx.latchC (c : Ctx) (v : W64) (t : Taint) : Ctx := { c with c := { c.c with latch := ⟨v, t⟩ } }
def Ctx.latchA (c : Ctx) (v : CapV) (t : Taint) : Ctx := { c with a := { c.a with latch := ⟨v, t⟩ } }
def Ctx.latchI (c : Ctx) (v : W64) (t : Taint) : Ctx := { c with i := { c.i with latch := ⟨v, t⟩ } }
def Ctx.latchV (c : Ctx) (u : VUnit) (v : V2048) (t : Taint) : Ctx := c.setVf u { c.vf u with latch := ⟨v, t⟩ }
def Ctx.latchM (c : Ctx) (v : W64) (t : Taint) : Ctx := { c with m := { c.m with latch := ⟨v, t⟩ } }
def Ctx.latchK (c : Ctx) (v : CapV) (t : Taint) : Ctx := { c with k := { c.k with latch := ⟨v, t⟩ } }
def Ctx.latchS (c : Ctx) (v : W64) (t : Taint) : Ctx := { c with s := { c.s with latch := ⟨v, t⟩ } }

/-- A wide sum with an increment added (R55, R150): a WS32 form writes bits 2303:384 as zero. -/
def wsLand (ws64 : Bool) (old : WSum) (inc : Int) (st : BitVec 8) : WSum :=
  BitVec.ofNat 2304 (wsAddInc ws64 old.toNat inc st.toNat)

/-- A result written into its register, its latch left alone: the value and taint set of R26, the register full.
(DEDUCED, log 71.) -/
def Ctx.putReg (c : Ctx) (w : RegWrite) (t : Taint) : Ctx :=
  match w with
  | .pred n v => if n = 0 then c else { c with c := { c.c with p := vset c.c.p n.toNat ⟨v, t⟩ } }
  | .loop n v _ => { c with c := { c.c with l := vset c.c.l n.toNat ⟨v, t⟩ } }
  | .gen n v => { c with c := { c.c with g := vset c.c.g n.toNat ⟨v, t⟩ } }
  | .addr n v =>
    if n.toNat < 28 then { c with a := { c.a with a := vset c.a.a n.toNat ⟨v, t, true⟩ } }
    else { c with a := { c.a with s := vset c.a.s (n.toNat - 28) ⟨v, t⟩ } }
  | .cap n v => { c with a := { c.a with c := vset c.a.c n.toNat ⟨v, t, true⟩ } }
  | .handle n v => { c with a := { c.a with xh := vset c.a.xh n.toNat ⟨v, t, true⟩ } }
  | .int n v =>
    if n.toNat < 28 then { c with i := { c.i with i := vset c.i.i n.toNat ⟨v, t, true⟩ } }
    else { c with i := { c.i with s := vset c.i.s (n.toNat - 28) ⟨v, t⟩ } }
  | .vec u n v =>
    if n.toNat < 28 then c.setVf u { c.vf u with v := vset (c.vf u).v n.toNat ⟨v, t, true⟩ }
    else c.setVf u { c.vf u with s := vset (c.vf u).s (n.toNat - 28) ⟨v, t⟩ }
  | .mask u n v => c.setVf u { c.vf u with m := vset (c.vf u).m n.toNat ⟨v, t⟩ }
  | .wsum u n v => c.setVf u { c.vf u with w := vset (c.vf u).w n.toNat ⟨v, t⟩ }
  | .wsinc u n ws64 inc st =>
    c.setVf u { c.vf u with w := vmod (c.vf u).w n.toNat (fun e => ⟨wsLand ws64 e.val inc st, e.taint ||| t⟩) }
  | .sd n v => { c with m := { c.m with sd := vset c.m.sd n.toNat ⟨v, t⟩ } }
  | .gp n v => { c with m := { c.m with gp := vset c.m.gp n.toNat ⟨v, t⟩ } }
  | .kc n v => { c with k := { c.k with kc := vset c.k.kc n.toNat ⟨v, t⟩ } }
  | .kx n v => { c with k := { c.k with kx := vset c.k.kx n.toNat ⟨v, t⟩ } }
  | .kjWord n k v =>
    { c with k := { c.k with kj := vmod c.k.kj n.toNat (fun e =>
      ⟨match k.toNat with
        | 0 => { e.val with w4 := v }
        | 1 => { e.val with w5 := v }
        | 2 => { e.val with w6 := v }
        | _ => { e.val with w7 := v }, e.taint ||| t⟩) } }
  | .kjSlot n dst v =>
    { c with k := { c.k with kj := vmod c.k.kj n.toNat (fun e =>
      ⟨if dst then { e.val with dst := v } else { e.val with src := v }, e.taint ||| t⟩) } }
  | .fmt n v => { c with s := { c.s with f := vset c.s.f n.toNat ⟨v, t⟩ } }
  | .scale n v => { c with s := { c.s with q := vset c.s.q n.toNat ⟨v, t⟩ } }

/-- The latch of the unit whose file an exposed result was written into takes that result (R23, R92, R130). -/
def Ctx.putLatch (c : Ctx) (w : RegWrite) (t : Taint) : Ctx :=
  match w with
  | .pred n v => if n = 0 then c else c.latchC (if v then 1 else 0) t
  | .loop _ v lt => if lt then c.latchC (v.setWidth 64) t else c
  | .gen _ v => c.latchC v t
  | .addr _ v => c.latchA (capOfW64 v) t
  | .cap _ v => c.latchA v t
  | .handle _ _ => c
  | .int _ v => c.latchI v t
  | .vec u _ v => c.latchV u v t
  | .mask u _ v => c.latchV u (v.setWidth 2048) t
  | .wsum u _ v => c.latchV u (v.setWidth 2048) t
  | .wsinc u n _ _ _ =>
    let e := vget (c.vf u).w n.toNat ⟨0, 0⟩
    c.latchV u (e.val.setWidth 2048) e.taint
  | .sd _ v => c.latchM (v.setWidth 64) t
  | .gp _ v => c.latchM (v.setWidth 64) t
  | .kc _ v => c.latchK v t
  | .kx _ v => c.latchK (capOfW64 v) t
  | .kjWord _ _ v => c.latchK (capOfW64 v) t
  | .kjSlot _ _ v => c.latchK v t
  | .fmt _ v => c.latchS (v.setWidth 64) t
  | .scale _ v => c.latchS (v.setWidth 64) t

/-! ### The due queue (R27 to R29) -/

/-- Flags ORed into sy.fflags (R42). -/
def Ctx.raiseFlags (c : Ctx) (f : BitVec 5) : Ctx := { c with st := { c.st with fflags := c.st.fflags ||| f } }

/-- One due-queue entry becoming visible: every result into its register, the first one into the latch (R23, R28), the
flags into sy.fflags. Where a full/empty issue has cancelled the header of a `ktake` (R25), the first of its remaining
results goes into the latch. (DESIGN CHOICE, log 90.) -/
def Ctx.landEntry (c : Ctx) (e : DueEntry) : Ctx :=
  let c1 := e.writes.foldl (fun c w => c.putReg w e.taint) c
  let c2 := match e.writes with
    | [] => c1
    | w :: _ => c1.putLatch w e.taint
  c2.raiseFlags e.flags

/-- Every expired entry (remaining count 0) becomes visible, in issue order; the others stay (R27, R28). -/
def Ctx.landExpired (c : Ctx) : Ctx :=
  let c1 := (c.due.filter (fun e => e.rem == 0)).foldl Ctx.landEntry c
  { c1 with due := c.due.filter (fun e => e.rem != 0) }

/-- The entries of one mode count one issued bundle (R27, R29). -/
def Ctx.ageDue (c : Ctx) (hand : Bool) : Ctx :=
  { c with due := c.due.map (fun e => if e.hand == hand then { e with rem := e.rem - 1 } else e) }

/-- Every entry of the handler's becomes visible at once (R29). -/
def Ctx.landHandler (c : Ctx) : Ctx :=
  let c1 := (c.due.filter (fun e => e.hand)).foldl Ctx.landEntry c
  { c1 with due := c.due.filter (fun e => !e.hand) }

/-- Place an exposed result of latency `lat` in the due queue (R27). -/
def Ctx.putDue (c : Ctx) (lat : Nat) (ws : List RegWrite) (t : Taint) (fl : BitVec 5) : Ctx :=
  { c with due := c.due ++ [⟨lat, c.bun.hand, ws, t, fl⟩] }

/-- An exposed result without flags. -/
def Ctx.put (c : Ctx) (lat : Nat) (w : RegWrite) (t : Taint) : Ctx := c.putDue lat [w] t 0

/-- Cancel pending exposed results for a register (R25), those of the bundle's own mode: a handler leaves the held ones
(R29). An exposed result that a higher unit's word of the same bundle makes for the register stays: the later arrival
overwrites it. (DESIGN CHOICE, log 89.) -/
def Ctx.cancelDue (c : Ctx) (r : RegRef) : Ctx :=
  { c with due := (c.due.map (fun e =>
      if e.hand == c.bun.hand && e.writes.any (fun w => w.ref == some r) then { e with writes := e.writes.filter (fun w => w.ref != some r) }
      else e)).filter (fun e => !e.writes.isEmpty) }

/-- A full/empty result: its register becomes empty, a pending exposed result for it is cancelled, and the result is on
its way (R24, R25). -/
def Ctx.putFE (c : Ctx) (w : RegWrite) (t : Taint) (fl : BitVec 5) : Ctx :=
  match w.ref with
  | none => c
  | some r =>
    let c1 := (c.cancelDue r).setEmpty r
    { c1 with mem := { c1.mem with pend := c1.mem.pend ++ [⟨w, t, fl⟩] } }

/-- Pending result `k` arrives: its register becomes full, its flags wait for a read of it, no latch changes
(R23, R24, R42). -/
def Ctx.arrive (c : Ctx) (k : Nat) : Ctx :=
  match c.mem.pend[k]? with
  | none => c
  | some p =>
    let c1 := { c with mem := { c.mem with pend := c.mem.pend.eraseIdx k } }
    let c2 := c1.putReg p.write p.taint
    match p.write.ref with
    | some r => if p.flags = 0 then c2 else { c2 with st := { c2.st with loose := c2.st.loose ++ [(r, p.flags)] } }
    | none => c2

/-- The flags of full/empty results whose register a level-00 read names join sy.fflags (R42). -/
def Ctx.takeLoose (c : Ctx) (refs : List RegRef) : Ctx :=
  let fl := (c.st.loose.filter (fun e => refs.contains e.1)).foldl (fun f e => f ||| e.2) 0
  { c with st := { c.st with fflags := c.st.fflags ||| fl, loose := c.st.loose.filter (fun e => !refs.contains e.1) } }

/-- Every flag of an arrived full/empty result joins sy.fflags (R42). -/
def Ctx.takeAllLoose (c : Ctx) : Ctx := c.takeLoose (c.st.loose.map (fun e => e.1))

/-! ### Taint sets (R26) -/

/-- A taint set without bit `k`. -/
def dropBit (k : Nat) (t : Taint) : Taint := t &&& ~~~(BitVec.ofNat 16 (2 ^ k))

/-- The taint set of one load id. -/
def idBit (k : Nat) : Taint := BitVec.ofNat 16 (2 ^ k)

def TV.mapT {α : Type} (f : Taint → Taint) (e : TV α) : TV α := { e with taint := f e.taint }
def FE.mapT {α : Type} (f : Taint → Taint) (e : FE α) : FE α := { e with taint := f e.taint }

def VFile.mapT (f : Taint → Taint) (x : VFile) : VFile :=
  { v := vmap (FE.mapT f) x.v, s := vmap (TV.mapT f) x.s, m := vmap (TV.mapT f) x.m, w := vmap (TV.mapT f) x.w,
    latch := x.latch.mapT f }

/-- The translates that satisfy a test fill their handles (R242). -/
def Ctx.fillXlats (c : Ctx) (p : XlatWait → Bool) : Ctx :=
  let c1 := (c.mem.xlats.filter p).foldl (fun (x : Ctx) (w : XlatWait) => x.putReg (.handle w.handle w.value) w.taint) c
  { c1 with mem := { c1.mem with xlats := c.mem.xlats.filter (fun w => !p w) } }

/-- A function of every taint set of the context: registers, latches, small files, queue entries, due-queue entries,
pending results, kitties and the path taint. -/
def Ctx.mapTaints (c : Ctx) (f : Taint → Taint) : Ctx :=
  { c with
    c := { c.c with p := vmap (TV.mapT f) c.c.p, l := vmap (TV.mapT f) c.c.l, g := vmap (TV.mapT f) c.c.g,
                    latch := c.c.latch.mapT f }
    a := { a := vmap (FE.mapT f) c.a.a, s := vmap (TV.mapT f) c.a.s, c := vmap (FE.mapT f) c.a.c,
           xh := vmap (FE.mapT f) c.a.xh, latch := c.a.latch.mapT f }
    i := { i := vmap (FE.mapT f) c.i.i, s := vmap (TV.mapT f) c.i.s, latch := c.i.latch.mapT f }
    va := c.va.mapT f
    vb := c.vb.mapT f
    m := { sd := vmap (TV.mapT f) c.m.sd, gp := vmap (TV.mapT f) c.m.gp, latch := c.m.latch.mapT f }
    k := { kc := vmap (TV.mapT f) c.k.kc, kx := vmap (TV.mapT f) c.k.kx, kj := vmap (TV.mapT f) c.k.kj,
           latch := c.k.latch.mapT f }
    s := { f := vmap (TV.mapT f) c.s.f, q := vmap (TV.mapT f) c.s.q, latch := c.s.latch.mapT f }
    due := c.due.map (fun e => { e with taint := f e.taint })
    mem := { c.mem with
      lqA := c.mem.lqA.map (fun e => { e with taint := f e.taint })
      lqI := c.mem.lqI.map (fun e => { e with taint := f e.taint })
      lqVA := c.mem.lqVA.map (fun e => { e with taint := f e.taint })
      lqVB := c.mem.lqVB.map (fun e => { e with taint := f e.taint })
      sqA := c.mem.sqA.map (fun e => { e with taint := f e.taint })
      sqI := c.mem.sqI.map (fun e => { e with taint := f e.taint })
      sqVA := c.mem.sqVA.map (fun e => { e with taint := f e.taint })
      sqVB := c.mem.sqVB.map (fun e => { e with taint := f e.taint })
      pend := c.mem.pend.map (fun e => { e with taint := f e.taint })
      xlats := c.mem.xlats.map (fun e => { e with taint := f e.taint }) }
    st := { c.st with kitty := vmap (fun k : Kitty => { k with taint := f k.taint }) c.st.kitty }
    path := f c.path
    savedPath := f c.savedPath
    bun := { c.bun with path := f c.bun.path } }

/-- The taint set that an M operation will give its tile, changed by `f`. -/
def MOp.mapT (f : Taint → Taint) : MOp → MOp
  | .pass z k n cp o d g fa fb qa qb t => .pass z k n cp o d g fa fb qa qb (f t)
  | .zero z p => .zero z p
  | .read z p b st db => .read z p b st db
  | .write z fm b st db t => .write z fm b st db (f t)
  | .stat b db => .stat b db

/-- The taint set that an M operation will give its tile. -/
def MOp.taint : MOp → Taint
  | .pass _ _ _ _ _ _ _ _ _ _ _ t => t
  | .write _ _ _ _ _ t => t
  | .zero _ _ => 0
  | .read _ _ _ _ _ => 0
  | .stat _ _ => 0

/-- The flash clear of one load id's bit (R26), in the accesses and M operations under way as well. -/
def Ctx.clearId (c : Ctx) (k : Nat) : Ctx :=
  let c1 := c.mapTaints (dropBit k)
  let f := fun x : Access => { x with addrTaint := dropBit k x.addrTaint, dataTaint := dropBit k x.dataTaint }
  { c1 with mem := { c1.mem with
      outs := c1.mem.outs.map f
      slog := c1.mem.slog.map f
      mq := c1.mem.mq.map (fun e => { e with taint := dropBit k e.taint, op := e.op.mapT (dropBit k) }) } }

def orT (l : List Taint) : Taint := l.foldl (· ||| ·) 0

def VFile.taints (x : VFile) : Taint :=
  orT (x.v.toList.map (·.taint)) ||| orT (x.s.toList.map (·.taint)) ||| orT (x.m.toList.map (·.taint)) |||
    orT (x.w.toList.map (·.taint)) ||| x.latch.taint

/-- The union of every taint set of the context (R264), those of its accesses and M operations under way included. -/
def Ctx.allTaints (c : Ctx) : Taint :=
  orT (c.c.p.toList.map (·.taint)) ||| orT (c.c.l.toList.map (·.taint)) ||| orT (c.c.g.toList.map (·.taint)) |||
  c.c.latch.taint ||| orT (c.a.a.toList.map (·.taint)) ||| orT (c.a.s.toList.map (·.taint)) |||
  orT (c.a.c.toList.map (·.taint)) ||| orT (c.a.xh.toList.map (·.taint)) ||| c.a.latch.taint |||
  orT (c.i.i.toList.map (·.taint)) ||| orT (c.i.s.toList.map (·.taint)) ||| c.i.latch.taint |||
  c.va.taints ||| c.vb.taints ||| orT (c.m.sd.toList.map (·.taint)) ||| orT (c.m.gp.toList.map (·.taint)) |||
  c.m.latch.taint ||| orT (c.k.kc.toList.map (·.taint)) ||| orT (c.k.kx.toList.map (·.taint)) |||
  orT (c.k.kj.toList.map (·.taint)) ||| c.k.latch.taint ||| orT (c.s.f.toList.map (·.taint)) |||
  orT (c.s.q.toList.map (·.taint)) ||| c.s.latch.taint ||| orT (c.due.map (·.taint)) |||
  orT (c.mem.lqA.map (·.taint)) ||| orT (c.mem.lqI.map (·.taint)) ||| orT (c.mem.lqVA.map (·.taint)) |||
  orT (c.mem.lqVB.map (·.taint)) ||| orT (c.mem.sqA.map (·.taint)) ||| orT (c.mem.sqI.map (·.taint)) |||
  orT (c.mem.sqVA.map (·.taint)) ||| orT (c.mem.sqVB.map (·.taint)) ||| orT (c.mem.pend.map (·.taint)) |||
  orT (c.mem.xlats.map (·.taint)) ||| orT (c.st.kitty.toList.map (·.taint)) ||| c.path ||| c.savedPath |||
  orT ((c.mem.outs ++ c.mem.slog).map (fun x => x.addrTaint ||| x.dataTaint)) |||
  orT (c.mem.mq.map (fun e => e.taint ||| e.op.taint))

end Sys2Proof.Machine
end

