-- ==== Sys2Proof/Machine/Mem.lean ====
section
/-! DEFINITION. Memory as sparse cells in one canonical form, tag bits, and capabilities with their checks
(R192 to R209, R237, R259). -/

namespace Sys2Proof.Machine

open Sys2Proof

/-! ### Sparse bytes: what is not listed reads as zero (R237, R221) -/

/-- The byte at an address. (DESIGN CHOICE, log 10.) -/
def Memory.get : List Host.Cell → Nat → Byte
  | [], _ => 0
  | (a, b) :: r, k => if k = a then b else if k < a then 0 else Memory.get r k

/-- Write one byte, keeping the addresses rising and listing no zero. -/
def Memory.set : List Host.Cell → Nat → Byte → List Host.Cell
  | [], k, v => if v = 0 then [] else [(k, v)]
  | (a, b) :: r, k, v =>
    if k < a then (if v = 0 then (a, b) :: r else (k, v) :: (a, b) :: r)
    else if k = a then (if v = 0 then r else (k, v) :: r)
    else (a, b) :: Memory.set r k v

/-- The canonical form: addresses strictly rising from `lo`, no listed zero. -/
def Memory.wfFrom : Nat → List Host.Cell → Bool
  | _, [] => true
  | lo, (a, b) :: r => decide (lo ≤ a) && b != 0 && Memory.wfFrom (a + 1) r

def Memory.wf (m : List Host.Cell) : Bool := Memory.wfFrom 0 m

/-- `n` bytes from address `a`. -/
def Memory.read (m : List Host.Cell) (a : Nat) : Nat → List Byte
  | 0 => []
  | n + 1 => Memory.get m a :: Memory.read m (a + 1) n

/-- Write a list of bytes from address `a`. -/
def Memory.write (m : List Host.Cell) (a : Nat) : List Byte → List Host.Cell
  | [] => m
  | b :: bs => Memory.write (Memory.set m a b) (a + 1) bs

/-- Sets of numbers as rising lists: insert, remove. -/
def NatSet.insert : List Nat → Nat → List Nat
  | [], k => [k]
  | a :: r, k => if k < a then k :: a :: r else if k = a then a :: r else a :: NatSet.insert r k

def NatSet.remove (l : List Nat) (k : Nat) : List Nat := l.filter (fun a => a != k)

/-- Strictly rising from `lo`. -/
def NatSet.wfFrom : Nat → List Nat → Bool
  | _, [] => true
  | lo, a :: r => decide (lo ≤ a) && NatSet.wfFrom (a + 1) r

/-- The granules that a write of `n` bytes at `a` overlaps lose their tags (R197). -/
def clearTags (tags : List Nat) (a n : Nat) : List Nat :=
  tags.filter (fun g => !(decide (a < 16 * (g + 1)) && decide (16 * g < a + n)))

/-- Set or clear the tag of granule `g`. -/
def putTag (tags : List Nat) (g : Nat) (t : Bool) : List Nat :=
  if t then NatSet.insert tags g else NatSet.remove tags g

/-- The key of byte `a` of the buffer whose extent map stands at `map` (R207, R237). (DEDUCED, log 9.) -/
def memKey (map a : Nat) : Nat := map * 2 ^ 40 + a % 2 ^ 40

/-- The size of an extent, of a line and of a sector (R4, R207). -/
def extentBytes : Nat := 3145728
def lineBytes : Nat := 192
def sectorBytes : Nat := 48

/-! ### Capability fields (R192 to R194) -/

def CapV.cursor (c : CapV) : Nat := natField c.bits.toNat 0 40
def CapV.hi (c : CapV) : Nat := natField c.bits.toNat 50 20
def CapV.lo (c : CapV) : Nat := natField c.bits.toNat 70 20
def CapV.ex (c : CapV) : Nat := natField c.bits.toNat 90 6
def CapV.perms (c : CapV) : Nat := natField c.bits.toNat 96 8
def CapV.gen (c : CapV) : Nat := natField c.bits.toNat 104 12
def CapV.index (c : CapV) : Nat := natField c.bits.toNat 116 12
def CapV.base (c : CapV) : Nat := c.lo * 2 ^ c.ex
def CapV.top (c : CapV) : Nat := c.hi * 2 ^ c.ex

/-- Bits 49:40 zero, E at most 21, LO at most HI, top at most 2^40 (R193). -/
def CapV.wellFormed (c : CapV) : Bool :=
  natField c.bits.toNat 40 10 == 0 && c.ex <= 21 && c.lo <= c.hi && c.top <= 2 ^ 40

/-- Replace one field of a capability. -/
def CapV.withField (c : CapV) (lo len v : Nat) : CapV :=
  { c with bits := BitVec.ofNat 128 (natSetField c.bits.toNat lo len v) }

def CapV.withCursor (c : CapV) (v : Nat) : CapV := c.withField 0 40 v
def CapV.withPerms (c : CapV) (v : Nat) : CapV := c.withField 96 8 v
def CapV.withGen (c : CapV) (v : Nat) : CapV := c.withField 104 12 v
def CapV.withBounds (c : CapV) (e lo hi : Nat) : CapV :=
  ((c.withField 50 20 hi).withField 70 20 lo).withField 90 6 e

/-- A capability from its fields. (DEDUCED, log 45.) -/
def mkCap (index gen perms e lo hi cursor : Nat) (tag : Bool) : CapV :=
  ⟨BitVec.ofNat 128 (cursor % 2 ^ 40 + hi % 2 ^ 20 * 2 ^ 50 + lo % 2 ^ 20 * 2 ^ 70 + e % 64 * 2 ^ 90 +
    perms % 256 * 2 ^ 96 + gen % 4096 * 2 ^ 104 + index % 4096 * 2 ^ 116), tag⟩

/-- Permission bits (R194). -/
def pR : Nat := 1
def pW : Nat := 2
def pX : Nat := 4
def pLC : Nat := 8
def pSC : Nat := 16
def pSL : Nat := 32
def pAT : Nat := 64
def pRV : Nat := 128

/-- The least exponent from `e` on that satisfies `p`, tried `fuel` times. -/
def leastExp (p : Nat → Bool) : Nat → Nat → Nat
  | 0, e => e
  | fuel + 1, e => if p e then e else leastExp p fuel (e + 1)

/-- The exponent of exactly representable bounds ending at `t` (R209). -/
def expExact (t : Nat) : Nat := leastExp (fun e => ceilDiv t (2 ^ e) ≤ 2 ^ 20 - 1) 22 0
/-- The exponent used to round bounds ending at `t` inward (R209). -/
def expRound (t : Nat) : Nat := leastExp (fun e => t / 2 ^ e ≤ 2 ^ 20 - 1) 22 0

/-- Whether bounds are exactly representable (R209). -/
def exactBounds (b t : Nat) : Bool := b % 2 ^ expExact t == 0 && t % 2 ^ expExact t == 0

/-- Inward rounded bounds as E, LO, HI (R209). -/
def roundBounds (b t : Nat) : Nat × Nat × Nat :=
  let e := expRound t
  let lo := ceilDiv b (2 ^ e)
  (e, lo, max lo (t / 2 ^ e))

/-- A tagged capability over [b, t) rounded inward, for the launch (R315). -/
def launchCap (index gen perms b t cursor : Nat) : CapV :=
  let (e, lo, hi) := roundBounds b t
  mkCap index gen perms e lo hi cursor true

/-- Whether the tag of a loaded granule stays: not from a shared buffer, and well formed bits (R203, R230). -/
def loadTag (shared : Bool) (c : CapV) : CapV := { c with tag := c.tag && !shared && c.wellFormed }

/-! ### Buffer entries (R199 to R201) -/

def BufKind.ofCode : Nat → BufKind
  | 0 => .memory | 1 => .local | 2 => .code | _ => .reserved

/-- A buffer-space entry from its 256 bits (R199). -/
def BufEntry.ofBits (x : Nat) : BufEntry :=
  { length := natField x 0 40, kind := BufKind.ofCode (natField x 40 2), valid := natBit x 42, shared := natBit x 43,
    world := natBit x 44, rack := natField x 45 3, key := natField x 48 12, owner := natField x 64 16,
    gen := natField x 80 12, stackSet := natField x 92 8, pch := natField x 100 7, stride := natField x 107 8,
    extmap := natField x 128 48, home := natField x 128 4, loff := natField x 132 14, gfloor := natField x 192 12 }

/-- The entry of an index, when the index is loaded and the entry valid (R201). -/
def Space.entry (sp : Space) (index : Nat) : Option BufEntry :=
  if index < sp.size then
    match sp.entries.find? (fun p => p.1 == index) with
    | some (_, e) => if e.valid then some e else none
    | none => none
  else none

/-- What a failed check reports: its cause, the byte address, and the buffer where an entry was found. -/
structure CheckFail where
  cause : Cause
  addr : Int
  ent : Option BufEntry
deriving DecidableEq, Repr

/-- The first four checks of R204: UNTAG, SPACE, STALE, PERM. -/
def capCheck (sp : Space) (cap : CapV) (need : Nat) (addr : Int) : Except CheckFail BufEntry :=
  if cap.tag = false then .error ⟨.untag, addr, none⟩
  else
    match sp.entry cap.index with
    | none => .error ⟨.space, addr, none⟩
    | some e =>
      if cap.gen ≠ e.gen then .error ⟨.stale, addr, some e⟩
      else if need &&& cap.perms ≠ need then .error ⟨.perm, addr, some e⟩
      else .ok e

/-- Whether `a .. a+size-1` lies in the bounds and the buffer's length (R204). -/
def inBounds (e : BufEntry) (cap : CapV) (a : Int) (size : Nat) : Bool :=
  decide ((cap.base : Int) ≤ a) && decide (a + size ≤ (cap.top : Int)) && decide (a + size ≤ (e.length : Int))

/-- The core check (R204): the entry and the byte address, or the first failing check. -/
def coreCheck (sp : Space) (cap : CapV) (off : Int) (size need al : Nat) : Except CheckFail (BufEntry × Nat) :=
  let a : Int := (cap.cursor : Int) + off
  match capCheck sp cap need a with
  | .error f => .error f
  | .ok e =>
    if a % (al : Int) ≠ 0 then .error ⟨.align, a, some e⟩
    else if inBounds e cap a size then .ok (e, a.toNat)
    else .error ⟨.bound, a, some e⟩

/-- The interleave step of byte `a` (R207): its line within the extent by STRIDE + 1. -/
def stepOf (e : BufEntry) (a : Nat) : Nat := a / 192 % 16384 / (e.stride + 1)

/-- The stack of byte `a` (R207), of an extent's first byte the stack of its frame. -/
def stackOf (e : BufEntry) (a : Nat) : Nat :=
  let on := setBits 8 e.stackSet
  (on[stepOf e a % on.length]?).getD 0

/-- The pseudo-channel index of byte `a` within the extent's frame on its stack (R207). -/
def pchOf (e : BufEntry) (a : Nat) : Nat := stepOf e a / (setBits 8 e.stackSet).length % (e.pch + 1)

end Sys2Proof.Machine
end

