-- ==== Sys2Proof/Machine/Operands.lean ====
section
/-! DEFINITION. Every operand form: what a source coding reads, with its taint set (R22, R97, R102, R128, R149, R210,
R244), the entries of the load-data queues it pops (R22, R229), and which registers a word reads and writes for the
readiness, EMPTY and bank-read rules (R18, R24, R31). -/

namespace Sys2Proof.Machine

open Sys2Proof

/-- The 64-bit value of a 5-bit immediate (R22). -/
def imm64 (v : BitVec 5) : W64 := v.signExtend 64

/-- 1 for a source that pops the load-data queue, else 0. -/
def qCount : Src → Nat
  | .queue => 1
  | .main _ _ => 0
  | .small _ => 0
  | .latch => 0
  | .zero => 0
  | .imm _ => 0

/-- The load-data queue of a unit (R225). -/
def Ctx.lq (c : Ctx) : DUnit → List LqEntry
  | .a => c.mem.lqA | .i => c.mem.lqI | .va => c.mem.lqVA | .vb => c.mem.lqVB

def Ctx.setLq (c : Ctx) (d : DUnit) (l : List LqEntry) : Ctx :=
  match d with
  | .a => { c with mem := { c.mem with lqA := l } }
  | .i => { c with mem := { c.mem with lqI := l } }
  | .va => { c with mem := { c.mem with lqVA := l } }
  | .vb => { c with mem := { c.mem with lqVB := l } }

/-- The store-data queue of a unit (R225). -/
def Ctx.sq (c : Ctx) : DUnit → List SqEntry
  | .a => c.mem.sqA | .i => c.mem.sqI | .va => c.mem.sqVA | .vb => c.mem.sqVB

def Ctx.setSq (c : Ctx) (d : DUnit) (l : List SqEntry) : Ctx :=
  match d with
  | .a => { c with mem := { c.mem with sqA := l } }
  | .i => { c with mem := { c.mem with sqI := l } }
  | .va => { c with mem := { c.mem with sqVA := l } }
  | .vb => { c with mem := { c.mem with sqVB := l } }

/-- Pop `n` entries of a load-data queue, or of a store-data queue. -/
def Ctx.popLq (c : Ctx) (d : DUnit) (n : Nat) : Ctx := if n = 0 then c else c.setLq d ((c.lq d).drop n)
def Ctx.popSq (c : Ctx) (d : DUnit) (n : Nat) : Ctx := if n = 0 then c else c.setSq d ((c.sq d).drop n)

def QVal.scalar : QVal → W64
  | .s x => x | .v x => x.setWidth 64 | .w32 x => x.setWidth 64 | .w64 x => x.setWidth 64
def QVal.vector : QVal → V2048
  | .s x => x.setWidth 2048 | .v x => x | .w32 x => x.setWidth 2048 | .w64 x => x.setWidth 2048
def QVal.wide : QVal → WSum
  | .s x => x.setWidth 2304 | .v x => x.setWidth 2304 | .w32 x => x | .w64 x => x
def QVal.isVec : QVal → Bool
  | .v _ => true | .s _ => false | .w32 _ => false | .w64 _ => false
def QVal.isWide : QVal → Bool
  | .w32 _ => true | .w64 _ => true | .s _ => false | .v _ => false
def QVal.isW32 : QVal → Bool
  | .w32 _ => true | .w64 _ => false | .s _ => false | .v _ => false
def QVal.isW64 : QVal → Bool
  | .w64 _ => true | .w32 _ => false | .s _ => false | .v _ => false

/-- Entry `k` of a load-data queue, with the taint set of the entry. -/
def Ctx.lqVal (c : Ctx) (d : DUnit) (k : Nat) : QVal × Taint :=
  match (c.lq d)[k]? with
  | some e => (e.data.getD (.s 0), e.taint)
  | none => (.s 0, 0)

def Ctx.sqVal (c : Ctx) (d : DUnit) (k : Nat) : QVal × Taint :=
  match (c.sq d)[k]? with
  | some e => (e.val, e.taint)
  | none => (.s 0, 0)

/-! ### Sources -/

/-- A C-unit scalar source (R97). -/
def Ctx.rdC (c : Ctx) (s : Src) : W64 × Taint :=
  match s with
  | .main n _ => let e := vget c.c.g n.toNat tv0; (e.val, e.taint)
  | .latch => (c.c.latch.val, c.c.latch.taint)
  | .imm v => (imm64 v, 0)
  | .zero => (0, 0)
  | .small _ => (0, 0)
  | .queue => (0, 0)

/-- A predicate source (R102). -/
def Ctx.rdP (c : Ctx) (s : Src) : Bool × Taint :=
  match s with
  | .main n _ => if n = 0 then (true, 0) else let e := vget c.c.p n.toNat ⟨false, 0⟩; (e.val, e.taint)
  | .latch => (c.c.latch.val.getLsbD 0, c.c.latch.taint)
  | .imm v => (v.getLsbD 0, 0)
  | .zero => (false, 0)
  | .small _ => (false, 0)
  | .queue => (false, 0)

/-- The value of predicate `n`: p0 reads 1 always and carries no taint (R20, R96). -/
def Ctx.pred (c : Ctx) (n : BitVec 3) : Bool × Taint :=
  if n = 0 then (true, 0) else let e := vget c.c.p n.toNat ⟨false, 0⟩; (e.val, e.taint)

/-- A predicate condition `p[P] xor N` (R96). -/
def Ctx.cond (c : Ctx) (p : BitVec 3) (neg : Bool) : Bool := (c.pred p).1 != neg

/-- A scalar source over the a file; `k` entries of the queue are popped before it (R22). -/
def Ctx.rdA (c : Ctx) (k : Nat) (s : Src) : W64 × Taint :=
  match s with
  | .main n _ => let e := vget c.a.a n.toNat fe0; (e.val, e.taint)
  | .small n => let e := vget c.a.s n.toNat tv0; (e.val, e.taint)
  | .latch => (c.a.latch.val.bits.setWidth 64, c.a.latch.taint)
  | .queue => let (q, t) := c.lqVal .a k; (q.scalar, t)
  | .zero => (0, 0)
  | .imm v => (imm64 v, 0)

/-- A scalar source over the i file. -/
def Ctx.rdI (c : Ctx) (k : Nat) (s : Src) : W64 × Taint :=
  match s with
  | .main n _ => let e := vget c.i.i n.toNat fe0; (e.val, e.taint)
  | .small n => let e := vget c.i.s n.toNat tv0; (e.val, e.taint)
  | .latch => (c.i.latch.val, c.i.latch.taint)
  | .queue => let (q, t) := c.lqVal .i k; (q.scalar, t)
  | .zero => (0, 0)
  | .imm v => (imm64 v, 0)

/-- A vector source; an immediate is sign-extended to `w` bits and broadcast to every element (R22, R133). -/
def Ctx.rdV (c : Ctx) (u : VUnit) (w : Nat) (k : Nat) (s : Src) : V2048 × Taint :=
  match s with
  | .main n _ => let e := vget (c.vf u).v n.toNat ⟨0, 0, true⟩; (e.val, e.taint)
  | .small n => let e := vget (c.vf u).s n.toNat ⟨0, 0⟩; (e.val, e.taint)
  | .latch => ((c.vf u).latch.val, (c.vf u).latch.taint)
  | .queue => let (q, t) := c.lqVal u.dunit k; (q.vector, t)
  | .zero => (0, 0)
  | .imm v => (vecOf w (List.replicate (elemCount w) (imm64 v).toNat), 0)

/-- Destination register D of the a, i or vector file read as a third source. -/
def Ctx.rdAd (c : Ctx) (d : BitVec 5) : W64 × Taint :=
  if d.toNat < 28 then let e := vget c.a.a d.toNat fe0; (e.val, e.taint)
  else let e := vget c.a.s (d.toNat - 28) tv0; (e.val, e.taint)
def Ctx.rdId (c : Ctx) (d : BitVec 5) : W64 × Taint :=
  if d.toNat < 28 then let e := vget c.i.i d.toNat fe0; (e.val, e.taint)
  else let e := vget c.i.s (d.toNat - 28) tv0; (e.val, e.taint)
def Ctx.rdVd (c : Ctx) (u : VUnit) (d : BitVec 5) : V2048 × Taint :=
  if d.toNat < 28 then let e := vget (c.vf u).v d.toNat ⟨0, 0, true⟩; (e.val, e.taint)
  else let e := vget (c.vf u).s (d.toNat - 28) ⟨0, 0⟩; (e.val, e.taint)

/-- A mask operand (R128). -/
def Ctx.rdM (c : Ctx) (u : VUnit) (s : Src) : BitVec 32 × Taint :=
  match s with
  | .main n _ => let e := vget (c.vf u).m n.toNat ⟨0, 0⟩; (e.val, e.taint)
  | .imm v => (v.signExtend 32, 0)
  | .zero => (0, 0)
  | .small _ => (0, 0)
  | .latch => (0, 0)
  | .queue => (0, 0)

/-- A mask selector: the active lanes (R129). -/
def Ctx.rdSel (c : Ctx) (u : VUnit) (s : MaskSel) : BitVec 32 × Taint :=
  match s with
  | .all => (BitVec.allOnes 32, 0)
  | .m n => let e := vget (c.vf u).m n.toNat ⟨0, 0⟩; (e.val, e.taint)

/-- A wide-sum operand (R149). -/
def Ctx.rdW (c : Ctx) (u : VUnit) (s : Src) : WSum × Taint :=
  match s with
  | .main n _ => let e := vget (c.vf u).w n.toNat ⟨0, 0⟩; (e.val, e.taint)
  | .small _ => (0, 0)
  | .latch => (0, 0)
  | .queue => (0, 0)
  | .zero => (0, 0)
  | .imm _ => (0, 0)

/-- A capability source (R210). -/
def Ctx.rdCap (c : Ctx) (s : Src) : CapV × Taint :=
  match s with
  | .main n _ => let e := vget c.a.c n.toNat ⟨CapV.null, 0, true⟩; (e.val, e.taint)
  | .latch => (c.a.latch.val, c.a.latch.taint)
  | .zero => (CapV.null, 0)
  | .small _ => (CapV.null, 0)
  | .queue => (CapV.null, 0)
  | .imm _ => (CapV.null, 0)

/-- The capability register that field D of a memory word names (R226). -/
def Ctx.rdCd (c : Ctx) (n : BitVec 4) : CapV × Taint :=
  let e := vget c.a.c n.toNat ⟨CapV.null, 0, true⟩; (e.val, e.taint)

/-- A kc source and a kx source (R244). -/
def Ctx.rdKc (c : Ctx) (s : Src) : CapV × Taint :=
  match s with
  | .main n _ => let e := vget c.k.kc n.toNat ⟨CapV.null, 0⟩; (e.val, e.taint)
  | .latch => (c.k.latch.val, c.k.latch.taint)
  | .zero => (CapV.null, 0)
  | .small _ => (CapV.null, 0)
  | .queue => (CapV.null, 0)
  | .imm _ => (CapV.null, 0)
def Ctx.rdKx (c : Ctx) (s : Src) : W64 × Taint :=
  match s with
  | .main n _ => let e := vget c.k.kx n.toNat tv0; (e.val, e.taint)
  | .latch => (c.k.latch.val.bits.setWidth 64, c.k.latch.taint)
  | .imm v => (imm64 v, 0)
  | .zero => (0, 0)
  | .small _ => (0, 0)
  | .queue => (0, 0)

/-- A translate-handle source (R242). -/
def Ctx.rdXh (c : Ctx) (s : Src) : W64 × Taint :=
  match s with
  | .main n _ => let e := vget c.a.xh n.toNat fe0; (e.val, e.taint)
  | .small _ => (0, 0)
  | .latch => (0, 0)
  | .queue => (0, 0)
  | .zero => (0, 0)
  | .imm _ => (0, 0)

/-- Whether an operand pops an entry of a vector load-data queue that is not a vector entry (R229). -/
def Ctx.wrongPop (c : Ctx) (u : VUnit) (k : Nat) (s : Src) : Bool :=
  match s with
  | .queue => !(c.lqVal u.dunit k).1.isVec
  | .main _ _ => false
  | .small _ => false
  | .latch => false
  | .zero => false
  | .imm _ => false

/-- The index a source of main level names. -/
def srcIdx : Src → Nat
  | .main n _ => n.toNat
  | .small n => n.toNat
  | .latch => 0
  | .queue => 0
  | .zero => 0
  | .imm _ => 0

end Sys2Proof.Machine
end

