-- ==== Sys2Proof/Machine/Save.lean ====
section
/-! DEFINITION. What the areas of a save hold, as numbers (R334): the spec names the contents of each area and lays out
the header, the entries of the due queue and the places of the side log; the places of the rest are an implementation's. -/

namespace Sys2Proof.Machine

open Sys2Proof

def TV.nums {α : Type} (f : α → Nat) (e : TV α) : List Nat := [f e.val, e.taint.toNat]
def FE.nums {α : Type} (f : α → Nat) (e : FE α) : List Nat := [f e.val, e.taint.toNat, if e.full then 1 else 0]
def CapV.num (v : CapV) : Nat := v.bits.toNat + (if v.tag then 2 ^ 128 else 0)
def optNum (o : Option Nat) : Nat := (o.map (· + 1)).getD 0
def boolNum (b : Bool) : Nat := if b then 1 else 0

/-- The entries of a file, in ascending order. -/
def fileNums {α : Type} {n : Nat} (f : α → List Nat) (v : Vector α n) : List Nat := v.toList.flatMap f

def JobCard.nums (j : JobCard) : List Nat := [j.src.num, j.dst.num, j.w4.toNat, j.w5.toNat, j.w6.toNat, j.w7.toNat]

/-- The C, A, I, M, K and S files, latches, return stack, system registers, path taint, and the full/empty bits and taint
sets of every entry. -/
def Ctx.scalarNums (c : Ctx) : List Nat :=
  fileNums (TV.nums boolNum) c.c.p ++ fileNums (TV.nums BitVec.toNat) c.c.l ++ fileNums (TV.nums BitVec.toNat) c.c.g ++
  [c.c.done.toNat] ++ c.c.latch.nums BitVec.toNat ++ fileNums (fun v => [v.toNat]) c.c.rstk ++ [c.c.depth] ++
  fileNums (FE.nums BitVec.toNat) c.a.a ++ fileNums (TV.nums BitVec.toNat) c.a.s ++ fileNums (FE.nums CapV.num) c.a.c ++
  fileNums (FE.nums BitVec.toNat) c.a.xh ++ c.a.latch.nums CapV.num ++
  fileNums (FE.nums BitVec.toNat) c.i.i ++ fileNums (TV.nums BitVec.toNat) c.i.s ++ c.i.latch.nums BitVec.toNat ++
  fileNums (TV.nums BitVec.toNat) c.m.sd ++ fileNums (TV.nums BitVec.toNat) c.m.gp ++ c.m.latch.nums BitVec.toNat ++
  fileNums (TV.nums CapV.num) c.k.kc ++ fileNums (TV.nums BitVec.toNat) c.k.kx ++
  fileNums (fun e => e.val.nums ++ [e.taint.toNat]) c.k.kj ++ c.k.latch.nums CapV.num ++
  fileNums (TV.nums BitVec.toNat) c.s.f ++ fileNums (TV.nums BitVec.toNat) c.s.q ++ c.s.latch.nums BitVec.toNat ++
  fileNums (fun e => [e.taint.toNat, boolNum e.full]) c.va.v ++ fileNums (fun e => [e.taint.toNat, boolNum e.full]) c.vb.v ++
  [c.st.rm.toNat, c.st.fflags.toNat, c.st.bubbles.toNat, c.st.melddeny.toNat, c.st.dfault.toNat, c.st.hintdrop.toNat,
   c.st.step.toNat, boolNum c.st.stepValid, c.st.hibs, c.st.sheds, c.st.passes.toNat, c.st.passFlags.toNat,
   c.path.toNat, c.savedPath.toNat]

/-- Main and small files, masks, wide sums and latch of a vector unit, with the taint sets. -/
def VFile.nums (f : VFile) : List Nat :=
  fileNums (fun e => [e.val.toNat]) f.v ++ fileNums (TV.nums BitVec.toNat) f.s ++ fileNums (TV.nums BitVec.toNat) f.m ++
  fileNums (TV.nums BitVec.toNat) f.w ++ f.latch.nums BitVec.toNat

/-- The destination of a result: its kind and number. -/
def RegWrite.dest : RegWrite → List Nat
  | .pred n _ => [0, n.toNat] | .loop n _ l => [1, n.toNat, boolNum l] | .gen n _ => [2, n.toNat] | .addr n _ => [3, n.toNat]
  | .cap n _ => [4, n.toNat] | .handle n _ => [5, n.toNat] | .int n _ => [6, n.toNat] | .vec u n _ => [7, u.unit.code.toNat, n.toNat]
  | .mask u n _ => [8, u.unit.code.toNat, n.toNat] | .wsum u n _ => [9, u.unit.code.toNat, n.toNat]
  | .wsinc u n ws64 _ st => [10, u.unit.code.toNat, n.toNat, boolNum ws64, st.toNat] | .sd n _ => [11, n.toNat]
  | .gp n _ => [12, n.toNat] | .kc n _ => [13, n.toNat] | .kx n _ => [14, n.toNat] | .kjWord n k _ => [15, n.toNat, k.toNat]
  | .kjSlot n d _ => [16, n.toNat, boolNum d] | .fmt n _ => [17, n.toNat] | .scale n _ => [18, n.toNat]

/-- The value of a result, and its length in bytes. -/
def RegWrite.value : RegWrite → Nat × Nat
  | .pred _ v => (boolNum v, 1) | .loop _ v _ => (v.toNat, 4) | .gen _ v => (v.toNat, 8) | .addr _ v => (v.toNat, 8)
  | .cap _ v => (v.num, 17) | .handle _ v => (v.toNat, 8) | .int _ v => (v.toNat, 8) | .vec _ _ v => (v.toNat, 256)
  | .mask _ _ v => (v.toNat, 4) | .wsum _ _ v => (v.toNat, 288) | .wsinc _ _ _ inc _ => (wrapInt 2304 inc, 288)
  | .sd _ v => (v.toNat, 32) | .gp _ v => (v.toNat, 4) | .kc _ v => (v.num, 17) | .kx _ v => (v.toNat, 8)
  | .kjWord _ _ v => (v.toNat, 8) | .kjSlot _ _ v => (v.num, 17) | .fmt _ v => (v.toNat, 4) | .scale _ v => (v.toNat, 64)

/-- A due-queue entry: a descriptor of 32 bytes of its remaining count, handler mark, destinations, taint set and flags,
then the values of its results, each padded to a multiple of 16 bytes. -/
def DueEntry.bytes (e : DueEntry) : List Byte :=
  natToBytes 32 (Config.saveLayout 2
    ([e.rem, boolNum e.hand, e.taint.toNat, e.flags.toNat] ++ e.writes.flatMap RegWrite.dest)) ++
  e.writes.flatMap (fun w => natToBytes ((w.value.2 + 15) / 16 * 16) w.value.1)

def QVal.nums : QVal → List Nat
  | .s x => [0, x.toNat] | .v x => [1, x.toNat] | .w32 x => [2, x.toNat] | .w64 x => [3, x.toNat]

def LqEntry.nums (e : LqEntry) : List Nat := [e.id, e.taint.toNat] ++ ((e.data.map QVal.nums).getD [])
def SqEntry.nums (e : SqEntry) : List Nat := e.taint.toNat :: e.val.nums

def AccOp.nums : AccOp → List Nat
  | .load q ty => [0, q.unit.code.toNat, boolNum ty.uns, ty.w.bits] | .vload u => [1, u.unit.code.toNat]
  | .wload u w => [2, u.unit.code.toNat, boolNum w] | .lcap d => [3, d.toNat] | .store => [4] | .scap t => [5, boolNum t]
  | .amo op ty r => [6, (match op with
      | .add => 0 | .and => 1 | .or => 2 | .xor => 3 | .min => 4 | .max => 5 | .swap => 6), boolNum ty.uns, ty.w.bits, boolNum r]
  | .cas w n => [7, w.bits, n] | .wsadd w => [8, boolNum w] | .spawn => [9] | .join s => [10, s] | .fence a => [11, optNum a]

def Scope.num : Scope → Nat
  | .co => 0 | .cl => 1 | .di => 2 | .pk => 3 | .dom => 4 | .sy => 5

/-- A request: its operation, place, data, taint sets and ordering. -/
def Access.nums (x : Access) : List Nat :=
  x.op.nums ++ [(match x.loc with
    | .mem m => m
    | .loc k => k), x.size, x.index, optNum x.id, x.addrTaint.toNat, x.dataTaint.toNat, optNum (x.rel.map Scope.num),
    optNum (x.acq.map Scope.num), x.baddr, x.unit.code.toNat, boolNum x.hand, x.seq, boolNum x.hold] ++
  x.pieces.flatMap (fun p => [p.lane, p.addr, p.data])

/-- Load ids with their requests, load-data and store-data queues. -/
def CtxMem.queueNums (m : CtxMem) : List Nat :=
  fileNums (fun x => [boolNum x.held, x.pe]) m.ids ++ [m.floor, m.aseq] ++ m.outs.flatMap Access.nums ++
  (m.lqA ++ m.lqI ++ m.lqVA ++ m.lqVB).flatMap LqEntry.nums ++ (m.sqA ++ m.sqI ++ m.sqVA ++ m.sqVB).flatMap SqEntry.nums

/-- Kitty registers, card progress, sy.jstat0..59 and pins. -/
def Ctx.tailNums (c : Ctx) (cards : List Card) : List Nat :=
  fileNums (fun k => [k.base, k.cap, k.head, k.count, k.taint.toNat]) c.st.kitty ++
  cards.flatMap (fun k => k.db :: k.card.nums ++ k.moved ++ k.stops.flatMap (fun x => [x.1, x.2])) ++
  fileNums (fun v => [v.toNat]) c.st.jstat ++
  fileNums (fun p => (p.map (fun x => [x.map, x.ext])).getD []) c.mem.pins

/-- The areas of a save between its header with the fault record and its tiles: offset and bytes. (DESIGN CHOICE, log 101.) -/
def Ctx.saveAreas (c : Ctx) (cards : List Card) : List (Nat × List Byte) :=
  let due := c.due.flatMap DueEntry.bytes
  [(0x80, natToBytes 3968 (Config.saveLayout 0 c.scalarNums)),
   (0x1000, natToBytes 12288 (Config.saveLayout 1 c.va.nums) ++ natToBytes 12288 (Config.saveLayout 1 c.vb.nums)),
   (0x7000, (due ++ List.replicate (65536 - due.length) 0).take 65536),
   (0x17000, natToBytes 16384 (Config.saveLayout 3 c.mem.queueNums)),
   (0x1B000, (List.range 32).flatMap (fun k => natToBytes 384 (match c.mem.slog[k]? with
      | some x => Config.saveLayout 4 x.nums
      | none => 0))),
   (0x1E000, natToBytes 4096 (Config.saveLayout 5 (c.tailNums cards)))]

end Sys2Proof.Machine
end

