-- ==== Sys2Proof/Machine/Ops.lean ====
section
/-! DEFINITION. Operations over the whole state: contexts, cores and launches by key, local arrays and home memory with
tags, the save area, taking a trap and returning from one (R197, R218, R326 to R330, R334, R337, R338). -/

namespace Sys2Proof.Machine

open Sys2Proof

/-- The outcome of a meaning. -/
abbrev Out := Host.Outcome State Fault Refusal

/-! ### Contexts, cores and clusters by key -/

/-- The state with the current context replaced. -/
def State.withCtx (s : State) (c : Ctx) : State := { s with ctx := c }

/-- The state with the current context changed. -/
def State.onCtx (s : State) (f : Ctx → Ctx) : State := { s with ctx := f s.ctx }

/-- Change every context that satisfies `p`. -/
def State.mapCtx (s : State) (p : Ctx → Bool) (f : Ctx → Ctx) : State :=
  { s with ctx := if p s.ctx then f s.ctx else s.ctx
           others := s.others.map (fun c => if p c then f c else c) }

/-- Every context, the current one first. -/
def State.allCtx (s : State) : List Ctx := s.ctx :: s.others

/-- Whether a slot is occupied for R17: it holds a context or waits for its next record; a saved context has left it. -/
def Phase.occupied : Phase → Bool
  | .vacant => false | .running => true | .waiting => true | .ended => true | .frozen => true | .stopped => false

/-- Whether a context stands in the other slot of a context's core. -/
def Ctx.beside (c d : Ctx) : Bool :=
  d.phase.occupied && d.place.cluster == c.place.cluster && d.place.core == c.place.core && d.place.slot != c.place.slot

/-- The context in the other slot of the current core (R17). -/
def State.peer (s : State) : Option Ctx := s.others.find? s.ctx.beside

/-- Reference ticks since package reset: one per 16 master cycles (R9, R319). (DEDUCED, log 43.) -/
def State.ticks (s : State) : Nat := s.cycle / 16

def State.peerOccupied (s : State) : Bool := s.peer.isSome

/-- The compute stack of a cluster of the 12 × 16 mesh (R419). -/
def clusterStack (n : Nat) : Nat := 4 * (n / 96) + n % 16 / 4

/-- Core `n` of the current cluster. -/
def State.coreAt (s : State) (n : Nat) : Core :=
  if n = s.core.num then s.core
  else (s.cores.find? (fun k => k.cluster == s.clus.num && k.num == n)).getD s.core

/-- Change core `n` of the current cluster. -/
def State.modCore (s : State) (n : Nat) (f : Core → Core) : State :=
  if n = s.core.num then { s with core := f s.core }
  else { s with cores := s.cores.map (fun k => if k.cluster == s.clus.num && k.num == n then f k else k) }

/-- Change every core of the current cluster. -/
def State.mapCores (s : State) (f : Core → Core) : State :=
  { s with core := f s.core, cores := s.cores.map (fun k => if k.cluster == s.clus.num then f k else k) }

/-- Change the current cluster. -/
def State.onClus (s : State) (f : Cluster → Cluster) : State := { s with clus := f s.clus }

/-- The buffer space locked in the current cluster's table (R200). -/
def State.table (s : State) : Space := s.clus.table.getD ⟨0, 0, []⟩

/-- A launch by its id. -/
def State.launchOf (s : State) (id : Nat) : Option Launch := s.launches.find? (fun l => l.id == id)

/-- Change one launch. -/
def State.modLaunch (s : State) (id : Nat) (f : Launch → Launch) : State :=
  { s with launches := s.launches.map (fun l => if l.id == id then f l else l) }

/-- Set a bit of DONE (R255). -/
def Ctx.setDone (c : Ctx) (k : Nat) : Ctx := { c with c := { c.c with done := c.c.done ||| BitVec.ofNat 64 (2 ^ k) } }

/-- Clear the DONE bits of a mask (R257). -/
def Ctx.clearDone (c : Ctx) (m : W64) : Ctx := { c with c := { c.c with done := c.c.done &&& ~~~m } }

/-- An operation that will set done bit `k` issues (R247, R250): the bit and its sy.dfault bit are cleared, BUSY is set
in its status register and the other fields cleared. -/
def Ctx.beginDone (c : Ctx) (k : Nat) : Ctx :=
  { c with
    c := { c.c with done := c.c.done &&& ~~~(BitVec.ofNat 64 (2 ^ k)) }
    st := { c.st with dfault := c.st.dfault &&& ~~~(BitVec.ofNat 64 (2 ^ k))
                      jstat := vset c.st.jstat k 0x2000 } }

/-- The operation that holds done bit `k` completes (R250): a cause other than 0 sets its sy.dfault bit. -/
def Ctx.endDone (c : Ctx) (k cause : Nat) (flags : BitVec 5) (foff : Nat) : Ctx :=
  let c1 := c.setDone k
  { c1 with st := { c1.st with
      dfault := if cause = 0 then c1.st.dfault else c1.st.dfault ||| BitVec.ofNat 64 (2 ^ k)
      jstat := vset c1.st.jstat k (BitVec.ofNat 64 (cause + flags.toNat * 2 ^ 8 + foff % 2 ^ 40 * 2 ^ 16)) } }

/-- A system done bit is to be set at the end of the cycle (R321). -/
def State.note (s : State) (n : Notice) : State := { s with notices := s.notices ++ [n] }

/-- A fresh index for a free value; the counter is the model's own (see Config). (DESIGN CHOICE, log 6.) -/
def State.draw (s : State) : Nat × State := (s.draws, { s with draws := s.draws + 1 })

/-- Messages that leave the device. (DESIGN CHOICE, log 56.) -/
def State.send (s : State) (l : List Msg) : State := { s with outbox := s.outbox ++ l }

/-- The meaning of an event of a unit that only a module has (R1). (DEDUCED, log 2.) -/
def moduleOnly (f : State → State) (s : State) : Out :=
  match s.code with
  | .vpm9p => .fault .absentUnit
  | .vpm9mh => .next (f s)

/-! ### Collective groups (R371, R372) -/

/-- Messages to other modules; a VPM9-P has no link to send them on (R1). -/
def State.sendFabric (s : State) (l : List Msg) : State :=
  match s.code with
  | .vpm9p => s
  | .vpm9mh => s.send l

/-- The valid groups that an ASID's contexts may use. -/
def State.groupsOf (s : State) (asid : Nat) : List Group :=
  s.groups.filter (fun (g : Group) => g.entry.valid && g.entry.asid == asid)

def State.groupOf (s : State) (gid : Nat) : Option Group :=
  s.groups.find? (fun (g : Group) => g.entry.gid == gid && g.entry.valid)

def State.modGroup (s : State) (gid : Nat) (f : Group → Group) : State :=
  { s with groups := s.groups.map (fun (g : Group) => if g.entry.gid == gid then f g else g) }

/-- The state of a member: ACTIVE unless another is held here. -/
def Group.stateOf (g : Group) (rank : Nat) : MState :=
  ((g.members.find? (fun (m : Member) => m.rank == rank)).map (fun (m : Member) => m.st)).getD .active

/-- The state of a member changes at a tick. -/
def Group.setMember (g : Group) (rank : Nat) (st : MState) (t : Nat) : Group :=
  { g with members := g.members.filter (fun (m : Member) => m.rank != rank) ++ [⟨rank, st, t⟩] }

/-- A module is heard of: it is reachable again (R369, R382). -/
def State.heard (s : State) (peer : Nat) : State := { s with away := s.away.filter (fun p => p.1 != peer) }

/-- Modules are not reachable from now on. -/
def State.lose (s : State) (peers : List Nat) : State :=
  { s with away := s.away ++ ((peers.eraseDups.filter (fun p => !s.away.any (fun q => q.1 == p))).map (fun p => (p, s.ticks))) }

/-- The module of a member of a group. -/
def Group.moduleOf (g : Group) (rank : Nat) : List Nat := (g.entry.members[rank]?).toList

/-- Whether a card is a job of a group. -/
def Card.isJob (c : Card) (gid : Nat) : Bool :=
  match c.kind with
  | .coll g _ _ _ _ => g == gid
  | .copy _ => false
  | .fill => false
  | .mcast _ _ => false

/-- The launch whose context issued the outstanding job of a group. -/
def State.jobLaunch (s : State) (gid : Nat) : Option Nat :=
  (((s.core :: s.cores).flatMap (fun (k : Core) => k.cards) ++
    s.allCtx.flatMap (fun (c : Ctx) => (c.saved.map (fun (v : Saved) => v.cards)).getD [])).find?
      (fun (c : Card) => c.isJob gid)).map (fun (c : Card) => c.launch)

/-- This package's member of a group becomes FAULTED and says so to its peers (R372). -/
def State.memberFaulted (s : State) (g : Group) : State :=
  (s.modGroup g.entry.gid (fun x => x.setMember x.entry.rank .faulted s.ticks)).sendFabric
    [.memberState g.entry.gid g.entry.rank .faulted]

/-- The groups whose outstanding job is a launch's. -/
def State.jobGroups (s : State) (launch : Nat) : List Group :=
  s.groups.filter (fun (g : Group) => g.entry.valid && s.jobLaunch g.entry.gid == some launch)

/-- Jobs leave with their cards, never to complete: their groups' member here is FAULTED and they are outstanding no longer
(R372, R374). -/
def State.dropJobs (s : State) (l : List Group) : State :=
  let s1 := l.foldl State.memberFaulted s
  { s1 with coll := s1.coll.filter (fun (x : CollJob) => !l.any (fun g => g.entry.gid == x.gid)) }

/-- A launch has a fatal fault: its groups' member here is FAULTED, but for a group whose job another launch has. -/
def State.launchFaulted (s : State) (launch asid : Nat) : State :=
  ((s.groupsOf asid).filter (fun (g : Group) =>
    match s.jobLaunch g.entry.gid with
    | some l => l == launch
    | none => true)).foldl State.memberFaulted s

/-- The current context has ended: where a job of its own is outstanding, its group's member here is FAULTED. -/
def State.endedWithJob (s : State) : State :=
  ((s.groupsOf s.ctx.place.asid).filter (fun (g : Group) =>
    s.core.cards.any (fun (c : Card) => c.slot == s.ctx.place.slot && c.launch == s.ctx.place.launch &&
      c.isJob g.entry.gid))).foldl State.memberFaulted s

def BufEntry.isLocal (e : BufEntry) : Bool :=
  match e.kind with
  | .local => true | .memory => false | .code => false | .reserved => false

/-! ### Extents (R237, R238) -/

def State.extent (s : State) (map ext : Nat) : Option Extent :=
  s.exts.find? (fun e => e.map == map && e.ext == ext)

def State.modExtent (s : State) (map ext : Nat) (f : Extent → Extent) : State :=
  { s with exts := s.exts.map (fun e => if e.map == map && e.ext == ext then f e else e) }

/-- The extents that bytes `a .. a+n-1` touch. -/
def extentsOf (a n : Nat) : List Nat :=
  if n = 0 then [] else (List.range ((a + n - 1) / extentBytes - a / extentBytes + 1)).map (· + a / extentBytes)

/-- The bytes of one bit of the tag summary (R198). -/
def summaryBytes : Nat := 3072

/-- The entry of the buffer whose extent map stands at `map`. -/
def State.entryOfMap (s : State) (map : Nat) : Option BufEntry :=
  (s.spaces.flatMap (fun sp => sp.entries.map (·.2))).find? (fun e => e.valid && !e.isLocal && e.extmap == map)

/-- The frames of one stack's HBM and of SCM (R3). -/
def stackFrames : Nat := 48 * 2 ^ 30 / extentBytes
def scmFrames : Nat := 2 ^ 42 / extentBytes

/-- The banks whose 32 spare rows are used up (R415). -/
def State.fullBanks (s : State) (scm : Bool) : List Nat :=
  let banks := (s.retired.filter (fun (r : RetRow) => r.scm == scm)).map (fun (r : RetRow) => r.bank)
  banks.eraseDups.filter (fun b => decide (32 ≤ banks.count b))

/-- The frames out of service on one stack, or in SCM. -/
def State.lostFrames (s : State) (scm : Bool) (dev : Nat) : List Nat :=
  ((s.fullBanks scm).flatMap Config.bankFrames).filterMap (fun (x : Nat × Nat) => if x.1 = dev then some x.2 else none)

/-- The frames of a stack that hold an extent, are allocated for one or are out of service, and the same of SCM
(R241, R415). -/
def State.takenOn (s : State) (stack : Nat) : List Nat :=
  ((s.exts.filter (fun (e : Extent) => e.state == .hbm && e.stack == stack)).map (fun (e : Extent) => e.frame) ++
    (s.zeroing.filter (fun (f : Frame) => f.stack == stack)).map (fun (f : Frame) => f.num) ++
    s.lostFrames false stack).eraseDups
def State.takenScm (s : State) : List Nat :=
  ((s.exts.filter (fun (e : Extent) => e.state == .scm)).map (fun (e : Extent) => e.frame) ++ s.lostFrames true 0).eraseDups

/-- The lowest number below `cap` that a list does not hold. -/
def lowestFree (cap : Nat) (l : List Nat) : Option Nat :=
  (List.range (min cap (l.length + 1))).find? (fun n => !l.contains n)

/-- A free frame of a stack, and one of SCM. -/
def State.freeOn (s : State) (stack : Nat) : Option Nat := lowestFree stackFrames (s.takenOn stack)
def State.freeInScm (s : State) : Option Nat := lowestFree scmFrames s.takenScm

/-- Free HBM frames (R241). -/
def State.freeFrames (s : State) : Nat := ((List.range 8).map (fun k => stackFrames - (s.takenOn k).length)).sum

/-- The stack of the frame of an extent of an entry's buffer (R207). (DESIGN CHOICE, log 118.) -/
def frameStack (e : BufEntry) (ext : Nat) : Nat := stackOf e (ext * extentBytes)

/-- The frame allocated for an extent that is not in HBM yet. -/
def State.allocated (s : State) (map ext : Nat) : Option Frame :=
  s.zeroing.find? (fun (f : Frame) => f.map == map && f.ext == ext)

/-- The migration unit allocates a frame for an extent, where one is free; its zero writes begin (R237, R411). -/
def State.allocFrame (s : State) (e : BufEntry) (ext : Nat) : State :=
  match s.allocated e.extmap ext, s.freeOn (frameStack e ext) with
  | none, some f => { s with zeroing := s.zeroing ++ [⟨frameStack e ext, f, e.extmap, ext, e.owner, e.world, false⟩] }
  | none, none => s
  | some _, _ => s

/-- A byte of home memory belongs to an extent. -/
def inExtent (map ext k : Nat) : Bool :=
  decide (memKey map (ext * extentBytes) ≤ k) && decide (k < memKey map (ext * extentBytes) + extentBytes)

/-- The tags in an extent set the summary bits of the frame that takes it (R198). -/
def State.sumFrame (s : State) (map ext stack frame : Nat) : State :=
  let a := memKey map (ext * extentBytes)
  let bits := ((s.memTags.filter (fun g => inExtent map ext (16 * g))).map (fun g =>
    (stack * stackFrames + frame, (16 * g - a) / summaryBytes))).eraseDups
  { s with tagSum := s.tagSum ++ bits.filter (fun b => !s.tagSum.contains b) }

/-- An extent enters an HBM frame: an absent one is zero in every byte (R237), one from SCM or a peer brings its bytes and
tags (R238). -/
def State.enterFrame (s : State) (f : Frame) : State :=
  let z := s.zeroing.filter (fun (g : Frame) => !(g.stack == f.stack && g.num == f.num))
  match s.extent f.map f.ext with
  | none =>
    { s with
      zeroing := z
      mem := s.mem.filter (fun (x : Host.Cell) => !inExtent f.map f.ext x.1)
      memTags := s.memTags.filter (fun g => !inExtent f.map f.ext (16 * g))
      poison := s.poison.filter (fun k => !inExtent f.map f.ext k)
      exts := s.exts ++ [{ map := f.map, ext := f.ext, state := .hbm, mig := false, stack := f.stack, frame := f.num,
                           peer := 0, owner := f.owner, world := f.world, counter := 0 }] }
  | some x =>
    match x.state with
    | .absent =>
      { s with
        zeroing := z
        mem := s.mem.filter (fun (x : Host.Cell) => !inExtent f.map f.ext x.1)
        memTags := s.memTags.filter (fun g => !inExtent f.map f.ext (16 * g))
        poison := s.poison.filter (fun k => !inExtent f.map f.ext k) }.modExtent f.map f.ext (fun y =>
          { y with state := .hbm, stack := f.stack, frame := f.num, owner := f.owner, world := f.world })
    | .hbm => { s with zeroing := z }
    | .scm => ({ s with zeroing := z }.modExtent f.map f.ext (fun y =>
        { y with state := .hbm, mig := false, stack := f.stack, frame := f.num, peer := 0 })).sumFrame f.map f.ext f.stack f.num
    | .remote => ({ s with zeroing := z }.modExtent f.map f.ext (fun y =>
        { y with state := .hbm, mig := false, stack := f.stack, frame := f.num, peer := 0 })).sumFrame f.map f.ext f.stack f.num

/-- Zeros have been written to every row of a frame, which rejoins refresh (R411): an absent extent enters it; one on its
way from SCM or a peer enters it when its bytes arrive. -/
def State.cleanFrame (s : State) (f : Frame) : State :=
  let absent : Bool := match s.extent f.map f.ext with
    | none => true
    | some x => x.state == .absent
  if absent then s.enterFrame f
  else { s with zeroing := s.zeroing.map (fun (g : Frame) =>
    if g.stack == f.stack && g.num == f.num then { g with clean := true } else g) }

/-- Whether an extent can be reached by a unit of the device: it is in HBM or held remote. -/
def State.present (s : State) (map ext : Nat) : Bool :=
  match s.extent map ext with
  | some x => x.state == .hbm || x.state == .remote
  | none => false

/-- A unit of the device that writes to an extent waits, within its action, for the extent to be in HBM: a frame is
allocated, zeroed and entered (R237, R238, R411). (DESIGN CHOICE, log 118.) -/
def State.touchExtent (s : State) (e : BufEntry) (ext : Nat) : State :=
  if s.present e.extmap ext then s
  else
    let s1 := s.allocFrame e ext
    match s1.allocated e.extmap ext with
    | some f => s1.enterFrame f
    | none => s1

/-- Whether the extents of a range that are not in HBM find frames: what such a unit waits for before it acts (R3). -/
def State.roomFor (s : State) (e : BufEntry) (a n : Nat) : Bool :=
  e.isLocal || ((extentsOf a n).foldl (fun (x : State × Bool) ext =>
    let t := x.1.touchExtent e ext
    (t, x.2 && t.present e.extmap ext)) (s, true)).2

/-! ### Home memory and local arrays -/

/-- Write bytes at home, clearing the tags they overlap (R197); a sector written whole has new ECC (R414). -/
def State.memWrite (s : State) (map a : Nat) (bs : List Byte) : State :=
  let k := memKey map a
  { s with mem := Memory.write s.mem k bs, memTags := clearTags s.memTags k bs.length
           poison := s.poison.filter (fun p => !(decide (k ≤ p) && decide (p + sectorBytes ≤ k + bs.length))) }

/-- Read bytes at home. -/
def State.memRead (s : State) (map a n : Nat) : List Byte := Memory.read s.mem (memKey map a) n

/-- The tag-summary bit of byte `a` of a buffer (R198): the frame of HBM that holds it and the 3 KiB of that frame. -/
def State.summaryBit (s : State) (map a : Nat) : Option (Nat × Nat) :=
  match s.extent map (a / extentBytes) with
  | some e =>
    if e.state == .hbm then some (e.stack * stackFrames + e.frame, a % extentBytes / summaryBytes) else none
  | none => none

/-- The tag of the granule at `a` is set or cleared (R197); a tag that is set sets its summary bit, and none clears it
(R198). -/
def State.setTag (s : State) (map a : Nat) (t : Bool) : State :=
  { s with
    memTags := putTag s.memTags (memKey map a / 16) t
    tagSum := if t then s.tagSum ++ (s.summaryBit map a).toList.filter (fun b => !s.tagSum.contains b) else s.tagSum }

/-- The tag of the granule at `a`, and a granule write with its tag (R197). -/
def State.memTag (s : State) (map a : Nat) : Bool := s.memTags.contains (memKey map a / 16)
def State.memWriteCap (s : State) (map a : Nat) (v : CapV) : State :=
  { s with mem := Memory.write s.mem (memKey map a) (natToBytes 16 v.bits.toNat) }.setTag map a v.tag
def State.memReadCap (s : State) (map a : Nat) : CapV :=
  ⟨BitVec.ofNat 128 (bytesToNat (s.memRead map a 16)), s.memTag map a⟩

/-- The size of the local array and of a bank (R218). -/
def arrayBytes : Nat := 786432
def bankBytes : Nat := 49152

/-- Local-array bytes of a core (R218). -/
def Core.laWrite (k : Core) (o : Nat) (bs : List Byte) : Core :=
  { k with la := Memory.write k.la o bs, laTags := clearTags k.laTags o bs.length }
def Core.laRead (k : Core) (o n : Nat) : List Byte := Memory.read k.la o n
def Core.laWriteCap (k : Core) (o : Nat) (v : CapV) : Core :=
  { k with la := Memory.write k.la o (natToBytes 16 v.bits.toNat), laTags := putTag k.laTags (o / 16) v.tag }
def Core.laReadCap (k : Core) (o : Nat) : CapV :=
  ⟨BitVec.ofNat 128 (bytesToNat (Memory.read k.la o 16)), k.laTags.contains (o / 16)⟩

/-- Whether local-array byte `o` lies in a scratchpad bank of the context that its segment header declares (R163, R358:
sy.split.OWN and sy.sbnd.BANKS). -/
def Ctx.ownsByte (c : Ctx) (o : Nat) : Bool :=
  decide (o < arrayBytes) && c.place.own.getLsbD (o / bankBytes) && c.place.sbanks.getLsbD (o / bankBytes)

/-- The lowest offset of `lo .. lo+n-1` outside the context's scratchpad banks, if any (R163). A range crosses at most
the banks it meets, so testing its first byte and each bank start in it finds the lowest. -/
def Ctx.firstOutside (c : Ctx) (lo n : Nat) : Option Nat :=
  if n = 0 then none
  else
    let starts := lo :: ((List.range 17).map (fun b => b * bankBytes)).filter (fun o => lo < o && o < lo + n)
    starts.find? (fun o => !c.ownsByte o)

/-! ### Stale capabilities entering during a sweep (R341, R342) -/

/-- Whether a tagged capability is stale in a space (R341). -/
def staleIn (sp : Space) (v : CapV) : Bool :=
  v.tag && (match sp.entry v.index with
    | some e => v.gen != e.gen
    | none => true)

def State.spaceOf (s : State) (asid : Nat) : Space :=
  (s.spaces.find? (fun sp => sp.asid == asid)).getD ⟨asid, 0, []⟩

/-- A capability entering a granule, register or latch of the space of `asid` while a sweep is active has a stale tag
cleared (R342). -/
def State.enter (s : State) (asid : Nat) (v : CapV) : CapV :=
  if s.sweep.active && staleIn (s.spaceOf asid) v then { v with tag := false } else v

/-- A function of the tag bits, applied to a capability in a result. -/
def RegWrite.mapCap (f : CapV → CapV) : RegWrite → RegWrite
  | .cap n v => .cap n (f v)
  | .kc n v => .kc n (f v)
  | .kjSlot n d v => .kjSlot n d (f v)
  | .pred n v => .pred n v | .loop n v l => .loop n v l | .gen n v => .gen n v | .addr n v => .addr n v
  | .handle n v => .handle n v | .int n v => .int n v | .vec u n v => .vec u n v | .mask u n v => .mask u n v
  | .wsum u n v => .wsum u n v | .wsinc u n w i st => .wsinc u n w i st | .sd n v => .sd n v | .gp n v => .gp n v
  | .kx n v => .kx n v | .kjWord n k v => .kjWord n k v | .fmt n v => .fmt n v | .scale n v => .scale n v

/-- The capabilities of due entries that are about to become visible are tested while a sweep is active (R342). -/
def State.testDue (s : State) (p : DueEntry → Bool) : State :=
  if s.sweep.active then
    s.onCtx (fun c => { c with due := c.due.map (fun e =>
      if p e then { e with writes := e.writes.map (RegWrite.mapCap (s.enter c.place.asid)) } else e) })
  else s

/-- The full/empty result at place `k` arrives, its capability tested while a sweep is active (R24, R342). -/
def State.arrive (s : State) (k : Nat) : State :=
  if s.sweep.active then
    let f := fun (c : Ctx) (x : Pending × Nat) =>
      if x.2 = k then { x.1 with write := x.1.write.mapCap (s.enter c.place.asid) } else x.1
    s.onCtx (fun c =>
      { c with mem := { c.mem with pend := (c.mem.pend.zip (List.range c.mem.pend.length)).map (f c) } }.arrive k)
  else s.onCtx (fun c => c.arrive k)

/-! ### Code of a segment (R74, R76) -/

/-- The sequential successor of a bundle of `n` words at `addr` (R76). -/
def seqSucc (addr n : Nat) : Nat :=
  let e := addr % 1024 + 4 * n
  if e ≤ 992 then addr + 4 * n else (addr / 1024 + 1) * 1024

/-- Words until the stop bit, at most 8 (R13). -/
def wordsToStop (rd : Nat → BitVec 32) : Nat → Nat → Option Nat
  | 0, _ => none
  | fuel + 1, k => if stopBit (rd k) then some (k + 1) else wordsToStop rd fuel (k + 1)

/-- The word at a byte address of the context's segment, read from its code buffer at home. -/
def State.codeWord (s : State) (p : Place) (addr : Nat) : BitVec 32 :=
  wordOfBytes (s.memRead p.segMap (p.segBase + addr) 4)

/-- The 252 words of block `n` of a segment, as its code buffer holds them (R74). -/
def State.homeBlock (s : State) (p : Place) (n : Nat) : List (BitVec 32) :=
  (List.range 252).map (fun k => s.codeWord p (1024 * n + 4 * k))

/-- Whether the tag of a block at home checks: the launch's segment nonce and the block key (R74). -/
def State.blockChecks (s : State) (p : Place) (n : Nat) : Bool :=
  let nonce := ((s.launches.find? (fun (l : Launch) => l.id == p.launch)).map (fun l => l.img.segNonce)).getD 0
  let a := p.segBase + 1024 * n
  blockTag p.segKey nonce n (s.memRead p.segMap a 1008) == s.memRead p.segMap (a + 1008) 16

/-- Whether contexts of a place's launch have stored to a block of their code segment (R78). -/
def State.isStained (s : State) (p : Place) (n : Nat) : Bool :=
  s.launches.any (fun (l : Launch) => l.id == p.launch && l.stained.contains n)

/-- A block filled into the instruction store of the current core when its tag checks (R75); a block that the launch has
stored to fails (R78). -/
def State.fillBlock (s : State) (p : Place) (n : Nat) : State × Option (List (BitVec 32)) :=
  let rest := s.core.istore.filter (fun b => !(b.map == p.segMap && b.base == p.segBase && b.num == n))
  if !s.isStained p n && s.blockChecks p n then
    let ws := s.homeBlock p n
    ({ s with core := { s.core with istore := rest ++ [⟨p.segMap, p.segBase, n, ws⟩] } }, some ws)
  else ({ s with core := { s.core with istore := rest } }, none)

/-- The ordinal in the segment of the bundle at `pc` (R84, R224): bundles are walked from address 0. -/
def State.bundleNumber (s : State) (p : Place) (pc : Nat) : Nat → Nat → Nat → Nat
  | 0, _, count => count
  | fuel + 1, addr, count =>
    if pc ≤ addr then count
    else
      match wordsToStop (fun k => s.codeWord p (addr + 4 * k)) 8 0 with
      | some n => s.bundleNumber p pc fuel (seqSucc addr n) (count + 1)
      | none => count

/-! ### The fault record (R326) -/

def Cause.code : Cause → Nat
  | .illegal => 1 | .bundle => 2 | .auth => 3 | .empty => 4 | .untag => 5 | .bound => 6 | .perm => 7 | .stale => 8
  | .space => 9 | .align => 10 | .idiv => 11 | .kitty => 12 | .represent => 13 | .swtrap => 14

/-- The 512 bits of a fault record. -/
def frecBits (i : TrapInfo) (bundles : W64) : BitVec 512 :=
  let flags := (if i.post then 1 else 0) + (if i.port then 2 else 0) + (if i.replay then 4 else 0) +
    (if i.lanes.isSome then 8 else 0) + (if i.cap.isSome then 16 else 0) + (if i.extent.isSome then 32 else 0)
  BitVec.ofNat 512
    (i.cause.code + i.unit.code.toNat * 2 ^ 8 + flags * 2 ^ 16 + i.baddr % 2 ^ 32 * 2 ^ 32 + i.raddr % 2 ^ 32 * 2 ^ 64 +
      (i.lanes.getD 0).toNat * 2 ^ 96 + (i.cap.getD 0).toNat * 2 ^ 128 + i.addr.toNat * 2 ^ 256 +
      i.index % 2 ^ 16 * 2 ^ 320 + i.extent.getD 0 % 2 ^ 32 * 2 ^ 336 + bundles.toNat * 2 ^ 384 + i.code.toNat * 2 ^ 448)

/-- A trap of the current bundle with nothing but its cause and unit. -/
def Ctx.trapInfo (c : Ctx) (cause : Cause) (u : UnitId) : TrapInfo :=
  { cause := cause, unit := u, post := false, port := false, replay := false, lanes := none, cap := none, addr := 0,
    index := 0, extent := none, code := 0, baddr := c.pc, raddr := c.pc }

/-! ### The save area (R334) -/

/-- The launch's SAVE buffer. -/
def State.saveEntry (s : State) (l : Launch) : Option BufEntry :=
  match s.spaces.find? (fun sp => sp.asid == l.lrec.asid) with
  | some sp => sp.entry l.lrec.save
  | none => none

/-- The byte where a context's save area starts (R334). -/
def saveBase (p : Place) : Nat := 1048576 * (16 * p.clord + 2 * p.core + p.slot)

/-- The 64 bytes of the save header (R334). -/
def saveHeader (c : Ctx) (stop livep : Nat) (fatal : Bool) : List Byte :=
  natToBytes 64
    (0x4B565331 + 1 * 2 ^ 32 + stop * 2 ^ 48 +
      ((if c.handler then 1 else 0) + (if c.ports.isEmpty then 0 else 2) + (if fatal then 4 else 0)) * 2 ^ 56 +
      c.pc % 2 ^ 32 * 2 ^ 64 + livep % 2 ^ 32 * 2 ^ 96 + c.st.bundles.toNat * 2 ^ 128 + c.place.zown.toNat * 2 ^ 192 +
      (c.place.l1.toNat + c.place.own.toNat * 2 ^ 16) * 2 ^ 224)

/-- The regions of the plan live at bundle number `p`, as local-array ranges (R222, R224). -/
def liveRegions (img : ImageInfo) (p : Nat) : List (Nat × Nat) :=
  (img.plan.filter (fun e => e.first ≤ p && p ≤ e.last)).map
    (fun e => (bankBytes * e.bank + 48 * e.off, 48 * e.size))

/-- Copy a local-array range to home memory with its tags, tested while a sweep is active (R342). -/
def State.saveRange (s : State) (k : Core) (asid map dst o n : Nat) : State :=
  let s1 := s.memWrite map dst (k.laRead o n)
  (List.range (n / 16)).foldl (fun s g =>
    if k.laTags.contains (o / 16 + g) then s.setTag map (dst + 16 * g) (s.enter asid (k.laReadCap (o + 16 * g))).tag
    else s) s1

/-- Write the save area of a context that stands on core `k` (R334): header, fault record, the areas of its files, queues and
logs, owned tiles, live scratchpad, and zeros to its end. -/
def State.writeSave (s : State) (c : Ctx) (k : Core) (stop : Nat) (fatal : Bool) : State :=
  match s.launchOf c.place.launch with
  | none => s
  | some l =>
    match s.saveEntry l with
    | none => s
    | some e =>
      let b := saveBase c.place
      let p := s.bundleNumber c.place c.pc (c.place.segBlocks * 63) 0 0
      let s0 := (extentsOf b 1048576).foldl (fun s x => s.touchExtent e x) s
      let s1 := s0.memWrite e.extmap b (saveHeader c stop p fatal)
      let cards := k.cards.filter (fun x => x.slot == c.place.slot && x.launch == c.place.launch)
      let s2 := (c.saveAreas cards).foldl (fun s (x : Nat × List Byte) => s.memWrite e.extmap (b + x.1) x.2)
        (s1.memWrite e.extmap (b + 0x40) (natToBytes 64 c.st.frec.toNat))
      let s3 := (setBits 32 c.place.zown.toNat).foldl (fun s z =>
        s.memWrite e.extmap (b + 0x1F000 + 4096 * z)
          (natToBytes 4096 (vget k.tiles z ⟨0, true, 0, none⟩).val.toNat)) s2
      let s4 := (liveRegions l.img p).foldl (fun s r =>
        s.saveRange k e.owner e.extmap (b + 0x3F000 + r.1) r.1 r.2) s3
      s4.memWrite e.extmap (b + 0xFF000) (List.replicate 4096 0)

/-! ### Fatal faults and traps (R327, R328, R337, R338) -/

def Access.isLoad (x : Access) : Bool :=
  match x.op with
  | .load _ _ => true | .vload _ => true | .wload _ _ => true | .lcap _ => true
  | .store => false | .scap _ => false | .amo _ _ _ => false | .cas _ _ => false | .wsadd _ => false
  | .spawn => false | .join _ => false | .fence _ => false

/-- Whether a launch is under an abort. -/
def State.abortOn (s : State) (id : Nat) : Bool :=
  s.launches.any (fun l => l.id == id && (match l.state with
    | .aborting _ _ => true
    | .running => false
    | .stopped _ => false))

/-- Whether every context of a launch has left its core, and every card too: one stopped whole holds no clusters then
(R310). -/
def State.allGone (s : State) (id : Nat) : Bool :=
  s.allCtx.all (fun c => c.place.launch != id || !c.phase.occupied) &&
  (s.core :: s.cores).all (fun (k : Core) => k.cards.all (fun (c : Card) => c.launch != id))

/-- A launch whose abort starts in this cycle, or in which another context freezes under its abort: at the end of the cycle
d60 in every context of it (R321), the rest ended TIMEOUT ticks after the start (R338). -/
def State.abortLaunch (s : State) (id cause : Nat) : State :=
  (s.note (if s.abortOn id then .again id else .abort id)).modLaunch id (fun l =>
    match l.state with
    | .aborting _ _ => l
    | .running => { l with state := .aborting cause (s.ticks + l.lrec.timeout) }
    | .stopped _ =>
      { l with
        state := .aborting cause (s.ticks + l.lrec.timeout)
        clusters := if s.allGone id then [] else l.clusters })

/-- The context freezes: it issues no further bundle, its due entries and outstanding loads are discarded, a `crev` that has
issued goes on, the dump of its state is owed until what it has issued has run to its end, its launch's abort starts with
CAUSE 0x10, and its groups see it FAULTED (R337 to R339, R372). -/
def State.freeze (s : State) : State :=
  let s2 := s.onCtx (fun c => { c with
    phase := .frozen, due := [], ports := [], wait := { CtxWait.clear with crev := c.wait.crev }
    st := { c.st with dump := true }
    mem := { c.mem with outs := c.mem.outs.filter (fun x => !x.isLoad), pend := [] } })
  (s2.abortLaunch s2.ctx.place.launch 0x10).launchFaulted s2.ctx.place.launch s2.ctx.place.asid

/-- The fatal dump of the current context, frozen: its state with STOP = 0x10 and FATAL = 1 (R337). -/
def State.writeDump (s : State) : State :=
  (s.writeSave s.ctx s.core 0x10 true).onCtx (fun c => { c with st := { c.st with dump := false } })

/-- A bundle's accumulator at its start. -/
def Ctx.freshBun (c : Ctx) (seqNext : Nat) : Bun :=
  { trap := none, path := c.path, rm := c.st.rm, next := none, decided := false, post := none, seqNext := seqNext,
    hand := c.handler, late := false }

/-- Taking a trap: the fault record is written; with a handler and outside handler mode the pending due entries are
held (they keep their program mark and stop counting), the path taint is saved and emptied, and the next bundle issues
at HANDLER (R327). Otherwise the context faults fatally (R328). -/
def State.takeTrap (s : State) (i : TrapInfo) : State :=
  let s1 := s.onCtx (fun c => { c with st := { c.st with frec := frecBits i c.st.bundles } })
  match s.ctx.handler, s.ctx.place.handler with
  | false, some h =>
    s1.onCtx (fun c =>
      let c1 := { c with handler := true, savedPath := c.path, path := 0, pc := h, bubblesLeft := 0 }
      { c1 with bun := c1.freshBun h })
  | true, _ => s1.freeze
  | false, none => s1.freeze

/-- A precise trap raised by a word on its operands: the trap is taken, and the bundle's accumulator names it, so that
the step undoes the other words of the bundle (R16, R95). -/
def raise (s : State) (i : TrapInfo) : Out :=
  .next ((s.takeTrap i).onCtx (fun c => { c with bun := { c.bun with trap := some i } }))

/-- A precise trap with its cause and unit only. -/
def raiseC (s : State) (cause : Cause) (u : UnitId) : Out := raise s (s.ctx.trapInfo cause u)

/-- A precise trap of M or S, or of a kitty: BOUND with the lowest offending local-array offset (R163). -/
def raiseLa (s : State) (u : UnitId) (o : Nat) : Out :=
  raise s { s.ctx.trapInfo .bound u with addr := BitVec.ofNat 64 o }

/-- The trap of a failed capability check (R204, R326). -/
def Ctx.checkTrap (c : Ctx) (u : UnitId) (cap : CapV) (f : CheckFail) (lanes : Option (BitVec 32)) : TrapInfo :=
  { c.trapInfo f.cause u with
    cap := some cap.bits, lanes := lanes, addr := BitVec.ofInt 64 f.addr, index := cap.index
    extent := match f.ent with
      | some e => (match e.kind with
        | .memory => if 0 ≤ f.addr then some (f.addr.toNat / extentBytes) else none
        | .code => if 0 ≤ f.addr then some (f.addr.toNat / extentBytes) else none
        | .local => none
        | .reserved => none)
      | none => none }

def raiseCheck (s : State) (u : UnitId) (cap : CapV) (f : CheckFail) : Out := raise s (s.ctx.checkTrap u cap f none)

/-- Leaving handler mode in modes 0..2 of `rett`: the handler's entries become visible at once, the held entries count
again, and the saved path taint comes back (R29, R330). The words of higher units in the bundle of the `rett` read what
has become visible. (DESIGN CHOICE, log 91.) -/
def Ctx.leaveHandler (c : Ctx) : Ctx :=
  let c1 := c.landHandler
  { c1 with handler := false, bun := { c1.bun with path := c1.savedPath } }

/-- RADDR and BADDR of the fault record (R326). -/
def Ctx.frecRaddr (c : Ctx) : Nat := natField c.st.frec.toNat 64 32
def Ctx.frecBaddr (c : Ctx) : Nat := natField c.st.frec.toNat 32 32
def Ctx.frecCause (c : Ctx) : Nat := natField c.st.frec.toNat 0 8
def Ctx.frecFlags (c : Ctx) : Nat := natField c.st.frec.toNat 16 8

/-! ### The end of a continuation (R106) -/

/-- The effects of `halt` on the context (R106, R242, R330): no further bundle; due entries, load results and held port
faults discarded; pins released; handler mode left. Issued stores, cards and M operations go on, and a `crev` that has
issued (R339). -/
def Ctx.endCtx (c : Ctx) (ph : Phase) : Ctx :=
  { c with phase := ph, due := [], wait := { CtxWait.clear with crev := c.wait.crev }, handler := false, ports := []
           mem := { c.mem with outs := c.mem.outs.filter (fun x => !x.isLoad), pend := [], lqA := [], lqI := [],
                               lqVA := [], lqVB := [], pins := Vector.replicate 8 none, xlats := [] } }

end Sys2Proof.Machine
end

