-- ==== Sys2Proof/Machine/Cache.lean ====
section
/-! DEFINITION. The cluster cache with its epoch clock, the L1s, residency of extents, and the reads and writes of
memory that go through them or act at the home (R207, R237, R238, R259, R261, R268). -/

namespace Sys2Proof.Machine

open Sys2Proof

/-- The lines that bytes `a .. a+n-1` touch. -/
def linesOf (a n : Nat) : List Nat :=
  if n = 0 then [] else (List.range ((a + n - 1) / lineBytes - a / lineBytes + 1)).map (· + a / lineBytes)

/-- Whether a peer answers (R369): some link of this module is up, and the peer is not known to have gone: its links down,
or the module off. (DEDUCED, log 60.) -/
def State.peerAnswers (s : State) (peer : Nat) : Bool :=
  s.links.any (fun l => l.up) && !s.away.any (fun p => p.1 == peer)

/-- Whether an extent holds an access (R238, R369). -/
def State.extentHolds (s : State) (map ext : Nat) : Bool :=
  match s.extent map ext with
  | none => true
  | some e =>
    match e.state with
    | .hbm => false
    | .scm => true
    | .absent => true
    | .remote => !s.peerAnswers e.peer || s.pausedBy.contains (map, ext)

/-- Whether the home of some line of the range lies on a shed stack (R394). -/
def State.homeShed (s : State) (e : BufEntry) (a n : Nat) : Bool :=
  !s.power.shed.isEmpty && (linesOf a n).any (fun l => s.power.shed.contains (stackOf e (l * lineBytes)))

/-- Whether the dirty bytes of a line can be written at their home now: not where the holder of a remote extent does not
answer (R369), nor where the home is shed (R394). -/
def State.lineReach (s : State) (x : Line) : Bool :=
  let a := x.line * lineBytes
  x.dirty.isEmpty ||
  ((match s.extent x.map (a / extentBytes) with
    | some e => (match e.state with
      | .remote => !s.extentHolds x.map (a / extentBytes)
      | .hbm => true | .scm => true | .absent => true)
    | none => true) &&
   (match s.entryOfMap x.map with
    | some e => !s.homeShed e a lineBytes
    | none => true))

/-- Whether an access to `n` bytes at `a` is held or logged (R238, R394). -/
def State.nonResident (s : State) (e : BufEntry) (a n : Nat) : Bool :=
  (extentsOf a n).any (fun x => s.extentHolds e.extmap x) || s.homeShed e a n

/-- Whether an engine's access to a range must wait: its home is shed, or its holder does not answer (R369, R394). -/
def State.engineHeld (s : State) (e : BufEntry) (a n : Nat) : Bool :=
  s.homeShed e a n ||
  (extentsOf a n).any (fun x =>
    match s.extent e.extmap x with
    | some y => y.state == .remote && s.extentHolds e.extmap x
    | none => false)

/-- A line fill steps the access counter of its extent (R241), which stays at 65,535 once it is there. (DESIGN CHOICE,
log 122.) -/
def State.countFill (s : State) (map ext : Nat) : State :=
  s.modExtent map ext (fun e => { e with counter := min 65535 (e.counter + 1) })

/-! ### The port check (R205) -/

/-- Banks of a core's array owned as scratchpad by a live context of an ASID (R205). (DEDUCED, log 87.) -/
def State.bankOwned (s : State) (core asid bank : Nat) : Bool :=
  s.allCtx.any (fun c => c.place.cluster == s.clus.num && c.place.core == core && c.place.asid == asid &&
    c.phase.occupied && c.place.own.getLsbD bank)

def State.portOkLocal (s : State) (core asid : Nat) (o n : Nat) : Bool :=
  (List.range n).all (fun i => decide (o + i < arrayBytes) && s.bankOwned core asid ((o + i) / bankBytes))

/-- Whether a context of any ASID stands on a core with a bank of its array. -/
def State.bankHeld (s : State) (core bank : Nat) : Bool :=
  s.allCtx.any (fun c => c.place.cluster == s.clus.num && c.place.core == core && c.phase.occupied && c.place.own.getLsbD bank)

/-- Whether a key state is LIVE (R350). -/
def KeyState.isLive : KeyState → Bool
  | .live _ => true | .sealed _ => false | .held _ => false | .retired => false

/-- The name of the key at an index, when it is LIVE; key 0 is the device's own (R350). -/
def State.keySerial (s : State) (k : Nat) : Option Nat :=
  if k = 0 then some 0 else (s.keys.find? (fun (x : KeyRec) => x.index == k && x.st.isLive)).map (fun x => x.serial)

/-- The port check of a memory or code buffer: the frame records of its extents; a buffer whose key is not LIVE is not
reached (R205, R350). -/
def State.portOkMem (s : State) (e : BufEntry) (a n : Nat) : Bool :=
  (s.keySerial e.key).isSome && (extentsOf a n).all (fun x =>
    match s.extent e.extmap x with
    | some f => f.owner == e.owner && f.world == e.world
    | none => false)

/-- The port check of an access of the current cluster to `n` bytes at `a`. (DEDUCED, log 74.) -/
def State.portOk (s : State) (e : BufEntry) (loc : Loc) (a n : Nat) : Bool :=
  (match loc with
   | .loc core => s.portOkLocal core s.table.asid a n
   | .mem _ => s.portOkMem e a n) && (s.clus.world || !e.world)

/-- The port check of a card's access. A card runs to completion after its context has ended (R106): the banks that its
context owned stay open to it, and to no other access, until another context owns them. (DEDUCED, log 87.) -/
def State.portOkCard (s : State) (c : Card) (e : BufEntry) (loc : Loc) (a n : Nat) : Bool :=
  match loc with
  | .mem _ => s.portOk e loc a n
  | .loc core =>
    s.portOk e loc a n ||
    ((List.range n).all (fun i => decide (a + i < arrayBytes) &&
      (s.bankOwned core s.table.asid ((a + i) / bankBytes) ||
        (core == s.core.num && c.own.getLsbD ((a + i) / bankBytes) && !s.bankHeld core ((a + i) / bankBytes)))) &&
      (s.clus.world || !e.world))

/-! ### Lines (R261, R268) -/

/-- Whether two byte ranges meet. -/
def rangesMeet (a n b m : Nat) : Bool := decide (a < b + m) && decide (b < a + n) && n != 0 && m != 0

def findLine (l : List Line) (map n : Nat) : Option Line := l.find? (fun x => x.map == map && x.line == n)

/-- The dirty bytes of sector `k` of a line. -/
def Line.dirtyIn (x : Line) (k : Nat) : List Nat := x.dirty.filter (fun o => o / sectorBytes == k)

/-- Write the dirty bytes of a line at its home (R259, R261), with the tags of the granules they fill: a sector whose
bytes are all dirty in one piece, any other byte for byte. (DEDUCED, log 13.) -/
def State.writeBackLine (s : State) (x : Line) : State :=
  let a := x.line * lineBytes
  let s1 := (List.range 4).foldl (fun s k =>
    let d := x.dirtyIn k
    if d.length = sectorBytes then s.memWrite x.map (a + k * sectorBytes) ((x.bytes.drop (k * sectorBytes)).take sectorBytes)
    else d.foldl (fun s o => s.memWrite x.map (a + o) ((x.bytes.drop o).take 1)) s) s
  (List.range 12).foldl (fun s g =>
    if x.dirty.contains (16 * g) && (x.tags[g]?).getD false then s.setTag x.map (a + 16 * g) true else s) s1

def Line.clean (x : Line) : Line := { x with dirty := [] }

/-- Remove a line from every L1 of the current cluster. -/
def State.dropL1 (s : State) (map n : Nat) : State :=
  s.mapCores (fun k => { k with l1 := k.l1.filter (fun x => !(x.map == map && x.line == n)) })

/-- Write back one line and drop every copy of it in the current cluster. -/
def State.evictLine (s : State) (map n : Nat) : State :=
  match findLine s.clus.lines map n with
  | some x =>
    let s1 := s.writeBackLine x
    (s1.onClus (fun c => { c with lines := c.lines.filter (fun y => !(y.map == map && y.line == n)) })).dropL1 map n
  | none => s.dropL1 map n

/-- Write back the dirty sectors of every line of the current cluster's cache (R272). -/
def State.writeBackAll (s : State) : State :=
  let s1 := s.clus.lines.foldl State.writeBackLine s
  s1.onClus (fun c => { c with lines := c.lines.map Line.clean })

/-- The dirty bytes of the current cluster that can reach their homes are written there. -/
def State.writeBackReach (s : State) : State :=
  let out := s.clus.lines.filter s.lineReach
  (out.foldl State.writeBackLine s).onClus (fun c =>
    { c with lines := c.lines.map (fun x => if out.contains x then x.clean else x) })

/-- The epoch clock wraps (R268): every line is written back and invalidated, every perform epoch and floor of the
cluster's contexts becomes 0, WRAPS steps. -/
def State.epochWrap (s : State) : State :=
  let s1 := s.writeBackAll
  let s2 := (s1.onClus (fun c => { c with lines := [], clock := 0, wraps := min 65535 (c.wraps + 1) })).mapCores
    (fun k => { k with l1 := [] })
  s2.mapCtx (fun c => c.place.cluster == s.clus.num)
    (fun c => { c with mem := { c.mem with floor := 0, ids := vmap (fun x : LoadId => { x with pe := 0 }) c.mem.ids } })

/-- The sectors of line `n` that bytes `a .. a+m-1` touch: the unit of a fill (R4). -/
def sectorsOf (n a m : Nat) : List Bool :=
  (List.range 4).map (fun k => rangesMeet a m (n * lineBytes + k * sectorBytes) sectorBytes)

/-- Whether a line holds the sectors asked for under an epoch of at least `need`. -/
def Line.serves (x : Line) (need : Nat) (sects : List Bool) : Bool :=
  decide (need ≤ x.epoch) && (sects.zip x.sects).all (fun (p : Bool × Bool) => !p.1 || p.2)

/-- Sectors of a line with their bytes and tags at its home. -/
def State.homeLine (s : State) (map n epoch : Nat) (sects : List Bool) : Line :=
  { map := map, line := n, epoch := epoch, bytes := s.memRead map (n * lineBytes) lineBytes,
    tags := (List.range 12).map (fun g => s.memTag map (n * lineBytes + 16 * g)), sects := sects, dirty := []
    bad := (List.range 4).filter (fun k =>
      (sects[k]?).getD false && s.poison.contains (memKey map (n * lineBytes + k * sectorBytes))) }

/-- The lines that a cluster cache of 768 KiB holds, and those of one L1 bank of 48 KiB (R3, R218). -/
def clusterLines : Nat := 4096
def bankLines : Nat := 256

/-- Room for one more line in a full cluster cache: the oldest line whose home is in reach goes there and leaves. -/
def State.makeRoom (s : State) : State :=
  if clusterLines ≤ s.clus.lines.length then
    match s.clus.lines.find? s.lineReach with
    | some x => s.evictLine x.map x.line
    | none => s
  else s

/-- Whether the fills of one access may go on: a full cache has lines whose homes are in reach, and a clock about to wrap
finds every dirty byte in reach of its home (R261, R268, R281). -/
def State.fillOk (s : State) : Bool :=
  (decide (s.clus.lines.length + 64 < clusterLines) || decide (64 ≤ (s.clus.lines.filter s.lineReach).length)) &&
  (decide (s.clus.clock + 64 < 65536) || s.clus.lines.all s.lineReach)

/-! ### The caches of a home (R3) -/

/-- The sets of the L2 of a stack, 32 slices of 1,024, and of its memory-side cache; both have 16 ways of lines. -/
def l2Sets : Nat := 32768
def mscSets : Nat := 131072
def homeWays : Nat := 16

/-- A cache of the homes takes a line: the oldest line of its set on its stack leaves where all 16 ways are in use. What the
caches hold is timing but for the access counter: a fill takes a line from the nearest, and only one from beyond them counts
(R241). (DESIGN CHOICE, log 128.) -/
def State.keepHome (s : State) (sets : Nat) (set : Nat → Nat → Nat) (l : List (Nat × Nat)) (k : Nat × Nat) : List (Nat × Nat) :=
  let place := fun (p : Nat × Nat) =>
    (stackOf ((s.entryOfMap p.1).getD default) (p.2 * lineBytes), set p.1 p.2 % sets)
  if l.contains k then l
  else if l.length < homeWays then l ++ [k]
  else
    match l.filter (fun p => place p == place k) with
    | [] => l ++ [k]
    | x :: r => (if homeWays ≤ (x :: r).length then l.filter (· != x) else l) ++ [k]

def State.keepL2 (s : State) (k : Nat × Nat) : State := { s with l2 := s.keepHome l2Sets Config.l2Set s.l2 k }
def State.keepMsc (s : State) (k : Nat × Nat) : State := { s with msc := s.keepHome mscSets Config.mscSet s.msc k }

/-- A fill passes the L2 and the memory-side cache of the home; the home of a remote extent is its holder's (R237). -/
def State.passHome (s : State) (map n : Nat) : State :=
  let k := (map, n)
  let ext := n * lineBytes / extentBytes
  if (s.extent map ext).any (fun e => e.state == .remote) then s.countFill map ext
  else
    let s1 := if s.l2.contains k || s.msc.contains k then s else s.countFill map ext
    (s1.keepL2 k).keepMsc k

/-- A fill (R4, R259, R268): the sectors are read at their home, the line is stamped with the clock, and the clock steps.
A copy of the line already there is written back and dropped first. (DESIGN CHOICE, log 12.) -/
def State.fill (s : State) (map n : Nat) (sects : List Bool) : State :=
  let s1 := (s.evictLine map n).makeRoom
  let x := s1.homeLine map n s1.clus.clock sects
  let s2 := (s1.onClus (fun c => { c with lines := c.lines ++ [x], clock := c.clock + 1 })).passHome map n
  if s2.clus.clock = 65536 then s2.epochWrap else s2

/-- The L1 of the current core takes a copy of a line, and gives up the oldest where its banks are full (R218). -/
def State.keepL1 (s : State) (x : Line) : State :=
  let cap := bankLines * popCount 16 s.ctx.place.l1.toNat
  let l := s.core.l1.filter (fun y => !(y.map == x.map && y.line == x.line))
  if s.ctx.place.l1 = 0 then s
  else { s with core := { s.core with l1 := (if cap ≤ l.length then l.drop 1 else l) ++ [x] } }

/-- The line of a load whose lines must carry a fill epoch of at least `need` (R265): from the L1, from the cluster
cache, or refetched. The L1 of the core keeps a copy when the core has one; a line whose fill made the clock wrap is
gone again (R268). -/
def State.loadLine (s : State) (map n need : Nat) (sects : List Bool) : State × Line :=
  match (findLine s.core.l1 map n).filter (fun x => x.serves need sects) with
  | some x => (s, x)
  | none =>
    let s1 := match (findLine s.clus.lines map n).filter (fun x => x.serves need sects) with
      | some _ => s
      | none => s.fill map n sects
    match findLine s1.clus.lines map n with
    | some x => (s1.keepL1 x, x)
    | none => (s1, s1.homeLine map n 0 sects)

/-- The bytes `a .. a+n-1` of a buffer as a load of the current context reads them, and the tag of the granule at `a`. -/
def State.loadBytes (s : State) (map a n need : Nat) : State × List Byte × Bool :=
  let (s1, ls) := (linesOf a n).foldl (fun acc l =>
    let (s', x) := acc.1.loadLine map l need (sectorsOf l a n)
    (s', acc.2 ++ [x])) (s, [])
  let off := a % lineBytes
  let bytes := (ls.flatMap (fun x => x.bytes))
  let tag := match ls with
    | x :: _ => (x.tags[off / 16]?).getD false
    | [] => false
  (s1, (bytes.drop off).take n, tag)

/-- Replace bytes of a line from offset `o`, clearing the tags they overlap, marking the bytes dirty; a sector whose bytes
have all been written is correct again (R414). -/
def Line.put (x : Line) (o : Nat) (bs : List Byte) (tag : Option Bool) : Line :=
  let hit := fun g => decide (o < 16 * (g + 1)) && decide (16 * g < o + bs.length)
  let y := { x with
    bytes := x.bytes.take o ++ bs ++ x.bytes.drop (o + bs.length)
    tags := (List.range 12).map (fun g => if hit g then tag.getD false else (x.tags[g]?).getD false)
    dirty := (List.range bs.length).foldl (fun d i => NatSet.insert d (o + i)) x.dirty }
  { y with bad := x.bad.filter (fun k => (y.dirtyIn k).length != sectorBytes) }

/-- Store bytes that lie in one line into the cluster cache (R259, R261): their sectors are filled when they are absent,
every L1 copy of the line is dropped. Where the fill made the clock wrap, the bytes go to the home. -/
def State.storeLine (s : State) (map a : Nat) (bs : List Byte) (tag : Option Bool) : State :=
  let n := a / lineBytes
  let s1 := match (findLine s.clus.lines map n).filter (fun x => x.serves 0 (sectorsOf n a bs.length)) with
    | some _ => s
    | none => s.fill map n (sectorsOf n a bs.length)
  match findLine s1.clus.lines map n with
  | some _ =>
    (s1.onClus (fun c => { c with lines := c.lines.map (fun x =>
      if x.map == map && x.line == n then x.put (a % lineBytes) bs tag else x) })).dropL1 map n
  | none =>
    let s2 := s1.memWrite map a bs
    match tag with
    | some true => s2.setTag map a true
    | some false => s2
    | none => s2

/-- Store bytes that may cross lines: split at each line boundary, in at most `fuel` parts. -/
def State.storeBytes (s : State) (map a : Nat) (bs : List Byte) (tag : Option Bool) : Nat → State
  | 0 => s
  | fuel + 1 =>
    if bs = [] then s
    else
      let n := lineBytes - a % lineBytes
      (s.storeLine map a (bs.take n) tag).storeBytes map (a + n) (bs.drop n) tag fuel

/-! ### Actions at the home by engines (R236, R249) -/

/-- Prepare lines of a range for an action at their home: dirty bytes of the current cluster are written back and the
copies dropped. (DEDUCED, log 76.) -/
def State.homeReady (s : State) (map a n : Nat) : State :=
  (linesOf a n).foldl (fun s l =>
    match findLine s.clus.lines map l with
    | some _ => s.evictLine map l
    | none => s.dropL1 map l) s

/-- Write the dirty bytes of a range back without dropping the lines (R249: before a card reads). -/
def State.homeFlush (s : State) (map a n : Nat) : State :=
  let hit := fun x : Line => x.map == map && decide (x.line * lineBytes < a + n) && decide (a < (x.line + 1) * lineBytes)
  let s1 := (s.clus.lines.filter hit).foldl State.writeBackLine s
  s1.onClus (fun c => { c with lines := c.lines.map (fun x => if hit x then x.clean else x) })

/-- Bytes of a buffer read or written by a unit of the device: in the array of core `k` of the current cluster, or at
home. -/
def State.devRead (s : State) (loc : Loc) (a n : Nat) : List Byte :=
  match loc with
  | .loc k => (s.coreAt k).laRead a n
  | .mem map => s.memRead map a n

/-- Whether an aligned 8-byte word of the array lies in a live entry of one of a context's kitties (R295, R296). -/
def Ctx.liveWord (c : Ctx) (w : Nat) : Bool :=
  c.st.kitty.toList.any (fun (k : Kitty) =>
    decide (k.base ≤ w / 6) && decide (w / 6 < k.base + k.cap) &&
    decide ((w / 6 - k.base + k.cap - k.head) % k.cap < k.count))

/-- The words under a store to a core's array that keep what a live kitty entry holds: a free choice for each (R296). -/
def State.keptWords (s : State) (core o n : Nat) : List Nat :=
  if n = 0 then []
  else ((List.range ((o + n - 1) / 8 - o / 8 + 1)).map (· + o / 8)).filter (fun w =>
    s.allCtx.any (fun c => c.phase == Phase.running && c.place.cluster == s.clus.num && c.place.core == core &&
      c.liveWord w) && Config.freeWord s.draws w)

/-- A store to a core's array, by any party (R197, R296). -/
def State.laPut (s : State) (core o : Nat) (bs : List Byte) : State :=
  let kept := s.keptWords core o bs.length
  s.modCore core (fun k => kept.foldl (fun (x : Core) w =>
    { x with la := Memory.write x.la (8 * w) (Memory.read k.la (8 * w) 8) }) (k.laWrite o bs))

/-- A capability stored to a granule of a core's array: it keeps its tag where both of its words take it. -/
def State.laPutCap (s : State) (core o : Nat) (v : CapV) : State :=
  if (s.keptWords core o 16).isEmpty then s.modCore core (fun k => k.laWriteCap o v)
  else s.laPut core o (natToBytes 16 v.bits.toNat)

def State.devWrite (s : State) (loc : Loc) (a : Nat) (bs : List Byte) : State :=
  match loc with
  | .loc k => s.laPut k a bs
  | .mem map => s.memWrite map a bs

def State.devReadCap (s : State) (loc : Loc) (a : Nat) : CapV :=
  match loc with
  | .loc k => (s.coreAt k).laReadCap a
  | .mem map => s.memReadCap map a

def State.devWriteCap (s : State) (loc : Loc) (a : Nat) (v : CapV) : State :=
  match loc with
  | .loc k => s.laPutCap k a v
  | .mem map => s.memWriteCap map a v

/-- Where byte `a` of an entry's buffer lies for the current core (R219), and its address there. -/
def BufEntry.loc (e : BufEntry) (core a : Nat) : Loc × Nat :=
  match e.kind with
  | .local => (.loc (if e.home = 15 then core else e.home), 48 * e.loff + a)
  | .memory => (.mem e.extmap, a)
  | .code => (.mem e.extmap, a)
  | .reserved => (.mem e.extmap, a)

/-- The space in which a capability in the granule at `a` is judged (R341): its buffer's owner, or the ASID that owns the
bank. -/
def State.spaceAt (s : State) (loc : Loc) (a : Nat) (e : BufEntry) : Nat :=
  match loc with
  | .mem _ => e.owner
  | .loc k => (vget (s.coreAt k).bankAsid (a / bankBytes) none).getD s.table.asid

/-- A capability that enters the granule at `a`, tested while a sweep is active (R342). -/
def State.enterAt (s : State) (loc : Loc) (a : Nat) (e : BufEntry) (v : CapV) : CapV := s.enter (s.spaceAt loc a e) v

/-- Whether a local buffer resolves to the given core's own array (R219). -/
def BufEntry.isOwn (e : BufEntry) (core : Nat) : Bool := e.isLocal && (e.home == 15 || e.home == core)

end Sys2Proof.Machine
end

