-- ==== Sys2Proof/Machine/Access.lean ====
section
/-! DEFINITION. Accesses: how a memory word puts one into its context's queue, when it may perform, and what performing
does (R225, R235, R238 to R240, R259 to R273). -/

namespace Sys2Proof.Machine

open Sys2Proof

/-! ### Load ids (R225, R264, R267) -/

/-- The taint sets of the tiles a context owns, joined. -/
def Core.tileTaints (k : Core) (own : BitVec 32) : Taint :=
  orT ((setBits 32 own.toNat).map (fun z => (vget k.tiles z Tile.zero).taint))

def idAt (c : Ctx) (k : Nat) : LoadId := vget c.mem.ids k ⟨false, 0⟩

/-- Free load ids, lowest first. -/
def Ctx.freeIds (c : Ctx) : List Nat := (List.range 16).filter (fun k => !(idAt c k).held)

/-- A card of the current context. -/
def Card.of (k : Card) (c : Ctx) : Bool := k.slot == c.place.slot && k.launch == c.place.launch

/-- Every taint set of the context that a new load id looks at (R264): its registers, queues, accesses and M operations,
the tiles it owns and its cards. -/
def State.idTaints (s : State) : Taint :=
  s.ctx.allTaints ||| s.core.tileTaints s.ctx.place.zown |||
    orT ((s.core.cards.filter (fun k => k.of s.ctx)).map (fun k => k.taint))

/-- The flash clear of R26 in the core: the tiles that the context owns and its cards. -/
def Core.clearId (k : Core) (c : Ctx) (id : Nat) : Core :=
  { k with
    tiles := (setBits 32 c.place.zown.toNat).foldl (fun v z =>
      vmod v z (fun t : Tile => { t with taint := dropBit id t.taint })) k.tiles
    cards := k.cards.map (fun x => if x.of c then { x with taint := dropBit id x.taint } else x) }

/-- Take a load id (R264) for a load whose own taint sets hold `t`: the lowest free id whose bit no taint set holds, else
the lowest free id, with F raised to its perform epoch first (R267). Its bit is cleared in every taint set of the context
(R26). -/
def State.allocId (s : State) (t : Taint) : Nat × State :=
  let c := s.ctx
  let ts := t ||| s.idTaints
  let fr := c.freeIds
  let k := match fr.find? (fun k => !natBit ts.toNat k) with
    | some k => k
    | none => (fr.head?).getD 0
  let c1 := if natBit ts.toNat k then
      { c with mem := { c.mem with floor := max c.mem.floor (idAt c k).pe } } else c
  let c2 := c1.clearId k
  let c3 := { c2 with mem := { c2.mem with ids := vmod c2.mem.ids k (fun x => { x with held := true }) } }
  (k, { s with ctx := c3, core := s.core.clearId c k })

/-! ### Classes of access -/

/-- Whether an access returns a value to its context: it takes a load id, and holds the context when its extent is not
resident (R238). -/
def AccOp.returns : AccOp → Bool
  | .load _ _ => true | .vload _ => true | .wload _ _ => true | .lcap _ => true
  | .store => false | .scap _ => false | .amo _ _ r => r | .cas _ _ => true | .wsadd _ => false
  | .spawn => false | .join _ => false | .fence _ => false

/-- Whether an access only reads. -/
def AccOp.reads : AccOp → Bool
  | .load _ _ => true | .vload _ => true | .wload _ _ => true | .lcap _ => true
  | .store => false | .scap _ => false | .amo _ _ _ => false | .cas _ _ => false | .wsadd _ => false
  | .spawn => false | .join _ => false | .fence _ => false

def AccOp.isFence : AccOp → Bool
  | .fence _ => true
  | .load _ _ => false | .vload _ => false | .wload _ _ => false | .lcap _ => false
  | .store => false | .scap _ => false | .amo _ _ _ => false | .cas _ _ => false | .wsadd _ => false
  | .spawn => false | .join _ => false

/-- Whether an access is an atomic: it reads and writes in one action (R232, R233). -/
def AccOp.isAtomic : AccOp → Bool
  | .amo _ _ _ => true | .cas _ _ => true | .wsadd _ => true
  | .load _ _ => false | .vload _ => false | .wload _ _ => false | .lcap _ => false
  | .store => false | .scap _ => false | .spawn => false | .join _ => false | .fence _ => false

/-- Whether two accesses share a byte. -/
def Access.overlaps (x y : Access) : Bool :=
  x.loc == y.loc && x.pieces.any (fun p => y.pieces.any (fun q => rangesMeet p.addr x.size q.addr y.size))

/-- Whether an access touches a sector that another one touches (R240). -/
def Access.sectorMeets (x y : Access) : Bool :=
  x.loc == y.loc && x.pieces.any (fun p => y.pieces.any (fun q =>
    decide (p.addr / sectorBytes ≤ (q.addr + y.size - 1) / sectorBytes) &&
    decide (q.addr / sectorBytes ≤ (p.addr + x.size - 1) / sectorBytes)))

/-- Whether an access meets a non-resident extent or a shed home (R238, R394). -/
def State.accNonResident (s : State) (x : Access) : Bool :=
  match x.loc, x.ent with
  | .mem _, some e => x.pieces.any (fun p => s.nonResident e p.addr x.size)
  | .mem _, none => false
  | .loc _, _ => false

/-! ### Issue (R235, R238, R240) -/

/-- An access of the current bundle with everything but its operation, place and data. -/
def Ctx.access (c : Ctx) (op : AccOp) (unit : UnitId) (at_ : Taint) (dt : Taint) : Access :=
  { op := op, loc := .mem 0, pieces := [], size := 0, ent := none, index := 0, id := none, addrTaint := at_ ||| c.path,
    dataTaint := dt, rel := none, acq := none, baddr := c.pc, unit := unit, hand := c.bun.hand, seq := 0,
    hold := false }

/-- A half of an atomic's ordering (R273): a fence of its own, before the atomic or after it. -/
def Ctx.fenceHalf (c : Ctx) (x : Access) (rel acq : Option Scope) (after : Option Nat) : Access :=
  { c.access (.fence after) x.unit 0 0 with addrTaint := 0, rel := rel, acq := acq }

/-- The data of an access of one piece. -/
def Access.data1 (x : Access) : Nat :=
  match x.pieces with
  | p :: _ => p.data
  | [] => 0

/-- The tag with which a `scap` enters its granule (R341, R342). -/
def State.scapTag (s : State) (x : Access) (t : Bool) : Bool :=
  let a := ((x.pieces.head?).map (fun (p : Piece) => p.addr)).getD 0
  match x.ent with
  | some e => (s.enterAt x.loc a e ⟨BitVec.ofNat 128 x.data1, t⟩).tag
  | none => (s.enter s.ctx.place.asid ⟨BitVec.ofNat 128 x.data1, t⟩).tag

/-- An access as it enters the side log: the capability of a `scap` is tested while a sweep is active (R342). -/
def State.intoLog (s : State) (x : Access) : Access :=
  match x.op with
  | .scap t => { x with op := .scap (s.scapTag x t) }
  | .load _ _ => x | .vload _ => x | .wload _ _ => x | .lcap _ => x | .store => x | .amo _ _ _ => x | .cas _ _ => x
  | .wsadd _ => x | .spawn => x | .join _ => x | .fence _ => x

/-- Put an access at the end of the outstanding ones, or of the side log, at the next place of the issue order. -/
def State.append (s : State) (x : Access) (toLog hold : Bool) : State :=
  let m := { s.ctx.mem with aseq := s.ctx.mem.aseq + 1 }
  let x1 := { x with seq := s.ctx.mem.aseq, hold := hold }
  s.withCtx { s.ctx with mem := if toLog then { m with slog := m.slog ++ [s.intoLog x1] } else { m with outs := m.outs ++ [x1] } }

/-- Put an access into its context's queue: an access that returns a value on a non-resident extent, and a load on a
logged sector, hold the context; a store or atomic on a logged sector, and one without return on a non-resident extent,
retire into the side log; every other one is outstanding. The halves of an atomic's ordering stand before and after it
(R238, R240, R273). -/
def State.enqueue (s : State) (x : Access) : State :=
  let s0 := if x.op.isFence || x.rel.isNone then s else s.append (s.ctx.fenceHalf x x.rel none none) false false
  let logged := s0.ctx.mem.slog.any (fun y => x.sectorMeets y)
  let nonres := s0.accNonResident x
  let s1 := s0.append x ((!x.op.reads && logged) || (!x.op.returns && nonres))
    ((x.op.returns && nonres) || (x.op.reads && logged))
  if x.op.isFence || x.acq.isNone then s1
  else s1.append (s.ctx.fenceHalf x none x.acq (some s0.ctx.mem.aseq)) false false

/-- The pieces of an access to one range of an entry's buffer. -/
def Access.at1 (x : Access) (core : Nat) (e : BufEntry) (index a size data : Nat) : Access :=
  let (l, o) := e.loc core a
  { x with loc := l, pieces := [⟨0, o, data⟩], size := size, ent := some e, index := index }

/-- Issue an access that takes a load id; its own id leaves its taint sets (R267). -/
def State.enqueueLoad (s : State) (x : Access) : Nat × State :=
  let (k, s1) := s.allocId (x.addrTaint ||| x.dataTaint)
  (k, s1.enqueue { x with id := some k, addrTaint := dropBit k x.addrTaint, dataTaint := dropBit k x.dataTaint })

/-- Reserve an entry at the tail of a load-data queue for load id `k` (R225). -/
def State.reserve (s : State) (d : DUnit) (k : Nat) : State :=
  s.onCtx (fun c => c.setLq d (c.lq d ++ [⟨k, none, idBit k⟩]))

/-- The core check of an access by the current context, with the bank test of sy.sbnd for local buffers at its BOUND
step (R204, R358). -/
def State.accCheck (s : State) (cap : CapV) (off : Int) (size need al : Nat) : Except CheckFail (BufEntry × Nat) :=
  match coreCheck s.table cap off size need al with
  | .error f => .error f
  | .ok (e, a) =>
    if e.isLocal && (List.range 16).any (fun b =>
        rangesMeet (48 * e.loff + a) size (b * bankBytes) bankBytes && !s.ctx.place.sbanks.getLsbD b) then
      .error ⟨.bound, a, some e⟩
    else .ok (e, a)

/-! ### When an access may perform (R240, R262 to R265, R272, R273) -/

/-- Whether a release must still wait for a card issued before place `seq` (R272): it waits until the card has completed,
even one held on a non-resident extent. -/
def State.cardsPending (s : State) (seq : Nat) : Bool :=
  s.core.cards.any (fun k => k.of s.ctx && decide (k.seq < seq))

/-- Accesses of the current context before place `seq`, logged ones included. -/
def Ctx.earlier (c : Ctx) (seq : Nat) : List Access :=
  (c.mem.outs ++ c.mem.slog).filter (fun y => decide (y.seq < seq))

/-- The ids of loads that an access waits for: ids in its taint sets held by another outstanding load (R265). -/
def Ctx.waitsId (c : Ctx) (x : Access) : Bool :=
  (List.range 16).any (fun k => natBit (x.addrTaint ||| x.dataTaint).toNat k && (idAt c k).held && x.id != some k)

/-- The fill epoch that the lines of a load must have: the floor and the perform epochs of its taint set (R265). -/
def Ctx.needEpoch (c : Ctx) (x : Access) : Nat :=
  (setBits 16 x.addrTaint.toNat).foldl (fun m k => max m (idAt c k).pe) c.mem.floor

/-- Whether an access writes a local array (R164). -/
def Access.writesArray (x : Access) : Bool :=
  match x.loc with
  | .loc _ => !x.op.reads
  | .mem _ => false

/-- Whether a scope reaches beyond the cluster (R272). -/
def scopeWide : Option Scope → Bool
  | some .co => false | some .cl => false | some .di => true | some .pk => true | some .dom => true | some .sy => true
  | none => false

/-- Whether an M operation reads or writes the local array or the grist (R164, R259). -/
def MOp.accesses : MOp → Bool
  | .zero _ _ => false
  | .pass _ _ _ _ _ _ _ _ _ _ _ _ => true
  | .read _ _ _ _ _ => true
  | .write _ _ _ _ _ _ => true
  | .stat _ _ => true

/-- Whether an M operation reads the local array or the grist: a load of R164. -/
def MOp.loads : MOp → Bool
  | .pass _ _ _ _ _ _ _ _ _ _ _ _ => true
  | .write _ _ _ _ _ _ => true
  | .zero _ _ => false
  | .read _ _ _ _ _ => false
  | .stat _ _ => false

/-! ### Stream descriptors and the array bytes of an M operation (R165, R167, R169, R179, R180) -/

def sdBase (d : BitVec 256) : Nat := natField d.toNat 0 16
def sdStride (d : BitVec 256) : Nat := natField d.toNat 16 16
def sdAtype (d : BitVec 256) : Nat := natField d.toNat 32 4
def sdAfmt (d : BitVec 256) : Nat := natField d.toNat 36 4
def sdBtype (d : BitVec 256) : Nat := natField d.toNat 40 4
def sdBfmt (d : BitVec 256) : Nat := natField d.toNat 44 4
def sdQa (d : BitVec 256) : Nat := natField d.toNat 48 4
def sdQb (d : BitVec 256) : Nat := natField d.toNat 52 4
def sdQen (d : BitVec 256) : Bool := natBit d.toNat 56

/-- The storage width of an operand type (R167); `fmt` is its descriptor when the type is `.q`. -/
def opSw (ty fmt : Nat) : Nat :=
  match ty with
  | 0 => 8 | 4 => 8 | 1 => 16 | 5 => 16 | 8 => 16 | 9 => 16 | 10 => 32 | 11 => 64
  | _ => if descWidth fmt ≤ 4 then 4 else 8

/-- The byte ranges of the local array that an M operation reads or writes, as offset and length (R169, R179, R180). -/
def MOp.prints : MOp → List (Nat × Nat)
  | .pass _ _ n _ _ d _ fa _ _ _ _ =>
    (List.range 32).map (fun i => (16 * (sdBase d + i * sdStride d), 8 * opSw (sdAtype d) fa.toNat * (n + 1)))
  | .zero _ _ => []
  | .read _ pair base stride _ => (List.range 32).map (fun i => (16 * (base + i * stride), if pair then 256 else 128))
  | .write _ form base stride _ _ => (List.range 32).map (fun i =>
      (16 * (base + (if form = .bc then 0 else i * stride)), if form = .pair then 256 else 128))
  | .stat base _ => [(16 * base, 48)]

/-- Whether an access touches bytes of an array that an M operation, queued before it and not started, reads or writes
(R164, R262). -/
def Ctx.mAhead (c : Ctx) (seq : Nat) (meets : Nat → Nat → Bool) : Bool :=
  c.mem.mq.any (fun e => e.run.isNone && decide (e.seq < seq) && e.op.prints.any (fun (r : Nat × Nat) => meets r.1 r.2))

/-- Whether an M operation issued before place `seq` is yet to end. -/
def Ctx.mPending (c : Ctx) (seq : Nat) : Bool := c.mem.mq.any (fun e => decide (e.seq < seq) && e.op.accesses)

/-- Whether a fence issued before place `seq` has yet to take effect (R272). -/
def Ctx.fenced (c : Ctx) (seq : Nat) : Bool := (c.earlier seq).any (fun y => y.op.isFence)

/-- Whether everything that the context issued before place `seq` has performed at a scope, and the dirty bytes of the
cluster can reach their homes where the scope asks for it (R272, R281). -/
def State.released (s : State) (sc : Option Scope) (seq : Nat) : Bool :=
  (s.ctx.earlier seq).isEmpty && !s.cardsPending seq && !s.ctx.mPending seq &&
  (!scopeWide sc || s.clus.lines.all s.lineReach)

/-- Whether an earlier access keeps the acquire of a fence from taking effect: a load, or the atomic that the fence
belongs to (R272, R273). -/
def Access.keepsBack (x y : Access) : Bool :=
  y.op.reads || y.op.returns || (match x.op with
    | .fence (some n) => y.seq == n
    | _ => false)

/-- Whether an access may perform now. -/
def State.mayPerform (s : State) (x : Access) : Bool :=
  let c := s.ctx
  let before := c.earlier x.seq
  if x.op.isFence then
    !c.fenced x.seq && (x.rel.isNone || s.released x.rel x.seq) && (x.acq.isNone ||
      (!before.any x.keepsBack && !c.mem.mq.any (fun e => decide (e.seq < x.seq) && e.op.loads)))
  else
    !before.any (fun y => y.op.isFence || y.overlaps x) &&
    !(x.op.reads && (c.mem.slog.filter (fun y => decide (y.seq < x.seq))).any (fun y => x.sectorMeets y)) &&
    !(!x.op.reads && x.loc == .loc c.place.core && c.mAhead x.seq (fun o n =>
      x.pieces.any (fun (p : Piece) => rangesMeet p.addr x.size o n))) &&
    !c.waitsId x && !s.accNonResident x && ((match x.loc with
      | .mem _ => s.fillOk
      | .loc _ => true))

/-- The release of a scope at the cluster (R272): writeback of every dirty sector for DI and wider. -/
def State.release (s : State) (sc : Option Scope) : State := if scopeWide sc then s.writeBackAll else s

/-- The acquire at the end of an access: F takes the cluster's clock (R267). -/
def State.acquire (s : State) (sc : Option Scope) : State :=
  if sc.isSome then s.onCtx (fun c => { c with mem := { c.mem with floor := s.clus.clock } }) else s

/-! ### Results of a performed access -/

/-- The old and new values of an integer atomic (R232). -/
def amoNew (op : AmoOp) (uns : Bool) (w m v : Nat) : Nat :=
  match op with
  | .add => iAdd w m v
  | .and => m &&& v
  | .or => m ||| v
  | .xor => m ^^^ v
  | .min => iMin uns w m v
  | .max => iMax uns w m v
  | .swap => v % 2 ^ w

/-- Deliver a value to the queue entry reserved under a load id (R225). -/
def Ctx.deliver (c : Ctx) (d : DUnit) (id : Nat) (v : QVal) : Ctx :=
  c.setLq d ((c.lq d).map (fun e => if e.id == id && e.data.isNone then { e with data := some v } else e))

/-- The id of a performed load records its perform epoch and becomes free (R264). -/
def State.freeId (s : State) (x : Access) : State :=
  match x.id with
  | none => s
  | some k => s.onCtx (fun c => { c with mem := { c.mem with ids := vmod c.mem.ids k (fun _ => ⟨false, s.clus.clock⟩) } })

/-- What a load delivers: `v` is the numbers of its pieces by lane. -/
def State.deliverLoad (s : State) (x : Access) (lanes : List (Nat × Nat)) (tag : Bool) : State :=
  let k := x.id.getD 0
  let v0 := (lanes.head?.map (·.2)).getD 0
  match x.op with
  | .load d ty => s.onCtx (fun c => c.deliver d k (.s (extend64 (!ty.uns) ty.w.bits v0)))
  | .vload u =>
    let f := fun i => ((lanes.find? (fun p => p.1 == i)).map (·.2)).getD 0
    s.onCtx (fun c => c.deliver u.dunit k (.v (vecOf 64 ((List.range 32).map f))))
  | .wload u ws64 =>
    s.onCtx (fun c => c.deliver u.dunit k (if ws64 then .w64 (BitVec.ofNat 2304 v0) else .w32 (BitVec.ofNat 2304 v0)))
  | .lcap d =>
    let shared := (x.ent.map (fun e => e.shared)).getD false
    let v := s.enter s.ctx.place.asid (loadTag shared ⟨BitVec.ofNat 128 v0, tag⟩)
    s.onCtx (fun c => c.putReg (.cap d v) (idBit k))
  | .amo _ ty ret => if ret then s.onCtx (fun c => c.deliver .a k (.s (extend64 (!ty.uns) ty.w.bits v0))) else s
  | .cas w _ => s.onCtx (fun c => c.deliver .a k (.s (extend64 false w.bits v0)))
  | .store => s
  | .scap _ => s
  | .wsadd _ => s
  | .spawn => s
  | .join _ => s
  | .fence _ => s

/-- Read the pieces of an access: lane and value, and the tag of the first piece's granule. -/
def State.readPieces (s : State) (x : Access) (need : Nat) : State × List (Nat × Nat) × Bool :=
  x.pieces.foldl (fun acc p =>
    match x.loc with
    | .loc k =>
      let bs := (s.coreAt k).laRead p.addr x.size
      (acc.1, acc.2.1 ++ [(p.lane, bytesToNat bs)], (s.coreAt k).laTags.contains (p.addr / 16))
    | .mem map =>
      let (s1, bs, t) := acc.1.loadBytes map p.addr x.size need
      (s1, acc.2.1 ++ [(p.lane, bytesToNat bs)], t)) (s, [], false)

/-- Write the pieces of a store in lane order; `tag` is the tag of a `scap` granule. -/
def State.writePieces (s : State) (x : Access) (tag : Option Bool) : State :=
  x.pieces.foldl (fun s p =>
    let bs := natToBytes x.size p.data
    match x.loc with
    | .loc k =>
      (match tag with
       | some t => s.laPutCap k p.addr ⟨BitVec.ofNat 128 p.data, t⟩
       | none => s.laPut k p.addr bs)
    | .mem map => s.storeBytes map p.addr bs tag 8) s

/-- An atomic at its home (R232, R233, R273): the cluster's copies are written back and dropped first. Answers the old
value. -/
def State.atHome (s : State) (x : Access) (f : Nat → Option Nat) : State × Nat :=
  let p := (x.pieces.head?).getD ⟨0, 0, 0⟩
  let s1 := match x.loc with
    | .mem map => s.homeReady map p.addr x.size
    | .loc _ => s
  let old := bytesToNat (s1.devRead x.loc p.addr x.size)
  match f old with
  | some new => (s1.devWrite x.loc p.addr (natToBytes x.size new), old)
  | none => (s1, old)

/-- The port fault of an access (R206): pending until the context's next bundle boundary. -/
def Ctx.portFault (c : Ctx) (x : Access) (replay : Bool) (a : Nat) : Ctx :=
  { c with ports := c.ports ++ [⟨{ c.trapInfo .perm x.unit with
      port := true, replay := replay, addr := BitVec.ofNat 64 a, index := x.index, baddr := x.baddr
      extent := match x.loc with
        | .mem _ => some (a / extentBytes)
        | .loc _ => none }, x.hand⟩] }

/-- The address of an access in its buffer, from its address in its location. -/
def Access.bufAddr (x : Access) (o : Nat) : Nat :=
  match x.loc, x.ent with
  | .loc _, some e => o - 48 * e.loff
  | .loc _, none => o
  | .mem _, _ => o

/-- The pieces that fail the port check. -/
def State.badPieces (s : State) (x : Access) : List Piece :=
  match x.ent with
  | none => []
  | some e => x.pieces.filter (fun p => !s.portOk e x.loc p.addr x.size)

/-- The blocks of the current context's own code segment that an access touches. -/
def State.codeHit (s : State) (x : Access) : List Nat :=
  let p := s.ctx.place
  match x.loc with
  | .loc _ => []
  | .mem map =>
    if map == p.segMap then
      (List.range p.segBlocks).filter (fun n =>
        x.pieces.any (fun (q : Piece) => rangesMeet q.addr x.size (p.segBase + 1024 * n) 1024))
    else []

/-- An access that has stored into its launch's own code stains those blocks (R78). -/
def State.stain (s : State) (x : Access) : State :=
  match s.codeHit x with
  | [] => s
  | l => { s with launches := s.launches.map (fun (y : Launch) =>
      if y.id == s.ctx.place.launch then { y with stained := (y.stained ++ l).eraseDups } else y) }

/-- What performing an access does to the machine, once nothing holds it back: port check (R205, R206), its effect, its
result. A load that fails the port check delivers zero, a store changes nothing. A fence releases and acquires (R272). -/
def State.performNow (s0 : State) (x : Access) (replay : Bool) : State :=
  let bad := s0.badPieces x
  let s1 :=
    match bad with
    | p :: _ =>
      (s0.deliverLoad x (x.pieces.map (fun (q : Piece) => (q.lane, 0))) false).onCtx
        (fun c => c.portFault x replay (x.bufAddr p.addr))
    | [] =>
      match x.op with
      | .store => (s0.stain x).writePieces x none
      | .scap t => (s0.stain x).writePieces x (some (s0.scapTag x t))
      | .amo op ty _ =>
        let (s2, old) := (s0.stain x).atHome x (fun m => some (amoNew op ty.uns ty.w.bits m x.data1))
        s2.deliverLoad x [(0, old)] false
      | .cas w n =>
        let (s2, old) := s0.atHome x (fun m => if m == x.data1 % 2 ^ w.bits then some (n % 2 ^ w.bits) else none)
        (if old == x.data1 % 2 ^ w.bits then s2.stain x else s2).deliverLoad x [(0, old)] false
      | .wsadd ws64 =>
        ((s0.stain x).atHome x (fun m => some (wsAddImage ws64 m x.data1))).1
      | .load _ _ =>
        let (s2, l, t) := s0.readPieces x (s0.ctx.needEpoch x)
        s2.deliverLoad x l t
      | .vload _ =>
        let (s2, l, t) := s0.readPieces x (s0.ctx.needEpoch x)
        s2.deliverLoad x l t
      | .wload _ _ =>
        let (s2, l, t) := s0.readPieces x (s0.ctx.needEpoch x)
        s2.deliverLoad x l t
      | .lcap _ =>
        let (s2, l, t) := s0.readPieces x (s0.ctx.needEpoch x)
        s2.deliverLoad x l t
      | .spawn => s0
      | .join _ => s0
      | .fence _ => (s0.release x.rel).acquire x.acq
  s1.freeId x

/-- Remove the access with a given place from the outstanding ones, or from the side log. -/
def Ctx.dropAccess (c : Ctx) (seq : Nat) : Ctx :=
  { c with mem := { c.mem with outs := c.mem.outs.filter (fun y => y.seq != seq),
                               slog := c.mem.slog.filter (fun y => y.seq != seq) } }

/-- A fence takes effect (R272) once nothing before it is left; other fences stay. -/
def State.settleFence (s : State) : State :=
  match s.ctx.mem.outs.find? (fun x => x.op.isFence) with
  | none => s
  | some x => if s.mayPerform x then (s.onCtx (fun c => c.dropAccess x.seq)).performNow x false else s

end Sys2Proof.Machine
end

