-- ==== Sys2Proof/Machine/Journal.lean ====
section
/-! DEFINITION. The error journal of a module (R412, R413) and the reading of an uncorrectable sector by a core (R414). -/

namespace Sys2Proof.Machine

open Sys2Proof

/-- Entries that the journal holds. -/
def errorJournalSize : Nat := 16777216

/-- The codes of SRC. -/
def jsrcCode : JSrc → Nat
  | .hbm => 0 | .scm => 1 | .l2 => 2 | .msc => 3 | .clusterCache => 4 | .localArray => 5 | .grist => 6 | .link => 7
  | .regulator => 8 | .thermal => 9 | .controller => 10

/-- Bytes 47:0 of an entry as a number. -/
def JEntry.bits (e : JEntry) : Nat :=
  e.type + jsrcCode e.src * 2 ^ 8 + e.count * 2 ^ 16 + e.index * 2 ^ 64 + e.loc * 2 ^ 128 + e.first * 2 ^ 192 +
    e.last * 2 ^ 256 + e.synd * 2 ^ 320

/-- The hash before the first entry: of the module's serial number. -/
def Journal.head (j : Journal) : Nat := j.hash.getD (Config.sha512 [Config.serial])

/-- An entry closes: it is chained to the head and stores the low 16 bytes of the new head. -/
def Journal.append (j : Journal) (e : JEntry) : Journal :=
  let h := Config.sha512 [j.head, e.bits]
  { j with entries := j.entries ++ [{ e with link := h % 2 ^ 128 }], hash := some h }

/-- The open entry closes. -/
def Journal.close (j : Journal) : Journal :=
  match j.openEntry with
  | some e => { j with openEntry := none, prior := [] }.append e
  | none => j

/-- Whether the journal accepts no new entry. -/
def Journal.full (j : Journal) : Bool := decide (errorJournalSize ≤ j.entries.length)

/-- A new entry of a type with one event. -/
def State.newJEntry (s : State) (type : Nat) (src : JSrc) (loc synd : Nat) : JEntry :=
  { type := type, src := src, count := 1, index := s.journal.next, loc := loc, first := s.ticks, last := s.ticks,
    synd := synd, link := 0 }

/-- An event that no journal takes is counted (R413). -/
def State.dropEvent (s : State) : State := { s with mgmt := { s.mgmt with ejdrop := min 65535 (s.mgmt.ejdrop + 1) } }

/-- Whether the unit of a source stands on this device: a VPM9-P has no SCM, no links and no module controller (R1). -/
def State.hasUnit (s : State) (src : JSrc) : Bool :=
  s.code == .vpm9mh || !(src == .scm || src == .link || src == .controller)

/-- An event of a type, any but a correction: the open entry closes and an entry is written, or the event is refused by a
full journal and counted. A VPM9-P has no journal: it counts the event in mgmt.status, where EJDROP counts events that no
journal takes, and reports it over the management path (R2). (DEDUCED, log 55.) (DESIGN CHOICE, log 104.) -/
def State.jEvent (s : State) (type : Nat) (src : JSrc) (loc synd : Nat) : State :=
  match s.code with
  | .vpm9p => if s.hasUnit src then s.dropEvent.send [.event type (jsrcCode src) loc] else s
  | .vpm9mh =>
    let j := s.journal.close
    if j.full then { s with journal := j }.dropEvent
    else { s with journal := { j with next := j.next + 1 }.append (s.newJEntry type src loc synd) }

/-- A correction: it joins the open entry of its kind, or opens one; COUNT 65,535 closes it, and one whose FIRST lies 2^24
ticks back is closed before (R413). -/
def State.jCorrect (s : State) (src : JSrc) (loc synd : Nat) : State :=
  match s.code with
  | .vpm9p => if s.hasUnit src then s.dropEvent.send [.event 1 (jsrcCode src) loc] else s
  | .vpm9mh =>
    let same := fun (e : JEntry) => e.type == 1 && e.src == src && e.loc == loc && e.synd == synd
    match s.journal.openEntry with
    | some e =>
      if same e && decide (s.ticks < e.first + 2 ^ 24) then
        let j := { s.journal with openEntry := some { e with count := e.count + 1, last := s.ticks }, prior := some e :: s.journal.prior }
        { s with journal := if e.count + 1 = 65535 then j.close else j }
      else
        let j := s.journal.close
        if j.full then { s with journal := j }.dropEvent
        else { s with journal := { j with openEntry := some (s.newJEntry 1 src loc synd), next := j.next + 1, prior := [none] } }
    | none =>
      if s.journal.full then s.dropEvent
      else { s with journal := { s.journal with openEntry := some (s.newJEntry 1 src loc synd), next := s.journal.next + 1, prior := [none] } }

/-- The states of the open entry that a thermal cut may leave: a correction made less than 1 ms before may be missing
(R413). -/
def leftAfterCut (now : Nat) : Option JEntry → List (Option JEntry) → List (Option JEntry)
  | e, [] => [e]
  | none, _ => [none]
  | some e, p :: r => if now < e.last + 100000 then some e :: leftAfterCut now p r else [some e]

/-- The journal after a thermal cut; `free` chooses among the states that may be left. (DEDUCED, log 66.) -/
def Journal.afterCut (j : Journal) (now free : Nat) : Journal :=
  match j.openEntry with
  | none => j
  | some e =>
    let l := leftAfterCut now (some e) j.prior
    match (l[free % l.length]?).getD none with
    | some x => { j with openEntry := some x, prior := [] }
    | none => { j with openEntry := none, prior := [], next := e.index }

/-! ### Retired rows (R415) -/

/-- The extent that holds a row moves to another frame of its stack, or of SCM, where one is free; the tags in it set the
summary bits of that frame (R198, R415). -/
def State.moveFrame (s : State) (scm : Bool) (dev frame : Nat) : State :=
  let at_ := fun (x : Extent) => x.frame == frame && (if scm then x.state == .scm else x.state == .hbm && x.stack == dev)
  match s.exts.find? at_, (if scm then s.freeInScm else s.freeOn dev) with
  | some x, some f =>
    let s1 := s.modExtent x.map x.ext (fun y => { y with frame := f })
    if scm then s1 else s1.sumFrame x.map x.ext dev f
  | some _, none => s
  | none, _ => s

/-- A bank whose 32 spare rows are used up: its frames leave the free list; HBMLESS counts those of HBM. -/
def State.bankExhausted (s : State) (scm : Bool) (bank : Nat) : State :=
  { s with mgmt := { s.mgmt with
      replace := true
      hbmless := if scm then s.mgmt.hbmless else min (2 ^ 24 - 1) (s.mgmt.hbmless + (Config.bankFrames bank).length) } }

/-- The row of a location is retired, once. -/
def State.retireRow (s : State) (src : JSrc) (loc : Nat) : State :=
  let scm := src == .scm
  let row := Config.rowOf loc
  if !s.hasUnit src || s.retired.any (fun (r : RetRow) => r.scm == scm && r.row == row) then s
  else
    let bank := Config.bankOf row
    let s1 := s.moveFrame scm (Config.frameOf row).1 (Config.frameOf row).2
    let s2 := { s1 with
      retired := s1.retired ++ [(RetRow.mk scm row bank loc)]
      corrections := s1.corrections.filter (fun (x : RowFix) => !(x.scm == scm && x.row == row)) }
    let s3 := s2.jEvent 3 src loc 0
    if (s3.retired.filter (fun (r : RetRow) => r.scm == scm && r.bank == bank)).length = 32 then s3.bankExhausted scm bank else s3

/-! ### Uncorrectable sectors (R414) -/

/-- Where the byte `a` of a buffer lies: its source code and location. -/
def State.locationOf (s : State) (map a : Nat) : JSrc × Nat :=
  let b := (s.entryOfMap map).getD default
  let at_ := fun (frame : Nat) => Config.location frame (stackOf b a) (pchOf b a) (a % extentBytes)
  match s.extent map (a / extentBytes) with
  | some e => (if e.state == .scm then .scm else .hbm, at_ e.frame)
  | none => (.hbm, at_ 0)

/-- The detection of an uncorrectable sector: an entry of TYPE 2, and its row is retired. -/
def State.detect (s : State) (map a : Nat) : State :=
  let (src, loc) := s.locationOf map a
  (s.jEvent 2 src loc 0).retireRow src loc

/-- The uncorrectable sectors that a range meets, by their byte in the buffer. -/
def State.poisonIn (s : State) (map a n : Nat) : List Nat :=
  (s.poison.filter (fun k => rangesMeet (memKey map a) n k sectorBytes)).map (fun k => k % 2 ^ 40)

/-- The uncorrectable sectors of a line that bytes `a .. a+m-1` of it read, by their byte in the buffer: of a copy in the L1
or the cluster cache that serves the load, those that were bad when they were filled; of its home otherwise. -/
def State.badInLine (s : State) (x : Access) (map n a m : Nat) : List Nat :=
  let hit := fun (y : Line) => y.serves (s.ctx.needEpoch x) (sectorsOf n a m)
  let held := match (findLine s.core.l1 map n).filter hit with
    | some y => some y
    | none => (findLine s.clus.lines map n).filter hit
  (match held with
   | some y => y.bad.map (fun k => n * lineBytes + k * sectorBytes)
   | none => s.poisonIn map (n * lineBytes) lineBytes).filter (fun o => rangesMeet a m o sectorBytes)

/-- The uncorrectable sectors that an access reads: an atomic at its home, a load where its bytes come from; a store reads
none. (DEDUCED, log 44.) -/
def State.badUnder (s : State) (x : Access) : List Nat :=
  let atHome := match x.loc with
    | .mem map => x.pieces.flatMap (fun (p : Piece) => s.poisonIn map p.addr x.size)
    | .loc _ => []
  let load := match x.loc with
    | .mem map => x.pieces.flatMap (fun (p : Piece) =>
        (linesOf p.addr x.size).flatMap (fun n => s.badInLine x map n p.addr x.size))
    | .loc _ => []
  (match x.op with
   | .store => [] | .scap _ => [] | .spawn => [] | .join _ => [] | .fence _ => []
   | .amo _ _ _ => atHome | .cas _ _ => atHome | .wsadd _ => atHome
   | .load _ _ => load | .vload _ => load | .wload _ _ => load | .lcap _ => load).eraseDups

/-- Whether an access reads an uncorrectable sector (R414). -/
def State.readsPoison (s : State) (x : Access) : Bool := !(s.badUnder x).isEmpty

/-- The fatal fault of a context whose access reads an uncorrectable sector: CAUSE 0x07, PORT, the access's address. -/
def State.poisonFault (s : State) (x : Access) : State :=
  let a := ((x.pieces.head?).map (fun (p : Piece) => x.bufAddr p.addr)).getD 0
  let i := { s.ctx.trapInfo .perm x.unit with
    port := true, addr := BitVec.ofNat 64 a, index := x.index, baddr := x.baddr, extent := some (a / extentBytes) }
  let s1 := s.onCtx (fun c => { c with st := { c.st with frec := frecBits i c.st.bundles } })
  let s2 := match x.loc with
    | .mem map => (s.badUnder x).foldl (fun (s : State) o => s.detect map o) s1
    | .loc _ => s1
  s2.freeze

end Sys2Proof.Machine
end

