-- ==== Sys2Proof/Machine/SysReg.lean ====
section
/-! DEFINITION. The system registers: what `sysr` reads and what `sysw` writes (R10, R33, R40, R42, R107 to R109 and the
register maps of the chapters). -/

namespace Sys2Proof.Machine

open Sys2Proof

/-- Flags of arrived full/empty results that no level-00 read has taken up are included in sy.fflags or not (R42): each
joins by a free choice. (DEDUCED, log 77.) -/
def State.resolveLoose (s : State) : State :=
  let n := s.ctx.st.loose.length
  let pick := (List.range n).filter (fun k => Config.freeBool (s.draws + k))
  let fl := pick.foldl (fun f k => f ||| ((s.ctx.st.loose[k]?).map (·.2)).getD 0) (0 : BitVec 5)
  let rest := ((List.range n).filter (fun k => !Config.freeBool (s.draws + k))).filterMap (fun k => s.ctx.st.loose[k]?)
  { s.onCtx (fun c => { c with st := { c.st with fflags := c.st.fflags ||| fl, loose := rest } }) with
    draws := s.draws + n }

def Phase.isRunning : Phase → Bool
  | .running => true | .vacant => false | .waiting => false | .ended => false | .frozen => false | .stopped => false

/-- The scratchpad banks of the context in the other slot (R218). -/
def State.peerOwn (s : State) : Nat :=
  match s.peer with
  | some c => c.place.own.toNat
  | none => 0

/-- Slots a partition owns in a deal table, in order (R317). -/
def ownedSlots (t : List (Option Nat)) (p : Nat) : List Nat :=
  (List.range 64).filter (fun i => (t[i]?).getD none == some p)

/-- The largest distance between consecutive owned slots of the round. -/
def dealGap (l : List Nat) : Nat :=
  match l with
  | [] => 0
  | f :: _ => (l.zip (l.drop 1 ++ [f + 64])).foldl (fun m p => max m (p.2 - p.1)) 0

/-- sy.deal0..4 of the context's partition (R317), from the lowest-numbered port of the class that has a table.
(DEDUCED, log 86.) -/
def State.dealReg (s : State) (cls : Nat) : Nat :=
  let l := s.deal.filter (fun t => t.cls == cls)
  match l.find? (fun t => l.all (fun u => decide (t.port ≤ u.port))) with
  | some t => let l := ownedSlots t.slots s.clus.part; l.length + dealGap l * 2 ^ 8
  | none => 0

def State.partOf (s : State) (p : Nat) : Part := (s.parts.find? (fun x => x.num == p)).getD (Part.blank p)

/-- Whether a TDI state makes its partition secure (R346). -/
def TdiState.secure : TdiState → Bool
  | .locked => true | .run => true | .unlocked => false | .error => false

def linkBits (s : State) : Nat :=
  s.links.foldl (fun n l => if l.up && l.num < 16 then n ||| 2 ^ l.num else n) 0

def Kitty.reg (k : Kitty) : Nat := k.base + k.cap * 2 ^ 16 + k.head * 2 ^ 32 + k.count * 2 ^ 40

def Ctx.kitty (c : Ctx) (n : Nat) : Kitty := vget c.st.kitty n Kitty.zero

/-- The value of a system register as the context reads it in an issuing bundle: sy.bundles counts that bundle (R109). -/
def State.sysRead (s : State) (n : Nat) : Nat :=
  let c := s.ctx
  let p := c.place
  match n with
  | 0x00 => p.slot + (if p.prim then 2 else 0) + (if s.peerOccupied then 4 else 0) + s.core.cap * 2 ^ 8
  | 0x01 => c.st.bundles.toNat + 1
  | 0x02 => c.st.bubbles.toNat
  | 0x03 => c.st.melddeny.toNat
  | 0x04 => c.c.depth
  | 0x10 => c.st.rm.toNat
  | 0x11 => c.st.fflags.toNat
  | 0x20 => p.l1.toNat + p.own.toNat * 2 ^ 16 + s.peerOwn * 2 ^ 32
  | 0x21 => c.st.dfault.toNat
  | 0x22 => c.st.hintdrop.toNat
  | 0x23 => s.table.asid + s.table.size * 2 ^ 16 + (if s.clus.world then 2 ^ 29 else 0)
  | 0x24 => c.mem.slog.length
  | 0x25 => s.clus.clock + c.mem.floor * 2 ^ 16 + s.clus.wraps * 2 ^ 32
  | 0x26 => p.contSlot + p.link * 2 ^ 16 + p.poolsz * 2 ^ 32 + p.clord * 2 ^ 48
  | 0x27 => s.ticks
  | 0x28 => (c.kitty 0).reg
  | 0x29 => (c.kitty 1).reg
  | 0x2A => (c.kitty 2).reg
  | 0x2B => (c.kitty 3).reg
  | 0x2C => popCount 16 s.clus.pattern.toNat + s.clus.pattern.toNat * 2 ^ 16
  | 0x30 => p.zown.toNat
  | 0x31 => p.gLo + p.gHi * 2 ^ 16 + p.gLost * 2 ^ 32
  | 0x50 => s.dealReg 0
  | 0x51 => s.dealReg 1
  | 0x52 => s.dealReg 2
  | 0x53 => s.dealReg 3
  | 0x54 => s.dealReg 4
  | 0x69 => c.st.step.toNat + (if c.st.stepValid then 2 ^ 32 else 0)
  | 0x6A => s.sweep.seq.toNat + (if s.sweep.active then 2 ^ 32 else 0)
  | 0x6B => (s.partOf s.clus.part).mgen.toNat + (if (s.partOf s.clus.part).tdi.secure then 2 ^ 32 else 0)
  | 0x6C => p.sbanks.toNat + p.sl1max * 2 ^ 16
  | 0x6D => match s.code with
    | .vpm9mh => s.module + s.dsize * 2 ^ 8 + linkBits s * 2 ^ 16
    | .vpm9p => 0
  | 0x6E => c.st.hibs + c.st.sheds * 2 ^ 16
  | n =>
    if 0x60 ≤ n ∧ n ≤ 0x67 then natField c.st.frec.toNat (64 * (n - 0x60)) 64
    else if 0x100 ≤ n ∧ n ≤ 0x13B then (vget c.st.jstat (n - 0x100) 0).toNat
    else 0

/-- A kitty configured by a write of its register (R295). -/
def Kitty.configured (v : Nat) : Kitty :=
  { base := natField v 0 14, cap := min 256 (natField v 16 9), head := 0, count := 0, taint := 0 }

/-- The effect of a write to a system register (R10, R107). sy.fmode takes effect after the bundle (R109). -/
def Ctx.sysWrite (c : Ctx) (n v : Nat) : Ctx :=
  match n with
  | 0x10 => { c with bun := { c.bun with rm := BitVec.ofNat 2 v } }
  | 0x11 => { c with st := { c.st with fflags := c.st.fflags &&& ~~~(BitVec.ofNat 5 v) } }
  | 0x21 => { c with st := { c.st with dfault := c.st.dfault &&& ~~~(BitVec.ofNat 64 (v % 2 ^ 60)) } }
  | n =>
    if 0x28 ≤ n ∧ n ≤ 0x2B then
      { c with st := { c.st with kitty := vset c.st.kitty (n - 0x28) (Kitty.configured v) } }
    else c

end Sys2Proof.Machine
end

