-- ==== Sys2Proof/Machine/Control.lean ====
section
/-! DEFINITION. The C unit: transfers, loops, predicates, done bits, yield, halt, traps and the return from them,
system registers (R91 to R109, R255 to R257, R329 to R331). -/

namespace Sys2Proof.Machine

open Sys2Proof

/-- The C-unit word decides the next bundle (R96, R99). -/
def Ctx.go (c : Ctx) (t : Nat) : Ctx := { c with bun := { c.bun with next := some t, decided := true } }

/-- Taint joining the path taint for later bundles (R96, R266). -/
def Ctx.addPath (c : Ctx) (t : Taint) : Ctx := { c with bun := { c.bun with path := c.bun.path ||| t } }

/-- The target of a displacement (R70): bundle address + 4 DISP, on 32 bits. -/
def Ctx.dispTarget (c : Ctx) (d : BitVec 18) : Nat := wrapInt 32 ((c.pc : Int) + 4 * d.toInt)

/-- Push the return address of a call (R98). -/
def Ctx.pushRet (c : Ctx) : Ctx :=
  { c with c := { c.c with rstk := vset c.c.rstk c.c.depth (BitVec.ofNat 32 c.bun.seqNext), depth := c.c.depth + 1 } }

/-- Whether an address can begin a bundle (R98): the cause it traps with otherwise. -/
def Place.targetFault (p : Place) (t : Nat) : Option Cause :=
  if t % 4 ≠ 0 then some .align
  else if p.segBlocks * 1024 ≤ t then some .auth
  else if 1008 ≤ t % 1024 then some .bundle
  else none

/-! ### Transfers and loops (R96 to R101) -/

/-- `bra` (R98). -/
def execBra (p : BitVec 3) (n : Bool) (disp : BitVec 18) (s : State) : Out :=
  let c := s.ctx.addPath (s.ctx.pred p).2
  .next (s.withCtx (if s.ctx.cond p n then c.go (c.dispTarget disp) else c))

/-- `br` (R98): a taken target that is not a multiple of 4 traps ALIGN (R76). -/
def execBr (p : BitVec 3) (n : Bool) (a : Src) (s : State) : Out :=
  let (v, t) := s.ctx.rdC a
  let c := s.ctx.addPath ((s.ctx.pred p).2 ||| t)
  if s.ctx.cond p n then
    if v.toNat % 4 ≠ 0 then raiseC s .align .C else .next (s.withCtx (c.go v.toNat))
  else .next (s.withCtx c)

/-- `call` (R98): a full return stack traps ILLEGAL. -/
def execCall (p : BitVec 3) (n : Bool) (disp : BitVec 18) (s : State) : Out :=
  let c := s.ctx.addPath (s.ctx.pred p).2
  if s.ctx.cond p n then
    if c.c.depth = 16 then raiseC s .illegal .C else .next (s.withCtx (c.pushRet.go (c.dispTarget disp)))
  else .next (s.withCtx c)

/-- `ret` (R98): an empty return stack traps ILLEGAL. -/
def execRet (p : BitVec 3) (n : Bool) (s : State) : Out :=
  let c := s.ctx.addPath (s.ctx.pred p).2
  if s.ctx.cond p n then
    if c.c.depth = 0 then raiseC s .illegal .C
    else
      let c1 := { c with c := { c.c with depth := c.c.depth - 1 } }
      .next (s.withCtx (c1.go (vget c.c.rstk (c.c.depth - 1) 0).toNat))
  else .next (s.withCtx c)

/-- `lset` (R100). -/
def execLset (l : BitVec 2) (a : Src) (imm : BitVec 10) (s : State) : Out :=
  let (v, t) := s.ctx.rdC a
  .next (s.withCtx (s.ctx.put 1 (.loop l ((v + imm.signExtend 64).setWidth 32) true) t))

/-- `lend` (R101). -/
def execLend (l : BitVec 2) (disp : BitVec 18) (s : State) : Out :=
  let e := vget s.ctx.c.l l.toNat ⟨0, 0⟩
  let c := s.ctx.addPath e.taint
  if e.val = 0 then .next (s.withCtx c)
  else
    let c1 := c.put 1 (.loop l (e.val - 1) false) e.taint
    .next (s.withCtx (if e.val - 1 = 0 then c1 else c1.go (c1.dispTarget disp)))

/-! ### Predicates (R102 to R104) -/

/-- A two-source predicate operation. -/
def predOp (f : Bool → Bool → Bool) (d : BitVec 3) (a b : Src) (s : State) : Out :=
  let (x, tx) := s.ctx.rdP a
  let (y, ty) := s.ctx.rdP b
  .next (s.withCtx (s.ctx.put 1 (.pred d (f x y)) (tx ||| ty)))

/-- `pand` (R103). -/
def execPand (d : BitVec 3) (a b : Src) (s : State) : Out := predOp (fun x y => x && y) d a b s
/-- `por` (R103). -/
def execPor (d : BitVec 3) (a b : Src) (s : State) : Out := predOp (fun x y => x || y) d a b s
/-- `pxor` (R103). -/
def execPxor (d : BitVec 3) (a b : Src) (s : State) : Out := predOp (fun x y => x != y) d a b s
/-- `pnot` (R103). -/
def execPnot (d : BitVec 3) (a : Src) (s : State) : Out :=
  let (x, t) := s.ctx.rdP a
  .next (s.withCtx (s.ctx.put 1 (.pred d (!x)) t))

/-- `pset` (R104). -/
def execPset (d : BitVec 3) (a : Src) (mode : PsetMode) (k : BitVec 6) (s : State) : Out :=
  let (v, t) := s.ctx.rdC a
  let r := match mode with
    | .bit => v.getLsbD k.toNat
    | .z => v == 0
    | .nz => v != 0
  .next (s.withCtx (s.ctx.put 1 (.pred d r) t))

/-! ### Done bits (R255 to R257) -/

/-- The test of `wany` (`all` false) and `wall` against a mask (R256). -/
def doneTest (all : Bool) (done mask : W64) : Bool :=
  if all then done &&& mask == mask else done &&& mask != 0

/-- `wany`, test mode (R256). -/
def execWanyTest (d : BitVec 3) (a : Src) (s : State) : Out :=
  let (v, t) := s.ctx.rdC a
  .next (s.withCtx (s.ctx.put 1 (.pred d (doneTest false s.ctx.c.done v)) t))
/-- `wall`, test mode (R256). -/
def execWallTest (d : BitVec 3) (a : Src) (s : State) : Out :=
  let (v, t) := s.ctx.rdC a
  .next (s.withCtx (s.ctx.put 1 (.pred d (doneTest true s.ctx.c.done v)) t))
/-- `wany.w` (R256): a mask of 0 traps ILLEGAL; the bundle issues only once the condition holds (Ready). -/
def execWanyWait (a : Src) (s : State) : Out :=
  let (v, t) := s.ctx.rdC a
  if v = 0 then raiseC s .illegal .C else .next (s.withCtx (s.ctx.addPath t))
/-- `wall.w` (R256). -/
def execWallWait (a : Src) (s : State) : Out :=
  .next (s.withCtx (s.ctx.addPath (s.ctx.rdC a).2))

/-- `ffd` (R257). -/
def execFfd (d : BitVec 3) (a : Src) (s : State) : Out :=
  let v := (s.ctx.rdC a).1
  .next (s.withCtx (s.ctx.put 1 (.gen d (BitVec.ofNat 64 (lowestBit 64 (s.ctx.c.done &&& v).toNat))) 0))

/-- `dclr` (R257). -/
def execDclr (a : Src) (s : State) : Out := .next (s.withCtx (s.ctx.clearDone (s.ctx.rdC a).1))

/-! ### Yield and halt (R105, R106) -/

/-- `yield` (R105). -/
def execYield (a : Src) (s : State) : Out :=
  let n := min (s.ctx.rdC a).1.toNat 1024
  .next (s.withCtx (if n = 0 then s.ctx else { s.ctx with wait := { s.ctx.wait with yield := n } }))

/-- A continuation ends: its record slot of the launch's pool is freed (R283). -/
def State.freeRecord (s : State) : State :=
  s.modLaunch s.ctx.place.launch (fun l =>
    { l with pool := { l.pool with slots := l.pool.slots.filter (fun x => x.slot != s.ctx.place.contSlot) } })

/-- `halt` (R106, R330): the context ends once the bundle has issued whole (Step), in handler mode with its held
entries. -/
def execHalt (s : State) : Out :=
  .next (s.freeRecord.onCtx (fun c => { c with phase := .ended, bun := { c.bun with decided := true } }))

/-! ### Traps (R329 to R331) -/

/-- `trap` (R329): SWTRAP is taken after the bundle has issued whole. -/
def execTrap (p : BitVec 3) (n : Bool) (a : Src) (code : BitVec 10) (s : State) : Out :=
  let (v, t) := s.ctx.rdC a
  let c := s.ctx.addPath ((s.ctx.pred p).2 ||| t)
  .next (s.withCtx (if s.ctx.cond p n then
    { c with bun := { c.bun with post := some { c.trapInfo .swtrap .C with
        post := true, addr := v, code := code, raddr := c.bun.seqNext } } }
    else c))

/-- The word at an address of the current context's segment: from the block that the core has filled, else as it stands at
home (R13, R15, R75). -/
def State.segWord (s : State) (addr : Nat) : BitVec 32 :=
  match s.core.istore.find? (fun b => b.map == s.ctx.place.segMap && b.base == s.ctx.place.segBase &&
      b.num == addr / 1024) with
  | some b => (b.words[addr % 1024 / 4]?).getD 0
  | none => s.codeWord s.ctx.place addr

/-- The words of the bundle at an address up to its stop bit: none where the address lies outside the segment or no stop
bit is found in its block and within 8 words. -/
def State.stopAt (s : State) (pc : Nat) : Nat → Nat → Option Nat
  | 0, _ => none
  | fuel + 1, k =>
    if 1008 ≤ pc % 1024 + 4 * k ∨ s.ctx.place.segBlocks * 1024 ≤ pc then none
    else if stopBit (s.segWord (pc + 4 * k)) then some (k + 1)
    else s.stopAt pc fuel (k + 1)

/-- The sequential successor of the trapped bundle, when it has a last word (R330). (DEDUCED, log 72.) -/
def State.skipTarget (s : State) : Option Nat :=
  let b := s.ctx.frecBaddr
  match s.stopAt b 8 0 with
  | some n => some (seqSucc b n)
  | none => none

/-- `rett` (R330). -/
def execRett (s : State) : Out :=
  if s.ctx.handler then .next ((s.testDue (fun e => e.hand)).onCtx (fun c => (c.leaveHandler).go c.frecRaddr)) else raiseC s .illegal .C

/-- `rett.skip` (R330): not on a post or port record, nor on a bundle without a last word. -/
def execRettSkip (s : State) : Out :=
  if s.ctx.handler then
    if s.ctx.frecFlags % 4 ≠ 0 then raiseC s .illegal .C
    else
      match s.skipTarget with
      | some t => .next ((s.testDue (fun e => e.hand)).onCtx (fun c => (c.leaveHandler).go t))
      | none => raiseC s .illegal .C
  else raiseC s .illegal .C

/-- `rett.goto` (R330): the target is checked as R98 says, at this bundle. -/
def execRettGoto (a : Src) (s : State) : Out :=
  if s.ctx.handler then
    let t := (s.ctx.rdC a).1.toNat
    match s.ctx.place.targetFault t with
    | none => .next ((s.testDue (fun e => e.hand)).onCtx (fun c => (c.leaveHandler).go t))
    | some .auth => raise s { s.ctx.trapInfo .auth .C with baddr := t, raddr := t }
    | some cause => raiseC s cause .C
  else raiseC s .illegal .C

/-- `rett.abort` (R330): the context ends as a fatal fault once the bundle has issued whole (Step); the fault record stays
as it is. -/
def execRettAbort (s : State) : Out :=
  if s.ctx.handler then
    .next (s.onCtx (fun c => { c with phase := .frozen, bun := { c.bun with decided := true } }))
  else raiseC s .illegal .C

/-- `stepmark` (R331). -/
def execStepmark (a : Src) (s : State) : Out :=
  .next (s.onCtx (fun c => { c with st := { c.st with step := ((c.rdC a).1).setWidth 32, stepValid := true } }))

/-! ### System registers (R107 to R109) -/

/-- `sysr` (R107): an empty taint set. -/
def execSysr (d : BitVec 3) (num : BitVec 17) (s : State) : Out :=
  let s1 := if num = 0x11 then s.resolveLoose else s
  .next (s1.onCtx (fun c => c.put 1 (.gen d (BitVec.ofNat 64 (s1.sysRead num.toNat))) 0))

/-- `sysw` (R107). -/
def execSysw (d : BitVec 3) (num : BitVec 17) (s : State) : Out :=
  let v := (vget s.ctx.c.g d.toNat tv0).val
  let s1 := if num = 0x11 then s.resolveLoose else s
  .next (s1.onCtx (fun c => c.sysWrite num.toNat v.toNat))

/-- The nop word has no effect (R14). -/
def execNop (_u : UnitId) (s : State) : Out := .next s

end Sys2Proof.Machine
end

