-- ==== Sys2Proof/Machine/Addr.lean ====
section
/-! DEFINITION. The A unit: address arithmetic and comparison (R110, R111), capability derivation (R209 to R216) and
transfers through code capabilities (R217). -/

namespace Sys2Proof.Machine

open Sys2Proof

/-! ### Address arithmetic -/

/-- The two scalar sources of an A-unit word: where both pop the load-data queue, A takes the head and B the next
(R22). -/
def Ctx.rdA2 (c : Ctx) (a b : Src) : (W64 × Taint) × (W64 × Taint) := (c.rdA 0 a, c.rdA (qCount a) b)

/-- A two-source operation on 64 bits with an exposed result of latency 1 (R110). -/
def aOp2 (f : W64 → W64 → W64) (d : BitVec 5) (a b : Src) (s : State) : Out :=
  let ((x, tx), (y, ty)) := s.ctx.rdA2 a b
  .next (s.onCtx (fun c => (c.popLq .a (qCount a + qCount b)).put 1 (.addr d (f x y)) (tx ||| ty)))

/-- `aadd` (R110). -/
def execAadd (d : BitVec 5) (a b : Src) (s : State) : Out := aOp2 (fun x y => x + y) d a b s

/-- `asub` (R110). -/
def execAsub (d : BitVec 5) (a b : Src) (s : State) : Out := aOp2 (fun x y => x - y) d a b s

/-- `ashl` (R110). -/
def execAshl (d : BitVec 5) (a b : Src) (s : State) : Out := aOp2 (fun x y => x <<< (y.toNat % 64)) d a b s

/-- `ashr` (R110). -/
def execAshr (d : BitVec 5) (a b : Src) (s : State) : Out := aOp2 (fun x y => x.sshiftRight (y.toNat % 64)) d a b s

/-- `aand` (R110). -/
def execAand (d : BitVec 5) (a b : Src) (s : State) : Out := aOp2 (fun x y => x &&& y) d a b s

/-- `aor` (R110). -/
def execAor (d : BitVec 5) (a b : Src) (s : State) : Out := aOp2 (fun x y => x ||| y) d a b s

/-- `aaddi` (R110). -/
def execAaddi (d : BitVec 5) (a : Src) (imm : BitVec 10) (s : State) : Out :=
  let (x, t) := s.ctx.rdA 0 a
  .next (s.onCtx (fun c => (c.popLq .a (qCount a)).put 1 (.addr d (x + imm.signExtend 64)) t))

/-- `amovi` (R110). -/
def execAmovi (d : BitVec 5) (imm : BitVec 17) (s : State) : Out :=
  .next (s.onCtx (fun c => c.put 1 (.addr d (imm.signExtend 64)) 0))

/-- `amovh` (R110): D is read and keeps its taint set. -/
def execAmovh (d : BitVec 5) (imm : BitVec 16) (s : State) : Out :=
  let (x, t) := s.ctx.rdAd d
  .next (s.onCtx (fun c => c.put 1 (.addr d ((x <<< 16) ||| imm.setWidth 64)) t))

/-- The conditions of `acmp` (R111). -/
def aCond (k : ACond) (x y : W64) : Bool :=
  match k with
  | .eq => x == y
  | .ne => x != y
  | .lt => x.slt y
  | .ltu => x.ult y

/-- `acmp` (R111). -/
def execAcmp (cond : ACond) (d : BitVec 3) (a b : Src) (s : State) : Out :=
  let ((x, tx), (y, ty)) := s.ctx.rdA2 a b
  .next (s.onCtx (fun c => (c.popLq .a (qCount a + qCount b)).put 1 (.pred d (aCond cond x y)) (tx ||| ty)))

/-! ### Capabilities -/

/-- A trap of a derivation: UNTAG, BOUND or REPRESENT with the capability operand (R213, R214, R216, R326). -/
def raiseCap (s : State) (u : UnitId) (cause : Cause) (v : CapV) : Out :=
  raise s { s.ctx.trapInfo cause u with cap := some v.bits }

/-- An exposed capability result; a stale one enters with its tag clear during a sweep (R210, R342). -/
def putCap (s : State) (lat : Nat) (d : BitVec 4) (v : CapV) (t : Taint) (pops : Nat) : Out :=
  .next (s.onCtx (fun c => (c.popLq .a pops).put lat (.cap d (s.enter c.place.asid v)) t))

/-- `cmov` (R211). -/
def execCmov (d : BitVec 4) (a : Src) (s : State) : Out :=
  let (v, t) := s.ctx.rdCap a
  putCap s 1 d v t 0

/-- `cclr` (R211). -/
def execCclr (d : BitVec 4) (a : Src) (s : State) : Out :=
  let (v, t) := s.ctx.rdCap a
  putCap s 1 d { v with tag := false } t 0

/-- A capability with its cursor set (R212). -/
def capCur (v : CapV) (x : W64) : CapV := v.withCursor (x.toNat % 2 ^ 40)

/-- `ccur` (R212). -/
def execCcur (d : BitVec 4) (a b : Src) (s : State) : Out :=
  let (v, t) := s.ctx.rdCap a
  let (x, tb) := s.ctx.rdA 0 b
  putCap s 1 d (capCur v x) (t ||| tb) (qCount b)

/-- `cinc` (R212). -/
def execCinc (d : BitVec 4) (a b : Src) (s : State) : Out :=
  let (v, t) := s.ctx.rdCap a
  let (x, tb) := s.ctx.rdA 0 b
  putCap s 1 d (v.withCursor (wrapInt 40 (v.cursor + x.toInt))) (t ||| tb) (qCount b)

/-- The narrowed capability of `cbnd` (`rnd` false) and `cbndr` (R213), or the cause it traps with. -/
def boundCap (rnd : Bool) (v : CapV) (len : Nat) : Except Cause CapV :=
  let b := v.cursor
  let t := b + len
  if v.tag = false then .error .untag
  else if 2 ^ 40 < t ∨ b < v.base ∨ v.top < t then .error .bound
  else if rnd then
    let (e, lo, hi) := roundBounds b t
    .ok (v.withBounds e lo hi)
  else if exactBounds b t then .ok (v.withBounds (expExact t) (b / 2 ^ expExact t) (t / 2 ^ expExact t))
  else .error .represent

/-- `cbnd` (R213). -/
def execCbnd (d : BitVec 4) (a b : Src) (s : State) : Out :=
  let (v, t) := s.ctx.rdCap a
  let (x, tb) := s.ctx.rdA 0 b
  match boundCap false v x.toNat with
  | .ok r => putCap s 2 d r (t ||| tb) (qCount b)
  | .error cause => raiseCap s .A cause v

/-- `cbndr` (R213). -/
def execCbndr (d : BitVec 4) (a b : Src) (s : State) : Out :=
  let (v, t) := s.ctx.rdCap a
  let (x, tb) := s.ctx.rdA 0 b
  match boundCap true v x.toNat with
  | .ok r => putCap s 2 d r (t ||| tb) (qCount b)
  | .error cause => raiseCap s .A cause v

/-- `cperm` (R214). -/
def execCperm (d : BitVec 4) (a : Src) (mask : BitVec 8) (s : State) : Out :=
  let (v, t) := s.ctx.rdCap a
  if v.tag then putCap s 1 d (v.withPerms (v.perms &&& mask.toNat)) t 0 else raiseCap s .A .untag v

/-- The field that `cget` reads (R215). -/
def capField (sel : CapSel) (v : CapV) : W64 :=
  match sel with
  | .cursor => BitVec.ofNat 64 v.cursor
  | .base => BitVec.ofNat 64 v.base
  | .top => BitVec.ofNat 64 v.top
  | .perms => BitVec.ofNat 64 v.perms
  | .gen => BitVec.ofNat 64 v.gen
  | .index => BitVec.ofNat 64 v.index
  | .tag => if v.tag then 1 else 0
  | .length => BitVec.ofInt 64 ((v.top : Int) - v.base)
  | .exp => BitVec.ofNat 64 v.ex

/-- `cget` (R215). -/
def execCget (d : BitVec 5) (a : Src) (sel : CapSel) (s : State) : Out :=
  let (v, t) := s.ctx.rdCap a
  .next (s.onCtx (fun c => c.put 1 (.addr d (capField sel v)) t))

/-- Whether authority `b` allows the bits of `a` a tag (R216). -/
def ctagOk (a b : CapV) : Bool :=
  a.wellFormed && a.index == b.index && a.gen == b.gen && a.perms &&& b.perms == a.perms && b.base <= a.base &&
    a.top <= b.top

/-- `ctag` (R216). -/
def execCtag (d : BitVec 4) (a b : Src) (s : State) : Out :=
  let (v, t) := s.ctx.rdCap a
  let (w, tb) := s.ctx.rdCap b
  if w.tag then putCap s 1 d { v with tag := ctagOk v w } (t ||| tb) 0 else raiseCap s .A .untag w

/-! ### Transfers through code capabilities (R217) -/

def BufKind.isCode : BufKind → Bool
  | .code => true | .memory => false | .local => false | .reserved => false

/-- `jmpc`, and `callc` when `link` holds (R217). A C-unit word of the bundle that decides the next bundle leaves the
checks alone (R99). -/
def capTransfer (link : Bool) (a : Src) (s : State) : Out :=
  let (v, t) := s.ctx.rdCap a
  match coreCheck s.table v 0 4 pX 4 with
  | .error f => raiseCheck s .A v f
  | .ok (e, _) =>
    if !e.kind.isCode || v.index != s.ctx.place.image then
      raise s { s.ctx.trapInfo .auth .A with cap := some v.bits, index := v.index, addr := BitVec.ofNat 64 v.cursor }
    else if 1008 ≤ v.cursor % 1024 then
      raise s { s.ctx.trapInfo .bundle .A with cap := some v.bits, index := v.index, addr := BitVec.ofNat 64 v.cursor }
    else
      let c := s.ctx.addPath t
      if c.bun.decided then .next (s.withCtx c)
      else if link then
        if c.c.depth = 16 then raiseC s .illegal .A else .next (s.withCtx (c.pushRet.go v.cursor))
      else .next (s.withCtx (c.go v.cursor))

/-- `jmpc` (R217). -/
def execJmpc (a : Src) (s : State) : Out := capTransfer false a s
/-- `callc` (R217). -/
def execCallc (a : Src) (s : State) : Out := capTransfer true a s

end Sys2Proof.Machine
end

