-- ==== Sys2Proof/Machine/Integer.lean ====
section
/-! DEFINITION. The I unit: integer operations (R112 to R118) and scalar floating point (R119 to R121). -/

namespace Sys2Proof.Machine

open Sys2Proof

/-- The two scalar sources of an I-unit word (R22). -/
def Ctx.rdI2 (c : Ctx) (a b : Src) : (W64 × Taint) × (W64 × Taint) := (c.rdI 0 a, c.rdI (qCount a) b)

/-- A two-source integer operation of width `w` (R93, R112): the low `w` bits of the sources, the result extended. -/
def iOp2 (lat : Nat) (signed : Bool) (w : Nat) (f : Nat → Nat → Nat) (d : BitVec 5) (a b : Src) (s : State) : Out :=
  let ((x, tx), (y, ty)) := s.ctx.rdI2 a b
  let r := extend64 signed w (f (x.toNat % 2 ^ w) (y.toNat % 2 ^ w))
  .next (s.onCtx (fun c => (c.popLq .i (qCount a + qCount b)).put lat (.int d r) (tx ||| ty)))

/-- A one-source integer operation (R113, R117). -/
def iOp1 (signed : Bool) (w : Nat) (f : Nat → Nat) (d : BitVec 5) (a : Src) (s : State) : Out :=
  let (x, t) := s.ctx.rdI 0 a
  .next (s.onCtx (fun c => (c.popLq .i (qCount a)).put 1 (.int d (extend64 signed w (f (x.toNat % 2 ^ w)))) t))

/-- A division (R114): a divisor of 0 traps IDIV, otherwise the destination is empty until the result arrives. -/
def iDivide (ty : XType) (f : Nat → Nat → Nat) (d : BitVec 5) (a b : Src) (s : State) : Out :=
  let w := ty.w.bits
  let ((x, tx), (y, ty')) := s.ctx.rdI2 a b
  if y.toNat % 2 ^ w = 0 then raiseC s .idiv .I
  else
    let r := extend64 (!ty.uns) w (f (x.toNat % 2 ^ w) (y.toNat % 2 ^ w))
    .next (s.onCtx (fun c => (c.popLq .i (qCount a + qCount b)).putFE (.int d r) (tx ||| ty') 0))

/-- `add` (R112). -/
def execAdd (w : Width) (d : BitVec 5) (a b : Src) (s : State) : Out :=
  iOp2 1 false w.bits (iAdd w.bits) d a b s
/-- `sub` (R112). -/
def execSub (w : Width) (d : BitVec 5) (a b : Src) (s : State) : Out :=
  iOp2 1 false w.bits (iSub w.bits) d a b s
/-- `mul` (R112). -/
def execMul (w : Width) (d : BitVec 5) (a b : Src) (s : State) : Out :=
  iOp2 3 false w.bits (iMul w.bits) d a b s
/-- `and` (R112). -/
def execAnd (w : Width) (d : BitVec 5) (a b : Src) (s : State) : Out :=
  iOp2 1 false w.bits (iAnd w.bits) d a b s
/-- `or` (R112). -/
def execOr (w : Width) (d : BitVec 5) (a b : Src) (s : State) : Out :=
  iOp2 1 false w.bits (iOr w.bits) d a b s
/-- `xor` (R112). -/
def execXor (w : Width) (d : BitVec 5) (a b : Src) (s : State) : Out :=
  iOp2 1 false w.bits (iXor w.bits) d a b s
/-- `andn` (R112). -/
def execAndn (w : Width) (d : BitVec 5) (a b : Src) (s : State) : Out :=
  iOp2 1 false w.bits (iAndn w.bits) d a b s
/-- `shl` (R112). -/
def execShl (w : Width) (d : BitVec 5) (a b : Src) (s : State) : Out :=
  iOp2 1 false w.bits (iShl w.bits) d a b s
/-- `shr` (R112). -/
def execShr (w : Width) (d : BitVec 5) (a b : Src) (s : State) : Out :=
  iOp2 1 false w.bits (iShr w.bits) d a b s
/-- `sar` (R112). -/
def execSar (w : Width) (d : BitVec 5) (a b : Src) (s : State) : Out :=
  iOp2 1 false w.bits (iSar w.bits) d a b s
/-- `rot` (R112). -/
def execRot (w : Width) (d : BitVec 5) (a b : Src) (s : State) : Out :=
  iOp2 1 false w.bits (iRot w.bits) d a b s
/-- `mulh` (R112). -/
def execMulh (ty : XType) (d : BitVec 5) (a b : Src) (s : State) : Out :=
  iOp2 3 (!ty.uns) ty.w.bits (iMulh ty.uns ty.w.bits) d a b s
/-- `min` (R112). -/
def execMin (ty : XType) (d : BitVec 5) (a b : Src) (s : State) : Out :=
  iOp2 1 (!ty.uns) ty.w.bits (iMin ty.uns ty.w.bits) d a b s
/-- `max` (R112). -/
def execMax (ty : XType) (d : BitVec 5) (a b : Src) (s : State) : Out :=
  iOp2 1 (!ty.uns) ty.w.bits (iMax ty.uns ty.w.bits) d a b s
/-- `add.sat` (R112). -/
def execAddSat (ty : XType) (d : BitVec 5) (a b : Src) (s : State) : Out :=
  iOp2 1 (!ty.uns) ty.w.bits (iAddSat ty.uns ty.w.bits) d a b s
/-- `sub.sat` (R112). -/
def execSubSat (ty : XType) (d : BitVec 5) (a b : Src) (s : State) : Out :=
  iOp2 1 (!ty.uns) ty.w.bits (iSubSat ty.uns ty.w.bits) d a b s
/-- `mul.sat` (R112). -/
def execMulSat (ty : XType) (d : BitVec 5) (a b : Src) (s : State) : Out :=
  iOp2 3 (!ty.uns) ty.w.bits (iMulSat ty.uns ty.w.bits) d a b s
/-- `shl.sat` (R112). -/
def execShlSat (ty : XType) (d : BitVec 5) (a b : Src) (s : State) : Out :=
  iOp2 1 (!ty.uns) ty.w.bits (iShlSat ty.uns ty.w.bits) d a b s
/-- `div` (R114). -/
def execDiv (ty : XType) (d : BitVec 5) (a b : Src) (s : State) : Out :=
  iDivide ty (iDiv ty.uns ty.w.bits) d a b s
/-- `rem` (R114). -/
def execRem (ty : XType) (d : BitVec 5) (a b : Src) (s : State) : Out :=
  iDivide ty (iRem ty.uns ty.w.bits) d a b s
/-- `div.sat` (R114). -/
def execDivSat (ty : XType) (d : BitVec 5) (a b : Src) (s : State) : Out :=
  iDivide ty (iDivSat ty.uns ty.w.bits) d a b s
/-- `clz` (R113). -/
def execClz (w : Width) (d : BitVec 5) (a : Src) (s : State) : Out := iOp1 false w.bits (iClz w.bits) d a s
/-- `ctz` (R113). -/
def execCtz (w : Width) (d : BitVec 5) (a : Src) (s : State) : Out := iOp1 false w.bits (iCtz w.bits) d a s
/-- `popc` (R113). -/
def execPopc (w : Width) (d : BitVec 5) (a : Src) (s : State) : Out := iOp1 false w.bits (popCount w.bits) d a s

/-- `addi` (R112). -/
def execAddi (d : BitVec 5) (a : Src) (imm : BitVec 10) (s : State) : Out :=
  let (x, t) := s.ctx.rdI 0 a
  .next (s.onCtx (fun c => (c.popLq .i (qCount a)).put 1 (.int d (x + imm.signExtend 64)) t))

/-- `movi` (R110). -/
def execMovi (d : BitVec 5) (imm : BitVec 17) (s : State) : Out :=
  .next (s.onCtx (fun c => c.put 1 (.int d (imm.signExtend 64)) 0))

/-- `movh` (R110). -/
def execMovh (d : BitVec 5) (imm : BitVec 16) (s : State) : Out :=
  let (x, t) := s.ctx.rdId d
  .next (s.onCtx (fun c => c.put 1 (.int d ((x <<< 16) ||| imm.setWidth 64)) t))

/-- `sel` (R115): the taint set joins all three sources. -/
def execSel (w : Width) (d : BitVec 5) (a b : Src) (s : State) : Out :=
  let ((x, tx), (y, ty)) := s.ctx.rdI2 a b
  let (z, tz) := s.ctx.rdId d
  let r := if z.toNat % 2 ^ w.bits ≠ 0 then x.toNat else y.toNat
  .next (s.onCtx (fun c =>
    (c.popLq .i (qCount a + qCount b)).put 1 (.int d (extend64 false w.bits r)) (tx ||| ty ||| tz)))

/-- `cmp` (R116). -/
def execCmp (ty : XType) (cond : ICond) (d : BitVec 3) (a b : Src) (s : State) : Out :=
  let ((x, tx), (y, ty')) := s.ctx.rdI2 a b
  .next (s.onCtx (fun c => (c.popLq .i (qCount a + qCount b)).put 1
    (.pred d (iCond cond ty.uns ty.w.bits x.toNat y.toNat)) (tx ||| ty')))

/-- `ext` (R117). -/
def execExt (ty : XType) (d : BitVec 5) (a : Src) (s : State) : Out := iOp1 (!ty.uns) ty.w.bits id d a s

/-- `bfx` (R118). -/
def execBfx (sx : Bool) (d : BitVec 5) (a b : Src) (s : State) : Out := iOp2 1 false 64 (bfxField sx) d a b s

/-- `bfi` (R118): D is read, and its taint set joins. -/
def execBfi (d : BitVec 5) (a b : Src) (s : State) : Out :=
  let ((x, tx), (y, ty)) := s.ctx.rdI2 a b
  let (z, tz) := s.ctx.rdId d
  .next (s.onCtx (fun c => (c.popLq .i (qCount a + qCount b)).put 1
    (.int d (BitVec.ofNat 64 (bfiField z.toNat x.toNat y.toNat))) (tx ||| ty ||| tz)))

/-! ### Scalar floating point (R119 to R121) -/

/-- The dynamic rounding mode of the issuing bundle (R40, R109). -/
def Ctx.rmode (c : Ctx) : Rm := Rm.ofField c.st.rm

/-- A two-source floating-point operation (R119): the low bits of the sources as the format, the result zero-extended,
the flags with it. -/
def fOp2 (lat : Nat) (f : FType) (g : Nat → Nat → Nat × BitVec 5) (d : BitVec 5) (a b : Src) (s : State) : Out :=
  let ((x, tx), (y, ty)) := s.ctx.rdI2 a b
  let (r, fl) := g (x.toNat % 2 ^ f.wd) (y.toNat % 2 ^ f.wd)
  .next (s.onCtx (fun c => (c.popLq .i (qCount a + qCount b)).putDue lat [.int d (BitVec.ofNat 64 r)] (tx ||| ty) fl))

/-- `fadd` (R119). -/
def execFadd (f : FType) (d : BitVec 5) (a b : Src) (s : State) : Out := fOp2 4 f (fAdd f s.ctx.rmode) d a b s
/-- `fsub` (R119). -/
def execFsub (f : FType) (d : BitVec 5) (a b : Src) (s : State) : Out := fOp2 4 f (fSub f s.ctx.rmode) d a b s
/-- `fmul` (R119). -/
def execFmul (f : FType) (d : BitVec 5) (a b : Src) (s : State) : Out := fOp2 4 f (fMul f s.ctx.rmode) d a b s
/-- `fmin` (R119). -/
def execFmin (f : FType) (d : BitVec 5) (a b : Src) (s : State) : Out := fOp2 2 f (fMinMax f false) d a b s
/-- `fmax` (R119). -/
def execFmax (f : FType) (d : BitVec 5) (a b : Src) (s : State) : Out := fOp2 2 f (fMinMax f true) d a b s
/-- `fcmp` (R120). -/
def execFcmp (f : FType) (d : BitVec 5) (a b : Src) (s : State) : Out := fOp2 2 f (fCmpMask f) d a b s

/-- `ffma` (R119): A times B plus D, one rounding. -/
def execFfma (f : FType) (d : BitVec 5) (a b : Src) (s : State) : Out :=
  let ((x, tx), (y, ty)) := s.ctx.rdI2 a b
  let (z, tz) := s.ctx.rdId d
  let (r, fl) := fFma f s.ctx.rmode false false (x.toNat % 2 ^ f.wd) (y.toNat % 2 ^ f.wd) (z.toNat % 2 ^ f.wd)
  .next (s.onCtx (fun c => (c.popLq .i (qCount a + qCount b)).putDue 4 [.int d (BitVec.ofNat 64 r)]
    (tx ||| ty ||| tz) fl))

/-- `fdiv` (R119): full/empty managed, no operand traps. -/
def execFdiv (f : FType) (d : BitVec 5) (a b : Src) (s : State) : Out :=
  let ((x, tx), (y, ty)) := s.ctx.rdI2 a b
  let (r, fl) := fDiv f s.ctx.rmode (x.toNat % 2 ^ f.wd) (y.toNat % 2 ^ f.wd)
  .next (s.onCtx (fun c => (c.popLq .i (qCount a + qCount b)).putFE (.int d (BitVec.ofNat 64 r)) (tx ||| ty) fl))

/-- `fsqrt` (R119). -/
def execFsqrt (f : FType) (d : BitVec 5) (a : Src) (s : State) : Out :=
  let (x, t) := s.ctx.rdI 0 a
  let (r, fl) := fSqrt f s.ctx.rmode (x.toNat % 2 ^ f.wd)
  .next (s.onCtx (fun c => (c.popLq .i (qCount a)).putFE (.int d (BitVec.ofNat 64 r)) t fl))

/-- The integer type or IEEE format of a conversion code (R121). -/
def cvtSplit : CvtCode → (Bool × Nat) ⊕ FType
  | .i32 => .inl (false, 32) | .i64 => .inl (false, 64) | .n32 => .inl (true, 32) | .n64 => .inl (true, 64)
  | .h => .inr .h | .b => .inr .b | .s => .inr .s | .d => .inr .d

/-- The conversion of `fcvt` (R43, R121): the 64-bit result and its flags. Integer to integer is a reserved coding. -/
def cvtScalar (rm : Rm) (src dst : CvtCode) (x : Nat) : W64 × BitVec 5 :=
  match cvtSplit src, cvtSplit dst with
  | .inl (u, w), .inr f => let (r, fl) := cvtFromInt f rm (intVal u w x); (BitVec.ofNat 64 r, fl)
  | .inr g, .inl (u, w) =>
    let (r, fl) := cvtToInt (unpack g (x % 2 ^ g.wd)) rm u w; (extend64 (!u) w r, fl)
  | .inr g, .inr f => let (r, fl) := cvtToF f rm (unpack g (x % 2 ^ g.wd)); (BitVec.ofNat 64 r, fl)
  | .inl _, .inl _ => (0, 0)

/-- `fcvt` (R121). -/
def execFcvt (rs : RSel) (src dst : CvtCode) (d : BitVec 5) (a : Src) (s : State) : Out :=
  let (x, t) := s.ctx.rdI 0 a
  let (r, fl) := cvtScalar (rs.mode s.ctx.rmode) src dst x.toNat
  .next (s.onCtx (fun c => (c.popLq .i (qCount a)).putDue 4 [.int d r] t fl))

end Sys2Proof.Machine
end

