-- ==== Sys2Proof/Machine/Vector.lean ====
section
/-! DEFINITION. The vector units VA and VB: element-wise arithmetic, compare and select, moves, conversions, reductions
and wide sums (R127 to R153). One meaning serves both units; the unit is an argument. -/

namespace Sys2Proof.Machine

open Sys2Proof

/-! ### Shapes of vector instructions -/

/-- The value, flags and taint set of a vector result, placed in the due queue at latency `lat` after `pops` queue
entries are popped (R131, R132). -/
def vPut (u : VUnit) (lat : Nat) (d : BitVec 5) (pops : Nat) (r : V2048 × BitVec 5) (t : Taint) (s : State) : Out :=
  .next (s.onCtx (fun c => (c.popLq u.dunit pops).putDue lat [.vec u d r.1] t r.2))

/-- The same for a full/empty result (R24, R131). -/
def vPutFE (u : VUnit) (d : BitVec 5) (pops : Nat) (r : V2048 × BitVec 5) (t : Taint) (s : State) : Out :=
  .next (s.onCtx (fun c => (c.popLq u.dunit pops).putFE (.vec u d r.1) t r.2))

/-- The same for a mask result (R130). -/
def vPutM (u : VUnit) (lat : Nat) (d : BitVec 3) (pops : Nat) (r : BitVec 32 × BitVec 5) (t : Taint) (s : State) : Out :=
  .next (s.onCtx (fun c => (c.popLq u.dunit pops).putDue lat [.mask u d r.1] t r.2))

/-- One source; a pop of an entry that is not a vector traps ILLEGAL (R229). -/
def vSrc1 (u : VUnit) (w : Nat) (a : Src) (s : State) (k : V2048 → Taint → Out) : Out :=
  if s.ctx.wrongPop u 0 a then raiseC s .illegal u.unit
  else
    let (x, t) := s.ctx.rdV u w 0 a
    k x t

/-- Two sources: where both pop the queue, A takes the head and B the next (R22). -/
def vSrc2 (u : VUnit) (w : Nat) (a b : Src) (s : State) (k : V2048 → V2048 → Taint → Out) : Out :=
  if s.ctx.wrongPop u 0 a || s.ctx.wrongPop u (qCount a) b then raiseC s .illegal u.unit
  else
    let (x, tx) := s.ctx.rdV u w 0 a
    let (y, ty) := s.ctx.rdV u w (qCount a) b
    k x y (tx ||| ty)

/-- A one-source operation without flags. -/
def vOp1 (u : VUnit) (lat w : Nat) (f : Nat → Nat) (d : BitVec 5) (a : Src) (s : State) : Out :=
  vSrc1 u w a s (fun x t => vPut u lat d (qCount a) (map1 w f x, 0) t s)

/-- A one-source operation with flags. -/
def vFop1 (u : VUnit) (lat w : Nat) (f : Nat → Nat × BitVec 5) (d : BitVec 5) (a : Src) (s : State) : Out :=
  vSrc1 u w a s (fun x t => vPut u lat d (qCount a) (fmap1 w f x) t s)

/-- A two-source operation without flags (R133). -/
def vOp2 (u : VUnit) (lat w : Nat) (f : Nat → Nat → Nat) (d : BitVec 5) (a b : Src) (s : State) : Out :=
  vSrc2 u w a b s (fun x y t => vPut u lat d (qCount a + qCount b) (map2 w f x y, 0) t s)

/-- A two-source operation with flags (R133). -/
def vFop2 (u : VUnit) (lat w : Nat) (f : Nat → Nat → Nat × BitVec 5) (d : BitVec 5) (a b : Src) (s : State) : Out :=
  vSrc2 u w a b s (fun x y t => vPut u lat d (qCount a + qCount b) (fmap2 w f x y) t s)

/-- A two-source operation of class W: latency 2 on integers, 4 on IEEE types (R131). -/
def vArith (u : VUnit) (ty : WType) (fi : Nat → Nat → Nat → Nat) (ff : FType → Rm → Nat → Nat → Nat × BitVec 5)
    (d : BitVec 5) (a b : Src) (s : State) : Out :=
  match ty with
  | .int w => vOp2 u 2 w.bits (fi w.bits) d a b s
  | .fp f => vFop2 u 4 f.wd (ff f s.ctx.rmode) d a b s

/-- A fused operation that reads D (R135). -/
def vFused (u : VUnit) (f : FType) (np nd : Bool) (d : BitVec 5) (a b : Src) (s : State) : Out :=
  vSrc2 u f.wd a b s (fun x y t =>
    let (z, tz) := s.ctx.rdVd u d
    vPut u 4 d (qCount a + qCount b) (fmap3 f.wd (fFma f s.ctx.rmode np nd) x y z) (t ||| tz) s)

/-- The lanes that hold a zero element of width `w` (R137). -/
def zeroLanes (w : Nat) (v : V2048) : BitVec 32 :=
  BitVec.ofNat 32 (ofElems 1 ((List.range 32).map (fun i =>
    if ((List.range (64 / w)).any (fun k => elemOf v.toNat (i * (64 / w) + k) w == 0)) then 1 else 0)))

/-- An integer division (R137): a zero divisor in any element traps IDIV with the mask of its lanes. -/
def vDivide (u : VUnit) (ty : XType) (f : Nat → Nat → Nat) (d : BitVec 5) (a b : Src) (s : State) : Out :=
  vSrc2 u ty.w.bits a b s (fun x y t =>
    let z := zeroLanes ty.w.bits y
    if z = 0 then vPutFE u d (qCount a + qCount b) (map2 ty.w.bits f x y, 0) t s
    else raise s { s.ctx.trapInfo .idiv u.unit with lanes := some z })

/-! ### Element-wise arithmetic (R133 to R138) -/

/-- `vadd` (R133). -/
def execVadd (u : VUnit) (ty : WType) (d : BitVec 5) (a b : Src) (s : State) : Out :=
  vArith u ty iAdd fAdd d a b s

/-- `vsub` (R133). -/
def execVsub (u : VUnit) (ty : WType) (d : BitVec 5) (a b : Src) (s : State) : Out :=
  vArith u ty iSub fSub d a b s

/-- `vmul` (R133). -/
def execVmul (u : VUnit) (ty : WType) (d : BitVec 5) (a b : Src) (s : State) : Out :=
  vArith u ty iMul fMul d a b s

/-- `vaddSat` (R133). -/
def execVaddSat (u : VUnit) (ty : XType) (d : BitVec 5) (a b : Src) (s : State) : Out :=
  vOp2 u 2 ty.w.bits (iAddSat ty.uns ty.w.bits) d a b s

/-- `vsubSat` (R133). -/
def execVsubSat (u : VUnit) (ty : XType) (d : BitVec 5) (a b : Src) (s : State) : Out :=
  vOp2 u 2 ty.w.bits (iSubSat ty.uns ty.w.bits) d a b s

/-- `vminInt` (R133). -/
def execVminInt (u : VUnit) (ty : XType) (d : BitVec 5) (a b : Src) (s : State) : Out :=
  vOp2 u 2 ty.w.bits (iMin ty.uns ty.w.bits) d a b s

/-- `vmaxInt` (R133). -/
def execVmaxInt (u : VUnit) (ty : XType) (d : BitVec 5) (a b : Src) (s : State) : Out :=
  vOp2 u 2 ty.w.bits (iMax ty.uns ty.w.bits) d a b s

/-- `vminFp` (R44, R133). -/
def execVminFp (u : VUnit) (f : FType) (d : BitVec 5) (a b : Src) (s : State) : Out :=
  vFop2 u 2 f.wd (fMinMax f false) d a b s

/-- `vmaxFp` (R44, R133). -/
def execVmaxFp (u : VUnit) (f : FType) (d : BitVec 5) (a b : Src) (s : State) : Out :=
  vFop2 u 2 f.wd (fMinMax f true) d a b s

/-- `vand` (R133). -/
def execVand (u : VUnit) (w : Width) (d : BitVec 5) (a b : Src) (s : State) : Out :=
  vOp2 u 2 w.bits (iAnd w.bits) d a b s

/-- `vor` (R133). -/
def execVor (u : VUnit) (w : Width) (d : BitVec 5) (a b : Src) (s : State) : Out :=
  vOp2 u 2 w.bits (iOr w.bits) d a b s

/-- `vxor` (R133). -/
def execVxor (u : VUnit) (w : Width) (d : BitVec 5) (a b : Src) (s : State) : Out :=
  vOp2 u 2 w.bits (iXor w.bits) d a b s

/-- `vshl` (R133). -/
def execVshl (u : VUnit) (w : Width) (d : BitVec 5) (a b : Src) (s : State) : Out :=
  vOp2 u 2 w.bits (iShl w.bits) d a b s

/-- `vshr` (R133). -/
def execVshr (u : VUnit) (w : Width) (d : BitVec 5) (a b : Src) (s : State) : Out :=
  vOp2 u 2 w.bits (iShr w.bits) d a b s

/-- `vsar` (R133). -/
def execVsar (u : VUnit) (w : Width) (d : BitVec 5) (a b : Src) (s : State) : Out :=
  vOp2 u 2 w.bits (iSar w.bits) d a b s

/-- `vnot` (R134). -/
def execVnot (u : VUnit) (w : Width) (d : BitVec 5) (a : Src) (s : State) : Out :=
  vOp1 u 2 w.bits (iNot w.bits) d a s

/-- `vabs` (R134): on IEEE types the sign bit is cleared, any NaN unchanged. -/
def execVabs (u : VUnit) (ty : WType) (d : BitVec 5) (a : Src) (s : State) : Out :=
  match ty with
  | .int w => vOp1 u 2 w.bits (iAbs w.bits) d a s
  | .fp f => vOp1 u 2 f.wd (fun x => x % f.signBit) d a s

/-- `vneg` (R134): on IEEE types the sign bit is inverted, any NaN unchanged. -/
def execVneg (u : VUnit) (ty : WType) (d : BitVec 5) (a : Src) (s : State) : Out :=
  match ty with
  | .int w => vOp1 u 2 w.bits (iNeg w.bits) d a s
  | .fp f => vOp1 u 2 f.wd (fun x => x ^^^ f.signBit) d a s

/-- `vfma` (R135: a b + d, one rounding). -/
def execVfma (u : VUnit) (f : FType) (d : BitVec 5) (a b : Src) (s : State) : Out :=
  vFused u f false false d a b s

/-- `vfms` (R135: a b - d, one rounding). -/
def execVfms (u : VUnit) (f : FType) (d : BitVec 5) (a b : Src) (s : State) : Out :=
  vFused u f false true d a b s

/-- `vnfma` (R135: d - a b, one rounding). -/
def execVnfma (u : VUnit) (f : FType) (d : BitVec 5) (a b : Src) (s : State) : Out :=
  vFused u f true false d a b s

/-- `vdiv` on IEEE types (R136). -/
def execVdivFp (u : VUnit) (f : FType) (d : BitVec 5) (a b : Src) (s : State) : Out :=
  vSrc2 u f.wd a b s (fun x y t => vPutFE u d (qCount a + qCount b) (fmap2 f.wd (fDiv f s.ctx.rmode) x y) t s)

/-- `vsqrt` (R136). -/
def execVsqrt (u : VUnit) (f : FType) (d : BitVec 5) (a : Src) (s : State) : Out :=
  vSrc1 u f.wd a s (fun x t => vPutFE u d (qCount a) (fmap1 f.wd (fSqrt f s.ctx.rmode) x) t s)

/-- `vdiv` on integer types (R137). -/
def execVdivInt (u : VUnit) (ty : XType) (d : BitVec 5) (a b : Src) (s : State) : Out :=
  vDivide u ty (iDiv ty.uns ty.w.bits) d a b s

/-- `vdiv.sat` (R137). -/
def execVdivSat (u : VUnit) (ty : XType) (d : BitVec 5) (a b : Src) (s : State) : Out :=
  vDivide u ty (iDivSat ty.uns ty.w.bits) d a b s

/-- `vrcpe` (R59, R138). -/
def execVrcpe (u : VUnit) (f : FType) (d : BitVec 5) (a : Src) (s : State) : Out := vFop1 u 3 f.wd (fRcpe f) d a s

/-- `vrsqe` (R60, R138). -/
def execVrsqe (u : VUnit) (f : FType) (d : BitVec 5) (a : Src) (s : State) : Out := vFop1 u 3 f.wd (fRsqe f) d a s

/-! ### Compare, select and masks (R139 to R142) -/

/-- `vcmp` on IEEE types (R139): a lane's bit is 1 when every element of it meets the condition. -/
def execVcmpFp (u : VUnit) (f : FType) (cond : FCond) (d : BitVec 3) (a b : Src) (s : State) : Out :=
  vSrc2 u f.wd a b s (fun x y t =>
    let l := (elems f.wd x.toNat).zipWith (fCond f cond) (elems f.wd y.toNat)
    vPutM u 2 d (qCount a + qCount b) (laneMask f.wd (l.map (·.1)), l.foldl (fun fl e => fl ||| e.2) 0) t s)

/-- `vcmp` on integer types (R139). -/
def execVcmpInt (u : VUnit) (ty : XType) (cond : ICond) (d : BitVec 3) (a b : Src) (s : State) : Out :=
  vSrc2 u ty.w.bits a b s (fun x y t =>
    let l := (elems ty.w.bits x.toNat).zipWith (iCond cond ty.uns ty.w.bits) (elems ty.w.bits y.toNat)
    vPutM u 2 d (qCount a + qCount b) (laneMask ty.w.bits l, 0) t s)

/-- `vsel` (R140): whole lanes of A where the mask is 1, of B elsewhere. An immediate is taken at 64 bits.
(DESIGN CHOICE, log 95.) -/
def execVsel (u : VUnit) (m : BitVec 3) (d : BitVec 5) (a b : Src) (s : State) : Out :=
  vSrc2 u 64 a b s (fun x y t =>
    let (k, tm) := s.ctx.rdSel u (.m m)
    let r := vecOf 64 ((List.range 32).map (fun i => elemOf (if natBit k.toNat i then x else y).toNat i 64))
    vPut u 2 d (qCount a + qCount b) (r, 0) (t ||| tm) s)

/-- A mask operation of two mask operands (R128, R141). -/
def vMask2 (u : VUnit) (f : BitVec 32 → BitVec 32 → BitVec 32) (d : BitVec 3) (a b : Src) (s : State) : Out :=
  let (x, tx) := s.ctx.rdM u a
  let (y, ty) := s.ctx.rdM u b
  vPutM u 1 d 0 (f x y, 0) (tx ||| ty) s

/-- `vmand` (R141). -/
def execVmand (u : VUnit) (d : BitVec 3) (a b : Src) (s : State) : Out := vMask2 u (fun x y => x &&& y) d a b s
/-- `vmor` (R141). -/
def execVmor (u : VUnit) (d : BitVec 3) (a b : Src) (s : State) : Out := vMask2 u (fun x y => x ||| y) d a b s
/-- `vmnot` (R141). -/
def execVmnot (u : VUnit) (d : BitVec 3) (a : Src) (s : State) : Out :=
  let (x, t) := s.ctx.rdM u a
  vPutM u 1 d 0 (~~~x, 0) t s

/-- `vmpop` (R142): the number of 1 bits, in every lane. -/
def execVmpop (u : VUnit) (d : BitVec 5) (a : Src) (s : State) : Out :=
  let (x, t) := s.ctx.rdM u a
  vPut u 2 d 0 (splat (popCount 32 x.toNat), 0) t s

/-- `vmff` (R142): the index of the lowest 1 bit, 32 for none, in every lane. -/
def execVmff (u : VUnit) (d : BitVec 5) (a : Src) (s : State) : Out :=
  let (x, t) := s.ctx.rdM u a
  vPut u 2 d 0 (splat (lowestBit 32 x.toNat), 0) t s

/-! ### Moves and lane movement (R143 to R145) -/

/-- `vmovi` (R143). -/
def execVmovi (u : VUnit) (d : BitVec 5) (imm : BitVec 17) (s : State) : Out :=
  vPut u 1 d 0 (splat (imm.signExtend 64).toNat, 0) 0 s

/-- `vidx` (R144). -/
def execVidx (u : VUnit) (w : Width) (d : BitVec 5) (a : Src) (s : State) : Out :=
  vSrc1 u w.bits a s (fun x t =>
    vPut u 2 d (qCount a) (vecOf w.bits ((List.range (elemCount w.bits)).map (fun e => elemOf x.toNat 0 w.bits + e)), 0)
      t s)

/-- A lane movement (R145): element `e` of D from the elements of A, given lane 0 of B as an unsigned count and the
whole of B. (DEDUCED, log 30.) -/
def vMove (u : VUnit) (w : Nat) (f : Nat → Nat → Nat → Nat → Nat) (d : BitVec 5) (a b : Src) (s : State) : Out :=
  vSrc2 u w a b s (fun x y t =>
    vPut u 3 d (qCount a + qCount b)
      (vecOf w ((List.range (elemCount w)).map (f x.toNat y.toNat (elemOf y.toNat 0 64))), 0) t s)

/-- `vbcast` (R145). -/
def execVbcast (u : VUnit) (w : Width) (d : BitVec 5) (a b : Src) (s : State) : Out :=
  vMove u w.bits (fun x _ c _ => elemOf x (c % elemCount w.bits) w.bits) d a b s
/-- `vperm` (R145). -/
def execVperm (u : VUnit) (w : Width) (d : BitVec 5) (a b : Src) (s : State) : Out :=
  vMove u w.bits (fun x y _ e => elemOf x (elemOf y e w.bits % elemCount w.bits) w.bits) d a b s
/-- `vrot` (R145). -/
def execVrot (u : VUnit) (w : Width) (d : BitVec 5) (a b : Src) (s : State) : Out :=
  vMove u w.bits (fun x _ c e => elemOf x ((e + c) % elemCount w.bits) w.bits) d a b s
/-- `vslide.dn` (R145). -/
def execVslideDn (u : VUnit) (w : Width) (d : BitVec 5) (a b : Src) (s : State) : Out :=
  vMove u w.bits (fun x _ c e => if e + c < elemCount w.bits then elemOf x (e + c) w.bits else 0) d a b s
/-- `vslide.up` (R145). -/
def execVslideUp (u : VUnit) (w : Width) (d : BitVec 5) (a b : Src) (s : State) : Out :=
  vMove u w.bits (fun x _ c e => if c ≤ e then elemOf x (e - c) w.bits else 0) d a b s

/-! ### Conversions (R146, R147) -/

/-- `vcvt` (R146): between an IEEE format and an integer of the same width. -/
def execVcvt (u : VUnit) (f : FType) (toFp uns : Bool) (rs : RSel) (d : BitVec 5) (a : Src) (s : State) : Out :=
  let rm := rs.mode s.ctx.rmode
  vFop1 u 4 f.wd (fun x =>
    if toFp then cvtFromInt f rm (intVal uns f.wd x) else cvtToInt (unpack f x) rm uns f.wd) d a s

/-- The rounding selected by B[5:4] of `vpack` and of a `.q` `vunpk` (R147). -/
def packSel (mode : BitVec 2) : RSel :=
  match mode.toNat with
  | 0 => .dyn | 1 => .rne | 2 => .rtz | _ => .rto

/-- Wide and narrow widths of a pair (R147). -/
def packWide : PackPair → Nat
  | .ds => 64 | .sh => 32 | .sb => 32 | .hq => 16 | .bq => 16 | .i64 => 64 | .i32 => 32 | .i16 => 16
def packNarrow : PackPair → Nat
  | .ds => 32 | .sh => 16 | .sb => 16 | .hq => 8 | .bq => 8 | .i64 => 32 | .i32 => 16 | .i16 => 8

/-- An integer narrowed by `.wrap`, `.ss`, `.su` or `.uu` (R147). -/
def narrowInt (mode : BitVec 2) (ws wd x : Nat) : Nat :=
  match mode.toNat with
  | 0 => x % 2 ^ wd
  | 1 => wrapInt wd (clampInt false wd (signedVal ws x))
  | 2 => wrapInt wd (clampInt true wd (signedVal ws x))
  | _ => wrapInt wd (clampInt true wd (intVal true ws x))

/-- The narrowing of one element by `vpack` (R147). -/
def narrowElem (pair : PackPair) (mode : BitVec 2) (rm : Rm) (fmt : Nat) (x : Nat) : Nat × BitVec 5 :=
  match pair with
  | .ds => cvtToF .s rm (unpack .d x)
  | .sh => cvtToF .h rm (unpack .s x)
  | .sb => cvtToF .b rm (unpack .s x)
  | .hq => packQ fmt rm (unpack .h x)
  | .bq => packQ fmt rm (unpack .b x)
  | .i64 => (narrowInt mode 64 32 x, 0)
  | .i32 => (narrowInt mode 32 16 x, 0)
  | .i16 => (narrowInt mode 16 8 x, 0)

/-- The widening of one element by `vunpk` (R147). -/
def widenElem (pair : PackPair) (mode : BitVec 2) (rm : Rm) (fmt : Nat) (x : Nat) : Nat × BitVec 5 :=
  let ext := fun (ws wd : Nat) => ((if mode = 0 then x else wrapInt wd (signedVal ws x)), (0 : BitVec 5))
  match pair with
  | .ds => cvtToF .d rm (unpack .s x)
  | .sh => cvtToF .s rm (unpack .h x)
  | .sb => cvtToF .s rm (unpack .b x)
  | .hq => cvtToF .h rm (unpackQ fmt x)
  | .bq => cvtToF .b rm (unpackQ fmt x)
  | .i64 => ext 32 64
  | .i32 => ext 16 32
  | .i16 => ext 8 16

/-- The format register of a `.q` pair; one that holds 0 traps ILLEGAL (R46, R147). -/
def withFmt (u : VUnit) (pair : PackPair) (fmt : BitVec 4) (s : State) (k : Nat → Out) : Out :=
  if pair.isNarrow then
    let f := (vget s.ctx.s.f fmt.toNat ⟨0, 0⟩).val
    if f = 0 then raiseC s .illegal u.unit else k f.toNat
  else k 0

/-- `vpack` (R147): one half of D is written, the other kept. -/
def execVpack (u : VUnit) (pair : PackPair) (hi : Bool) (mode : BitVec 2) (fmt : BitVec 4) (d : BitVec 5) (a : Src)
    (s : State) : Out :=
  withFmt u pair fmt s (fun f =>
    vSrc1 u (packWide pair) a s (fun x t =>
      let (z, tz) := s.ctx.rdVd u d
      let l := (elems (packWide pair) x.toNat).map
        (narrowElem pair mode ((packSel mode).mode s.ctx.rmode) f)
      let old := elems (packNarrow pair) z.toNat
      let m := elemCount (packWide pair)
      let new := l.map (·.1)
      let r := if hi then old.take m ++ new else new ++ old.drop m
      vPut u 4 d (qCount a) (vecOf (packNarrow pair) r, l.foldl (fun fl e => fl ||| e.2) 0) (t ||| tz) s))

/-- `vunpk` (R147): one half of A is widened. -/
def execVunpk (u : VUnit) (pair : PackPair) (hi : Bool) (mode : BitVec 2) (fmt : BitVec 4) (d : BitVec 5) (a : Src)
    (s : State) : Out :=
  withFmt u pair fmt s (fun f =>
    vSrc1 u (packNarrow pair) a s (fun x t =>
      let m := elemCount (packWide pair)
      let src := ((elems (packNarrow pair) x.toNat).drop (if hi then m else 0)).take m
      let l := src.map (widenElem pair mode ((packSel mode).mode s.ctx.rmode) f)
      vPut u 4 d (qCount a) (collect (packWide pair) l) t s))

/-! ### Reductions (R57, R58, R148) -/

/-- A reduction over the active elements into every element of D. -/
def vReduce (u : VUnit) (lat w : Nat) (red : BitVec 32 → V2048 → V2048 × BitVec 5) (d : BitVec 5) (a : Src)
    (sel : MaskSel) (s : State) : Out :=
  vSrc1 u w a s (fun x t =>
    let (m, tm) := s.ctx.rdSel u sel
    vPut u lat d (qCount a) (red m x) (t ||| tm) s)

/-- A reduction of integer elements by an operation without flags. -/
def vReduceInt (u : VUnit) (w : Nat) (f : Nat → Nat → Nat) (dflt : Nat) (d : BitVec 5) (a : Src) (sel : MaskSel)
    (s : State) : Out :=
  vReduce u 4 w (reduceVec w (fun x y => (f x y, 0)) dflt) d a sel s

/-- `vredsum` (R148): +0 or 0 when no element is active. -/
def execVredsum (u : VUnit) (ty : WType) (d : BitVec 5) (a : Src) (sel : MaskSel) (s : State) : Out :=
  match ty with
  | .int w => vReduceInt u w.bits (iAdd w.bits) 0 d a sel s
  | .fp f => vReduce u 8 f.wd (reduceFp f (fAdd f s.ctx.rmode) 0) d a sel s

/-- `vredsum.sat` (R148). -/
def execVredsumSat (u : VUnit) (ty : XType) (d : BitVec 5) (a : Src) (sel : MaskSel) (s : State) : Out :=
  vReduceInt u ty.w.bits (iAddSat ty.uns ty.w.bits) 0 d a sel s

/-- `vredmax` on IEEE types (R148): the canonical NaN when no element is active. -/
def execVredmaxFp (u : VUnit) (f : FType) (d : BitVec 5) (a : Src) (sel : MaskSel) (s : State) : Out :=
  vReduce u 4 f.wd (reduceFp f (fMinMax f true) f.canon) d a sel s

/-- `vredmin` on IEEE types (R148). -/
def execVredminFp (u : VUnit) (f : FType) (d : BitVec 5) (a : Src) (sel : MaskSel) (s : State) : Out :=
  vReduce u 4 f.wd (reduceFp f (fMinMax f false) f.canon) d a sel s

/-- `vredmax` on integer types (R148): the type's least value when no element is active. -/
def execVredmaxInt (u : VUnit) (ty : XType) (d : BitVec 5) (a : Src) (sel : MaskSel) (s : State) : Out :=
  vReduceInt u ty.w.bits (iMax ty.uns ty.w.bits) (wrapInt ty.w.bits (intMin ty.uns ty.w.bits)) d a sel s

/-- `vredmin` on integer types (R148): the type's greatest value when no element is active. -/
def execVredminInt (u : VUnit) (ty : XType) (d : BitVec 5) (a : Src) (sel : MaskSel) (s : State) : Out :=
  vReduceInt u ty.w.bits (iMin ty.uns ty.w.bits) (wrapInt ty.w.bits (intMax ty.uns ty.w.bits)) d a sel s

/-! ### Wide sums (R149 to R153) -/

/-- `wsadd` (R150): the increment lands 4 bundles later. -/
def execWsadd (u : VUnit) (ty : WsAddTy) (w : BitVec 2) (a : Src) (sel : MaskSel) (s : State) : Out :=
  vSrc1 u ty.elem.wd a s (fun x t =>
    let (m, tm) := s.ctx.rdSel u sel
    let (inc, st, fl) := wsIncrement ty.ws64 ty.elem m x
    .next (s.onCtx (fun c => (c.popLq u.dunit (qCount a)).putDue 4 [.wsinc u w ty.ws64 inc (BitVec.ofNat 8 st)]
      (t ||| tm) fl)))

/-- `wsrnd` (R56, R151). -/
def execWsrnd (u : VUnit) (ty : WsRndTy) (d : BitVec 5) (a : Src) (rs : RSel) (s : State) : Out :=
  let (x, t) := s.ctx.rdW u a
  let (r, fl) := wsRound ty.ws64 ty.target (rs.mode s.ctx.rmode) x.toNat
  vPut u 6 d 0 (vecOf ty.target.wd (List.replicate (elemCount ty.target.wd) r), fl) t s

/-- A wide sum placed in the due queue (R130). -/
def wPut (u : VUnit) (lat : Nat) (w : BitVec 2) (pops : Nat) (v : WSum) (t : Taint) (s : State) : Out :=
  .next (s.onCtx (fun c => (c.popLq u.dunit pops).put lat (.wsum u w v) t))

/-- `wsclr` (R152). -/
def execWsclr (u : VUnit) (w : BitVec 2) (s : State) : Out := wPut u 1 w 0 0 0 s

/-- `wsmov.w` (R153). An immediate is taken at 64 bits. (DESIGN CHOICE, log 95.) -/
def execWsmovW (u : VUnit) (w : BitVec 2) (a : Src) (s : State) : Out :=
  vSrc1 u 64 a s (fun x t => wPut u 2 w (qCount a) (wsClean false (x.toNat % 2 ^ 384)) t s)

/-- `wsmov.v` (R153): the register read as a WS32, its reserved status bits zero. (DEDUCED, log 100.) -/
def execWsmovV (u : VUnit) (d : BitVec 5) (a : Src) (s : State) : Out :=
  let (x, t) := s.ctx.rdW u a
  vPut u 2 d 0 ((wsClean false x.toNat).setWidth 2048, 0) t s

/-- `wsmov` (R153): reserved status bits of the image written are zero. -/
def execWsmov (u : VUnit) (w : BitVec 2) (a : Src) (s : State) : Out :=
  let (x, t) := s.ctx.rdW u a
  wPut u 2 w 0 (wsClean true x.toNat) t s

/-- `wsmov.pop` (R153): the head of the load-data queue, which must be a wide-sum entry (R229). -/
def execWsmovPop (u : VUnit) (w : BitVec 2) (s : State) : Out :=
  let (q, t) := s.ctx.lqVal u.dunit 0
  if q.isWide then wPut u 2 w 1 (wsClean q.isW64 q.wide.toNat) t s else raiseC s .illegal u.unit

end Sys2Proof.Machine
end

