-- ==== Sys2Proof/Machine/Matrix.lean ====
section
/-! DEFINITION. The M unit, the matrix array and the S unit: descriptors, the M queue, the arithmetic of a pass to the
bit, tile transfers, scale and format registers (R49 to R53, R157 to R191). -/

namespace Sys2Proof.Machine

open Sys2Proof

/-! ### Stream descriptors and operand formats (R165, R167, R168) -/

/-- Pass kinds (R168). -/
inductive PassKind where
  | int | f16 | f32 | f64
deriving DecidableEq, Repr

/-- The kind that an operand of a type belongs to. -/
def opKind (ty fmt : Nat) : PassKind :=
  match ty with
  | 0 => .int | 1 => .int | 4 => .int | 5 => .int | 8 => .f16 | 9 => .f16 | 10 => .f32 | 11 => .f64
  | _ => if descEw fmt = 0 then .int else .f16

/-- The pass kind of two operands; none where the table lists no kind for them. -/
def passKind (ta fa tb fb : Nat) : Option PassKind := if opKind ta fa = opKind tb fb then some (opKind ta fa) else none

/-- Whether a step is allowed in a kind (R168); `bothQ` when both operands are `.q`. -/
def stepOk (k : PassKind) (bothQ : Bool) (step : Nat) : Bool :=
  match k with
  | .int => true
  | .f16 => decide (step < 2) || bothQ
  | .f32 => decide (step < 2)
  | .f64 => decide (step < 2)

/-- Alignment block and window (R168). -/
def PassKind.block : PassKind → Nat
  | .int => 64 | .f16 => 32 | .f32 => 8 | .f64 => 8
def PassKind.window : PassKind → Int
  | .int => 0 | .f16 => 96 | .f32 => 128 | .f64 => 192
/-- The accumulator format of a floating-point kind (R50, R168). -/
def PassKind.acc : PassKind → FType
  | .int => .s | .f16 => .s | .f32 => .s | .f64 => .d
def PassKind.isF64 : PassKind → Bool
  | .f64 => true | .int => false | .f16 => false | .f32 => false
def PassKind.isInt : PassKind → Bool
  | .int => true | .f64 => false | .f16 => false | .f32 => false
def PassKind.num : PassKind → Nat
  | .int => 0 | .f16 => 1 | .f32 => 2 | .f64 => 3
def PassKind.ofNum : Nat → PassKind
  | 0 => .int | 1 => .f16 | 2 => .f32 | _ => .f64

/-- Step `t mod 4` of a cell-op pattern (R68, R170). -/
def cpStep (cp t : Nat) : Nat := natField cp (2 * (t % 4)) 2

/-- The value of an operand code in a floating-point kind (R37, R47). -/
def opVal (ty fmt code : Nat) : FVal :=
  match ty with
  | 8 => unpack .h code
  | 9 => unpack .b code
  | 10 => unpack .s code
  | 11 => unpack .d code
  | _ => unpackQ fmt code

/-- The integer of an operand code in the INT kind (R52). -/
def opInt (ty fmt code : Nat) : Int :=
  match ty with
  | 0 => signedVal 8 code
  | 1 => signedVal 16 code
  | 4 => ((code % 256 : Nat) : Int)
  | 5 => ((code % 65536 : Nat) : Int)
  | _ => intOfQ fmt code

/-! ### The arithmetic of a cell (R50 to R52, R170, R171) -/

/-- What a block contributes to its entry. -/
inductive BlockV where
  | none
  | val (v : FVal)
deriving DecidableEq, Repr

def FVal.isFinite : FVal → Bool
  | .fin _ _ _ => true | .inf _ => false | .nan _ => false

/-- The window sum of exact terms (R50): `s` and the weight of its lowest bit; none when every term is zero. -/
def windowSum (n : Nat) (w : Int) (terms : List (Int × Int)) : Option (Int × Int) :=
  let nz := terms.filter (fun (t : Int × Int) => t.1 != 0)
  match nz.map (fun (t : Int × Int) => (Nat.log2 t.1.natAbs : Int) + t.2) with
  | [] => none
  | h :: r =>
    let top := r.foldl max h
    let lsb := top + Nat.log2 n - w + 1
    some (nz.foldl (fun s (t : Int × Int) =>
      s + (if lsb ≤ t.2 then t.1 * ((2 ^ (t.2 - lsb).toNat : Nat) : Int)
           else t.1 / ((2 ^ (lsb - t.2).toNat : Nat) : Int))) 0, lsb)

/-- A finite value as a signed dyadic. -/
def FVal.dyadic : FVal → Int × Int
  | .fin n m e => (FVal.sgn n m, e)
  | .inf _ => (0, 0)
  | .nan _ => (0, 0)

def FVal.ofDyadic (z : Int × Int) : FVal := .fin (z.1 < 0) z.1.natAbs z.2

/-- The exact sum or difference of two finite values. -/
def FVal.exactSub (x y : FVal) : Int × Int :=
  addDyadic x.dyadic.1 x.dyadic.2 (-(y.dyadic.1)) y.dyadic.2
def FVal.exactAdd (x y : FVal) : Int × Int := addDyadic x.dyadic.1 x.dyadic.2 y.dyadic.1 y.dyadic.2

/-- Add a block's value to an entry, rounded once (R50, R51): a NaN entry stays the canonical NaN. -/
def accAdd (t : FType) (acc : Nat) (v : FVal) (fl : BitVec 5) : Nat × BitVec 5 :=
  if v.isNan || (unpack t acc).isNan then (t.canon, fl)
  else
    let (r, f) := addV t .rne (unpack t acc) v
    (r, fl ||| f)

/-- The MAD step over one alignment block (R50, R51). -/
def madBlock (t : FType) (n : Nat) (w : Int) (sa sb : FVal) (acc : Nat) (ab : List (FVal × FVal)) : Nat × BitVec 5 :=
  let anyNan := ab.any (fun (p : FVal × FVal) => p.1.isNan || p.2.isNan)
  let snan := ab.any (fun (p : FVal × FVal) => p.1.isSnan || p.2.isSnan)
  let zeroInf := ab.any (fun (p : FVal × FVal) => (p.1.isZero && p.2.isInf) || (p.1.isInf && p.2.isZero))
  let infs := ab.filter (fun (p : FVal × FVal) => (p.1.isInf || p.2.isInf) && !p.1.isNan && !p.2.isNan && !p.1.isZero && !p.2.isZero)
  let pinf := infs.any (fun (p : FVal × FVal) => p.1.neg == p.2.neg)
  let ninf := infs.any (fun (p : FVal × FVal) => p.1.neg != p.2.neg)
  let badScale := !sa.isFinite || !sb.isFinite
  let zeroScale := sa.isZero || sb.isZero
  let nv := snan || zeroInf || (pinf && ninf) || badScale
  if anyNan || nv then accAdd t acc (.nan false) (flagIf nv fNV)
  else if pinf || ninf then
    if zeroScale then accAdd t acc (.nan false) fNV
    else accAdd t acc (.inf ((ninf != sa.neg) != sb.neg)) 0
  else
    match windowSum n w (ab.map (fun (p : FVal × FVal) => (p.1.dyadic.1 * p.2.dyadic.1, p.1.dyadic.2 + p.2.dyadic.2))) with
    | none => (acc, 0)
    | some (s, lsb) =>
      let z := s * sa.dyadic.1 * sb.dyadic.1
      if z = 0 then (acc, 0) else accAdd t acc (FVal.ofDyadic (z, lsb + sa.dyadic.2 + sb.dyadic.2)) 0

/-- The ADA step over one alignment block (R170, R171). -/
def adaBlock (t : FType) (n : Nat) (w : Int) (acc : Nat) (ab : List (FVal × FVal)) : Nat × BitVec 5 :=
  let anyNan := ab.any (fun (p : FVal × FVal) => p.1.isNan || p.2.isNan)
  let snan := ab.any (fun (p : FVal × FVal) => p.1.isSnan || p.2.isSnan)
  let sameInf := ab.any (fun (p : FVal × FVal) => p.1.isInf && p.2.isInf && p.1.neg == p.2.neg)
  if anyNan || sameInf then accAdd t acc (.nan false) (flagIf (snan || sameInf) fNV)
  else if ab.any (fun (p : FVal × FVal) => p.1.isInf || p.2.isInf) then accAdd t acc (.inf false) 0
  else
    match windowSum n w (ab.map (fun (p : FVal × FVal) => let d := FVal.exactSub p.1 p.2; ((d.1.natAbs : Int), d.2))) with
    | none => (acc, 0)
    | some (s, lsb) => if s = 0 then (acc, 0) else accAdd t acc (FVal.ofDyadic (s, lsb)) 0

/-- The exact sum of two values that are not NaN nor opposite infinities. -/
def mxSum (p : FVal × FVal) : FVal :=
  if p.1.isInf then p.1 else if p.2.isInf then p.2 else FVal.ofDyadic (FVal.exactAdd p.1 p.2)

/-- The MXP and MNP steps over one k-block (R170, R171): the entry is kept, bit for bit, unless a sum beats it; a winning sum
of zero is +0. (DESIGN CHOICE, log 96.) -/
def mxBlock (t : FType) (isMax : Bool) (acc : Nat) (ab : List (FVal × FVal)) : Nat × BitVec 5 :=
  let opp := ab.any (fun (p : FVal × FVal) => p.1.isInf && p.2.isInf && p.1.neg != p.2.neg)
  let x := unpack t acc
  if opp || x.isNan || ab.any (fun (p : FVal × FVal) => p.1.isNan || p.2.isNan) then (t.canon, flagIf opp fNV)
  else
    let better := fun (a b : FVal) => if isMax then decide (cmpV a b < 0) else decide (cmpV b a < 0)
    let best := (ab.map mxSum).foldl (fun m v => if better m v then v else m) x
    if best = x then (acc % 2 ^ t.wd, 0) else addV t .rne best (.fin false 0 0)

/-- Consecutive groups of `n` entries. -/
def groupsOf {α : Type} (n : Nat) : Nat → List α → List (List α)
  | 0, _ => []
  | fuel + 1, l => if l.isEmpty then [] else l.take n :: groupsOf n fuel (l.drop n)

/-- One k-block of a floating-point entry (R170). Scales apply in MAD steps only (R172). -/
def kblockF (k : PassKind) (step : Nat) (sa sb : FVal) (acc : Nat) (ab : List (FVal × FVal)) : Nat × BitVec 5 :=
  let t := k.acc
  match step with
  | 0 => (groupsOf k.block 8 ab).foldl (fun (r : Nat × BitVec 5) g =>
      let q := madBlock t k.block k.window sa sb r.1 g
      (q.1, r.2 ||| q.2)) (acc, 0)
  | 1 => (groupsOf k.block 8 ab).foldl (fun (r : Nat × BitVec 5) g =>
      let q := adaBlock t k.block k.window r.1 g
      (q.1, r.2 ||| q.2)) (acc, 0)
  | 2 => mxBlock t true acc ab
  | _ => mxBlock t false acc ab

/-- One k-block of an INT entry (R170). -/
def kblockI (step acc : Nat) (ab : List (Int × Int)) : Nat :=
  match step with
  | 0 => wrapInt 32 (ab.foldl (fun s p => s + p.1 * p.2) (acc : Int))
  | 1 => wrapInt 32 (ab.foldl (fun s p => s + ((p.1 - p.2).natAbs : Int)) (acc : Int))
  | 2 => wrapInt 32 (ab.foldl (fun s p => max s (p.1 + p.2)) (signedVal 32 acc))
  | _ => wrapInt 32 (ab.foldl (fun s p => min s (p.1 + p.2)) (signedVal 32 acc))

/-- The identity of step 0 (R170). -/
def stepIdentity (k : PassKind) (step : Nat) : Nat :=
  match k, step with
  | .int, 2 => 2 ^ 31
  | .int, 3 => 2 ^ 31 - 1
  | .f16, 2 => withSign .s true FType.s.infBits
  | .f16, 3 => FType.s.infBits
  | .f32, 2 => withSign .s true FType.s.infBits
  | .f32, 3 => FType.s.infBits
  | .f64, 2 => withSign .d true FType.d.infBits
  | .f64, 3 => FType.d.infBits
  | _, _ => 0

/-- A pass over one entry: `blocks` k-blocks of its row of A codes and column of B codes. -/
def passEntry (k : PassKind) (ta fa tb fb : Nat) (cp blocks : Nat) (ow : Bool) (sa sb : FVal) (acc : Nat)
    (ra cb : List Nat) : Nat × BitVec 5 :=
  let start := if ow then stepIdentity k (cpStep cp 0) else acc
  (List.range blocks).foldl (fun (r : Nat × BitVec 5) t =>
    let a := (ra.drop (64 * t)).take 64
    let b := (cb.drop (64 * t)).take 64
    match k with
    | .int => (kblockI (cpStep cp t) r.1 (List.zipWith (fun x y => (opInt ta fa x, opInt tb fb y)) a b), r.2)
    | .f16 => let q := kblockF k (cpStep cp t) sa sb r.1 (List.zipWith (fun x y => (opVal ta fa x, opVal tb fb y)) a b)
              (q.1, r.2 ||| q.2)
    | .f32 => let q := kblockF k (cpStep cp t) sa sb r.1 (List.zipWith (fun x y => (opVal ta fa x, opVal tb fb y)) a b)
              (q.1, r.2 ||| q.2)
    | .f64 => let q := kblockF k (cpStep cp t) sa sb r.1 (List.zipWith (fun x y => (opVal ta fa x, opVal tb fb y)) a b)
              (q.1, r.2 ||| q.2)) (start, 0)

/-! ### Operands in the local array and the grist slice (R158, R159, R169) -/

/-- Code `e` of width `sw` in bytes read from `o`. -/
def codeAt (bytes : List Host.Cell) (o sw e : Nat) : Nat :=
  natField (bytesToNat (Memory.read bytes (o + e * sw / 8) ((sw + 7) / 8))) (if sw = 4 then 4 * (e % 2) else 0) sw

/-- The grist as the passes of an ASID read it: 0 in a region of another one (R159). -/
def Core.gristOf (k : Core) (asid : Nat) : List Host.Cell :=
  k.grist.filter (fun (x : Host.Cell) => vget k.gristAsid (x.1 % 262144 / 4096) none == some asid)

def unitF : FVal := .fin false 1 0

/-- Scale `j` of a scale register (R49), 1 where none applies. -/
def scaleAt (qen : Bool) (q : BitVec 512) (j : Nat) : FVal :=
  if qen then unpack .b (natField q.toNat (16 * j) 16) else unitF

/-- Word `n` of a tile (R160). -/
def Tile.word (t : Tile) (n : Nat) : Nat := natField t.val.toNat (32 * n) 32

def tileAt (k : Core) (z : Nat) : Tile := vget k.tiles z Tile.zero

/-- A tile that holds the given words, full, with a taint set. -/
def Tile.filled (t : Tile) (ws : List Nat) (taint : Taint) : Tile :=
  { t with val := BitVec.ofNat 32768 (ofElems 32 ws), taint := taint, full := true }

/-- The entries of a tile or pair (R160). -/
def entries (k : Core) (z : Nat) (pair : Bool) : List Nat :=
  (List.range 1024).map (fun n =>
    (tileAt k z).word n + (if pair then (tileAt k (z + 1)).word n * 2 ^ 32 else 0))

/-- The tiles that an operation names. -/
def tilesOf (z : Nat) (pair : Bool) : List Nat := if pair then [z, z + 1] else [z]

/-- Write entries into a tile or pair; both tiles of a pair take the same taint set (R160). -/
def Core.fillTiles (k : Core) (z : Nat) (pair : Bool) (es : List Nat) (taint : Taint) : Core :=
  let k1 := { k with tiles := vmod k.tiles z (fun t => t.filled (es.map (fun e => e % 2 ^ 32)) taint) }
  if pair then { k1 with tiles := vmod k1.tiles (z + 1) (fun t => t.filled (es.map (fun e => e / 2 ^ 32)) taint) } else k1

/-- The taint set of a tile or pair (R160). -/
def tilesTaint (k : Core) (z : Nat) (pair : Bool) : Taint := orT ((tilesOf z pair).map (fun z => (tileAt k z).taint))

/-- Mark tiles full or empty (R162). -/
def Core.markTiles (k : Core) (zs : List Nat) (full : Bool) : Core :=
  { k with tiles := zs.foldl (fun v z => vmod v z (fun t => { t with full := full })) k.tiles }

/-! ### The M queue (R176) -/

/-- Whether a context owns every tile of a list (R161). -/
def Ctx.ownsTiles (c : Ctx) (zs : List Nat) : Bool := zs.all (fun z => decide (z < 32) && c.place.zown.getLsbD z)

/-- The done bit that an M operation sets (R255). -/
def MOp.db : MOp → Option Nat
  | .pass _ _ _ _ _ _ _ _ _ _ _ _ => none
  | .zero _ _ => none
  | .read _ _ _ _ db => some db
  | .write _ _ _ _ db _ => some db
  | .stat _ db => some db

/-- Enter the M queue: the tiles become empty, the operation keeps the ordering taint of R164 and the path taint, and
its done bit begins (R247). -/
def mEnter (s : State) (op : MOp) (t : Taint) (zs : List Nat) : Out :=
  let s1 := { s with core := s.core.markTiles zs false }
  .next (s1.onCtx (fun c =>
    let c1 := match op.db with
      | some db => c.beginDone db
      | none => c
    { c1 with mem := { c1.mem with
      mq := c1.mem.mq ++ [⟨op, t ||| c1.path, c1.mem.aseq, none⟩], aseq := c1.mem.aseq + 1 } }))

/-- The stream descriptor a word names. -/
def Ctx.sd (c : Ctx) (n : BitVec 3) : BitVec 256 × Taint := let e := vget c.m.sd n.toNat ⟨0, 0⟩; (e.val, e.taint)

/-- The lowest local-array offset of the 32 rows of `len` bytes that lies outside the context's banks (R163). -/
def Ctx.rowsOutside (c : Ctx) (base stride len rows : Nat) : Option Nat :=
  ((List.range rows).filterMap (fun i => c.firstOutside (16 * (base + i * stride)) len)).foldl
    (fun m o => match m with
      | none => some o
      | some x => some (min x o)) none

/-- `mpass` (R173): the checks in their order, then the operands of the issuing bundle go with the operation. -/
def execMpass (z : BitVec 5) (sd : BitVec 3) (gp : BitVec 2) (cp : BitVec 8) (n : BitVec 3) (f : Bool) (s : State) :
    Out :=
  let c := s.ctx
  let (d, td) := c.sd sd
  let g := vget c.m.gp gp.toNat ⟨0, 0⟩
  let fa := vget c.s.f (sdAfmt d) ⟨0, 0⟩
  let fb := vget c.s.f (sdBfmt d) ⟨0, 0⟩
  let qa := vget c.s.q (sdQa d) ⟨0, 0⟩
  let qb := vget c.s.q (sdQb d) ⟨0, 0⟩
  let aq := sdAtype d == 12
  let bq := sdBtype d == 12
  let isF64 := sdAtype d == 11 && sdBtype d == 11
  let zs := tilesOf z.toNat isF64
  let off := natField g.val.toNat 0 13
  let blocks := n.toNat + 1
  if !c.ownsTiles zs then raiseC s .perm .M
  else if (aq && fa.val == 0) || (bq && fb.val == 0) then raiseC s .illegal .M
  else
    match passKind (sdAtype d) fa.val.toNat (sdBtype d) fb.val.toNat with
    | none => raiseC s .illegal .M
    | some k =>
      if (k.isF64 && z.toNat % 2 != 0) || !(List.range 4).all (fun t => stepOk k (aq && bq) (cpStep cp.toNat t)) then
        raiseC s .illegal .M
      else
        match c.rowsOutside (sdBase d) (sdStride d) (8 * opSw (sdAtype d) fa.val.toNat * blocks) 32 with
        | some o => raiseLa s .M o
        | none =>
          if off < c.place.gLo || c.place.gHi < off + blocks * opSw (sdBtype d) fb.val.toNat / 4 then
            raiseC s .bound .M
          else
            let t := td ||| g.taint ||| (if sdQen d then qa.taint ||| qb.taint else 0) |||
              (if aq then fa.taint else 0) ||| (if bq then fb.taint else 0)
            mEnter s (.pass z.toNat k.num n.toNat cp.toNat f d off fa.val fb.val qa.val qb.val t) td zs

/-- `mzero` (R178). -/
def execMzero (pair : Bool) (z : BitVec 5) (s : State) : Out :=
  if !s.ctx.ownsTiles (tilesOf z.toNat pair) then raiseC s .perm .M
  else if pair && z.toNat % 2 != 0 then raiseC s .illegal .M
  else mEnter s (.zero z.toNat pair) 0 (tilesOf z.toNat pair)

/-- The checks that `mread` and `mwrite` share (R179), then the operation. -/
def mTransfer (op : MOp) (z : Nat) (pair : Bool) (base stride rows : Nat) (t : Taint) (s : State) : Out :=
  if !s.ctx.ownsTiles (tilesOf z pair) then raiseC s .perm .M
  else if pair && z % 2 != 0 then raiseC s .illegal .M
  else
    match s.ctx.rowsOutside base stride (if pair then 256 else 128) rows with
    | some o => raiseLa s .M o
    | none => mEnter s op t (tilesOf z pair)

/-- `mread` (R179). -/
def execMread (pair : Bool) (z : BitVec 5) (sd : BitVec 3) (db : BitVec 6) (s : State) : Out :=
  let (d, td) := s.ctx.sd sd
  mTransfer (.read z.toNat pair (sdBase d) (sdStride d) db.toNat) z.toNat pair (sdBase d) (sdStride d) 32 td s

/-- `mwrite` (R179): `.bc` reads one row for every row of the tile. -/
def execMwrite (form : MwForm) (z : BitVec 5) (sd : BitVec 3) (db : BitVec 6) (s : State) : Out :=
  let (d, td) := s.ctx.sd sd
  let op := MOp.write z.toNat form (sdBase d) (sdStride d) db.toNat td
  match form with
  | .single => mTransfer op z.toNat false (sdBase d) (sdStride d) 32 td s
  | .pair => mTransfer op z.toNat true (sdBase d) (sdStride d) 32 td s
  | .bc => mTransfer op z.toNat false (sdBase d) 0 1 td s

/-- `mstat` (R180). -/
def execMstat (sd : BitVec 3) (db : BitVec 6) (s : State) : Out :=
  let (d, td) := s.ctx.sd sd
  if sdBase d % 3 ≠ 0 then raise s { s.ctx.trapInfo .align .M with addr := BitVec.ofNat 64 (16 * sdBase d) }
  else
    match s.ctx.firstOutside (16 * sdBase d) 48 with
    | some o => raiseLa s .M o
    | none => mEnter s (.stat (sdBase d) db.toNat) td []

/-! ### Descriptors and pointers (R181, R182) -/

/-- Replace a field group of a stream descriptor: an exposed result of latency 1. -/
def mSet (sd : BitVec 3) (lo len v : Nat) (s : State) : Out :=
  .next (s.onCtx (fun c =>
    let (d, t) := c.sd sd
    c.put 1 (.sd sd (BitVec.ofNat 256 (natSetField d.toNat lo len v))) t))

/-- `mset.base` (R181). -/
def execMsetBase (sd : BitVec 3) (v : BitVec 16) (s : State) : Out := mSet sd 0 16 v.toNat s
/-- `mset.stride` (R181). -/
def execMsetStride (sd : BitVec 3) (v : BitVec 16) (s : State) : Out := mSet sd 16 16 v.toNat s
/-- `mset.fmt` (R181). -/
def execMsetFmt (sd : BitVec 3) (atype afmt btype bfmt : BitVec 4) (s : State) : Out :=
  mSet sd 32 16 (atype.toNat + afmt.toNat * 16 + btype.toNat * 256 + bfmt.toNat * 4096) s
/-- `mset.scale` (R181). -/
def execMsetScale (sd : BitVec 3) (qa qb : BitVec 4) (qen : Bool) (s : State) : Out :=
  mSet sd 48 9 (qa.toNat + qb.toNat * 16 + (if qen then 256 else 0)) s

/-- `gset` (R182). -/
def execGset (gp : BitVec 2) (off : BitVec 13) (s : State) : Out :=
  .next (s.onCtx (fun c => c.put 1 (.gp gp (off.setWidth 32)) 0))
/-- `gset.add` (R182): modulo 8,192. -/
def execGsetAdd (gp : BitVec 2) (off : BitVec 13) (s : State) : Out :=
  .next (s.onCtx (fun c =>
    let g := vget c.m.gp gp.toNat ⟨0, 0⟩
    c.put 1 (.gp gp (BitVec.ofNat 32 ((g.val.toNat + off.toNat) % 8192))) g.taint))

/-! ### The array (events M_OP_START, M_OP_END) -/

/-- Outstanding accesses of a context that write a local array, before place `seq` (R164). -/
def Ctx.arrayWrites (c : Ctx) (seq : Nat) : List Access :=
  (c.earlier seq).filter (fun x => x.writesArray)

/-- The ordering taint of an M operation: for `mread` the tile's set as well, the data taint of what it writes. -/
def State.mTaint (s : State) (e : MEntry) : Taint :=
  match e.op with
  | .read z pair _ _ _ => e.taint ||| tilesTaint s.core z pair
  | .pass _ _ _ _ _ _ _ _ _ _ _ _ => e.taint
  | .zero _ _ => e.taint
  | .write _ _ _ _ _ _ => e.taint
  | .stat _ _ => e.taint

/-- The byte ranges of the grist that a pass reads, in all its columns (R169). -/
def MOp.gristPrints : MOp → List (Nat × Nat)
  | .pass _ _ n _ _ d off _ fb _ _ _ =>
    (List.range 32).map (fun j => (j * 262144 + 32 * off, 8 * opSw (sdBtype d) fb.toNat * (n + 1)))
  | .zero _ _ => []
  | .read _ _ _ _ _ => []
  | .write _ _ _ _ _ _ => []
  | .stat _ _ => []

/-- Whether an M operation writes the local array. -/
def MOp.writes : MOp → Bool
  | .read _ _ _ _ _ => true
  | .stat _ _ => true
  | .pass _ _ _ _ _ _ _ _ _ _ _ _ => false
  | .zero _ _ => false
  | .write _ _ _ _ _ _ => false

/-- The aligned 8-byte words of byte ranges, each once. -/
def wordsOf (l : List (Nat × Nat)) : List Nat :=
  (l.flatMap (fun (r : Nat × Nat) => (List.range ((r.1 + r.2 + 7) / 8 - r.1 / 8)).map (· + r.1 / 8))).eraseDups

/-- Whether the head of a context's M queue may start (R164, R262, R265, R272): no fence before it is left, earlier writes to
the array and earlier loads of the bytes that it touches have performed, and no load of its taint sets is outstanding.
(DEDUCED, log 75.) -/
def State.mReady (s : State) (c : Ctx) : Bool :=
  match c.mem.mq with
  | [] => false
  | e :: _ => e.run.isNone && (c.arrayWrites e.seq).isEmpty && !(e.op.accesses && c.fenced e.seq) &&
      !(c.earlier e.seq).any (fun x => x.op.reads && x.loc == .loc c.place.core &&
        x.pieces.any (fun (p : Piece) => e.op.prints.any (fun (r : Nat × Nat) => rangesMeet p.addr x.size r.1 r.2))) &&
      !(List.range 16).any (fun k => natBit (s.mTaint e).toNat k && (idAt c k).held)

def Ctx.mRunning (c : Ctx) : Bool :=
  match c.mem.mq with
  | e :: _ => e.run.isSome
  | [] => false

/-- Whether the array takes the current context's head next (R176): it runs nothing, and where both contexts have an
operation that may start, they alternate, the primary first. -/
def State.mStarts (s : State) : Bool :=
  let c := s.ctx
  s.mReady c && !c.mRunning &&
  (match s.peer with
   | none => true
   | some p => !p.mRunning && (!s.mReady p ||
      (if s.core.mLast = 0 then c.place.prim else s.core.mLast != c.place.slot + 1)))

/-- The running head of the current context's queue. -/
def Ctx.setRun (c : Ctx) (r : MRun) : Ctx :=
  { c with mem := { c.mem with mq := match c.mem.mq with
      | e :: l => { e with run := some r } :: l
      | [] => [] } }

/-- M_OP_START (R176): the array begins with what the local array and the grist hold; an operation that the other context
does not contend for ends an alternation. -/
def execMOpStart (s : State) : Out :=
  if s.mStarts then
    let both := match s.peer with
      | some p => s.mReady p
      | none => false
    let s1 := { s with core := { s.core with mLast := if both then s.ctx.place.slot + 1 else 0 } }
    .next (s1.onCtx (fun c => c.setRun ⟨s.core.la, s.core.gristOf c.place.asid, []⟩))
  else .next s

/-- Bytes as a running operation reads them (R164, R175): each aligned word as it was or as it is now, a free choice for
each. -/
def mixWords (d : Nat) (old new : List Host.Cell) (ws : List Nat) : List Host.Cell :=
  (ws.zip (List.range ws.length)).foldl (fun m (x : Nat × Nat) =>
    if Config.freeBool (d + x.2) then Memory.write m (8 * x.1) (Memory.read new (8 * x.1) 8) else m) old

/-- The array reads on: some words of what the running operation reads are as they stand now (R164, R175). -/
def State.mixRun (s : State) (op : MOp) (r : MRun) : State × MRun :=
  let wa := if op.writes then [] else wordsOf op.prints
  let wg := wordsOf op.gristPrints
  ({ s with draws := s.draws + wa.length + wg.length },
   { r with la := mixWords s.draws r.la s.core.la wa
            grist := mixWords (s.draws + wa.length) r.grist (s.core.gristOf s.ctx.place.asid) wg })

/-- The effect of a pass (R173) on the tiles of the core, with the flags of all entries. -/
def Core.runPass (k : Core) (run : MRun) (z : Nat) (kind : PassKind) (n cp : Nat) (ow : Bool) (d : BitVec 256) (off : Nat)
    (fa fb : BitVec 32) (qa qb : BitVec 512) (taint : Taint) : Core × BitVec 5 :=
  let blocks := n + 1
  let swa := opSw (sdAtype d) fa.toNat
  let swb := opSw (sdBtype d) fb.toNat
  let rows := (List.range 32).map (fun i =>
    (List.range (64 * blocks)).map (codeAt run.la (16 * (sdBase d + i * sdStride d)) swa))
  let cols := (List.range 32).map (fun j => (List.range (64 * blocks)).map (codeAt run.grist (j * 262144 + 32 * off) swb))
  let es := entries k z kind.isF64
  let r := (List.range 32).flatMap (fun i => (List.range 32).map (fun j =>
    passEntry kind (sdAtype d) fa.toNat (sdBtype d) fb.toNat cp blocks ow
      (scaleAt (sdQen d) qa i) (scaleAt (sdQen d) qb j) ((es[32 * i + j]?).getD 0)
      ((rows[i]?).getD []) ((cols[j]?).getD [])))
  let t := if ow then taint else taint ||| tilesTaint k z kind.isF64
  (k.fillTiles z kind.isF64 (r.map (·.1)) t, r.foldl (fun f e => f ||| e.2) 0)

/-- The 48 bytes of an `mstat` record (R180). -/
def Ctx.mstatRecord (c : Ctx) : List Byte :=
  natToBytes 48 (c.st.passes.toNat + c.place.zown.toNat * 2 ^ 64 +
    (c.place.gLo + c.place.gHi * 2 ^ 16 + c.place.gLost * 2 ^ 32) * 2 ^ 96 + c.st.passFlags.toNat * 2 ^ 160)

/-- Rows of a transfer: row number and offset. -/
def mRows (base stride : Nat) : List (Nat × Nat) := (List.range 32).map (fun i => (i, 16 * (base + i * stride)))

/-- What an operation writes to the local array, byte by byte (R179, R180). Of rows of an `mread` that overlap, the last one's
bytes stand. (DESIGN CHOICE, log 97.) -/
def State.mImage (s : State) (op : MOp) : List Host.Cell :=
  match op with
  | .read z pair base stride _ =>
    let es := entries s.core z pair
    let n := if pair then 8 else 4
    (mRows base stride).foldl (fun m (r : Nat × Nat) =>
      Memory.write m r.2 (((es.drop (32 * r.1)).take 32).flatMap (natToBytes n))) []
  | .stat base _ => Memory.write [] (16 * base) s.ctx.mstatRecord
  | .pass _ _ _ _ _ _ _ _ _ _ _ _ => []
  | .zero _ _ => []
  | .write _ _ _ _ _ _ => []

/-- Aligned words of what an operation writes are written. -/
def State.putWords (s : State) (op : MOp) (ws : List Nat) : State :=
  let m := s.mImage op
  ws.foldl (fun (s : State) w => s.laPut s.core.num (8 * w) (Memory.read m (8 * w) 8)) s

/-- The words that a running operation has not written yet. -/
def MRun.left (r : MRun) (op : MOp) : List Nat :=
  if op.writes then (wordsOf op.prints).filter (fun w => !r.wrote.contains w) else []

/-- A running operation goes on (R164, R175): it reads some of the words it reads as they stand now, and writes some of the
words it writes, a free choice for each. (DEDUCED, log 98.) -/
def State.mRunOn (s : State) : State :=
  match s.ctx.mem.mq with
  | [] => s
  | e :: _ =>
    match e.run with
    | none => s
    | some r =>
      let (s1, r1) := s.mixRun e.op r
      let ws := ((r.left e.op).zip (List.range (r.left e.op).length)).filterMap (fun (x : Nat × Nat) =>
        if Config.freeBool (s1.draws + x.2) then some x.1 else none)
      { s1 with draws := s1.draws + (r.left e.op).length }.putWords e.op ws
        |>.onCtx (fun c => c.setRun { r1 with wrote := r1.wrote ++ ws })

/-- A running M operation takes effect and leaves the queue (R173, R178 to R180). -/
def State.runM (s : State) (op : MOp) (run : MRun) : State :=
  let (s1, r) := s.mixRun op run
  match op with
  | .pass z kn n cp ow d off fa fb qa qb t =>
    let (k, fl) := s1.core.runPass r z (PassKind.ofNum kn) n cp ow d off fa fb qa qb t
    { s1 with core := k }.onCtx (fun c => { (c.raiseFlags fl) with st := { (c.raiseFlags fl).st with
      passes := c.st.passes + 1, passFlags := c.st.passFlags ||| fl } })
  | .zero z pair => { s1 with core := s1.core.fillTiles z pair (List.replicate 1024 0) 0 }
  | .read z pair _ _ db =>
    let s2 := s1.putWords op (r.left op)
    { s2 with core := s2.core.markTiles (tilesOf z pair) true }.onCtx (fun c => c.endDone db 0 0 0)
  | .write z form base stride db t =>
    let pair := match form with
      | .pair => true | .single => false | .bc => false
    let st := match form with
      | .bc => 0 | .single => stride | .pair => stride
    let n := if pair then 8 else 4
    let es := (mRows base st).flatMap (fun (x : Nat × Nat) =>
      (List.range 32).map (fun j => bytesToNat (Memory.read r.la (x.2 + n * j) n)))
    { s1 with core := s1.core.fillTiles z pair es t }.onCtx (fun c => c.endDone db 0 0 0)
  | .stat _ db => (s1.putWords op (r.left op)).onCtx (fun c => c.endDone db 0 0 0)

/-- M_OP_END (R162, R173, R176): the running head of the current context's queue ends. -/
def execMOpEnd (s : State) : Out :=
  match s.ctx.mem.mq with
  | [] => .next s
  | e :: l =>
    match e.run with
    | some r => .next ((s.runM e.op r).onCtx (fun c => { c with mem := { c.mem with mq := l } }))
    | none => .next s

/-! ### The S unit (R184 to R190) -/

/-- `sld` (R188): 64 bytes read at issue, an exposed result of latency 6. -/
def execSld (q : BitVec 4) (unit : BitVec 17) (s : State) : Out :=
  match s.ctx.firstOutside (16 * unit.toNat) 64 with
  | some o => raiseLa s .S o
  | none =>
    let v := bytesToNat (Memory.read s.core.la (16 * unit.toNat) 64)
    .next (s.onCtx (fun c => c.put 6 (.scale q (BitVec.ofNat 512 v)) 0))

/-- `sset` (R187). -/
def execSset (q : BitVec 4) (imm : BitVec 16) (s : State) : Out :=
  .next (s.onCtx (fun c => c.put 1 (.scale q (BitVec.ofNat 512 (ofElems 16 (List.replicate 32 imm.toNat)))) 0))

/-- `fset` (R186). -/
def execFset (f : BitVec 4) (valid : Bool) (imm : BitVec 16) (s : State) : Out :=
  .next (s.onCtx (fun c => c.put 1 (.fmt f (imm.setWidth 32 ||| (if valid then 0x80000000 else 0))) 0))

/-- `smov` (R189). -/
def execSmov (fmt : Bool) (d : BitVec 4) (a : Src) (s : State) : Out :=
  .next (s.onCtx (fun c =>
    if fmt then let e := vget c.s.f (srcIdx a) ⟨0, 0⟩; c.put 1 (.fmt d e.val) e.taint
    else let e := vget c.s.q (srcIdx a) ⟨0, 0⟩; c.put 1 (.scale d e.val) e.taint))

/-- `sclr` (R190). -/
def execSclr (fmt : Bool) (d : BitVec 4) (s : State) : Out :=
  .next (s.onCtx (fun c => if fmt then c.put 1 (.fmt d 0) 0 else c.put 1 (.scale d 0) 0))

end Sys2Proof.Machine
end

