-- ==== Sys2Proof/Machine/Cross.lean ====
section
/-! DEFINITION. Words that the A, I, VA and VB units share: `xput`, `keep`, `tclr`, `tdep` (R122 to R126, R154 to
R156). -/

namespace Sys2Proof.Machine

open Sys2Proof

/-- A source of any of the four units: its 64-bit value (lane 0 of a vector), what a vector target takes (the value in
every lane, or the whole register), and its taint set. -/
def Ctx.rdU (c : Ctx) (u : DUnit) (a : Src) : W64 × V2048 × Taint :=
  match u with
  | .a => let (x, t) := c.rdA 0 a; (x, splat x.toNat, t)
  | .i => let (x, t) := c.rdI 0 a; (x, splat x.toNat, t)
  | .va => let (v, t) := c.rdV .va 64 0 a; (v.setWidth 64, v, t)
  | .vb => let (v, t) := c.rdV .vb 64 0 a; (v.setWidth 64, v, t)

/-- Whether a word of a unit pops a vector load-data queue entry of the wrong width (R229). -/
def Ctx.wrongPopU (c : Ctx) (u : DUnit) (a : Src) : Bool :=
  match u with
  | .a => false
  | .i => false
  | .va => c.wrongPop .va 0 a
  | .vb => c.wrongPop .vb 0 a

/-- The register write of `xput` (R123, R154). -/
def xputWrite (t : XTgt) (n : BitVec 5) (x : W64) (v : V2048) : RegWrite :=
  match t with
  | .c => .gen (n.setWidth 3) x
  | .a => .addr n x
  | .i => .int n x
  | .va => .vec .va n v
  | .vb => .vec .vb n v
  | .k => .kx n x

/-- `xput` (R123, R154): an exposed result of latency 2 in the target's file. -/
def execXput (u : DUnit) (t : XTgt) (n : BitVec 5) (a : Src) (s : State) : Out :=
  if s.ctx.wrongPopU u a then raiseC s .illegal u.unit
  else
    let (x, v, tt) := s.ctx.rdU u a
    .next (s.onCtx (fun c => (c.popLq u (qCount a)).put 2 (xputWrite t n x v) tt))

/-- Push an entry onto the tail of a store-data queue (R124, R155). -/
def Ctx.pushSq (c : Ctx) (u : DUnit) (v : QVal) (t : Taint) : Ctx := c.setSq u (c.sq u ++ [⟨v, t⟩])

def DUnit.isVec : DUnit → Bool
  | .va => true | .vb => true | .a => false | .i => false

/-- `keep` (R124, R155). -/
def execKeep (u : DUnit) (a : Src) (s : State) : Out :=
  if s.ctx.wrongPopU u a then raiseC s .illegal u.unit
  else
    let (x, v, t) := s.ctx.rdU u a
    .next (s.onCtx (fun c => (c.popLq u (qCount a)).pushSq u (if DUnit.isVec u then .v v else .s x) t))

/-- `keep.w32` (R155): bits 383:0 of the wide sum, its reserved status bits zero (R54). -/
def execKeepW32 (u : VUnit) (a : Src) (s : State) : Out :=
  let (x, t) := s.ctx.rdW u a
  .next (s.onCtx (fun c => c.pushSq u.dunit (.w32 (wsClean false x.toNat)) t))

/-- `keep.w64` (R155). -/
def execKeepW64 (u : VUnit) (a : Src) (s : State) : Out :=
  let (x, t) := s.ctx.rdW u a
  .next (s.onCtx (fun c => c.pushSq u.dunit (.w64 x) t))

/-- Register D of a unit with its taint set, as a register write of the same value. -/
def Ctx.rewrite (c : Ctx) (u : DUnit) (d : BitVec 5) : RegWrite × Taint :=
  match u with
  | .a => let (x, t) := c.rdAd d; (.addr d x, t)
  | .i => let (x, t) := c.rdId d; (.int d x, t)
  | .va => let (x, t) := c.rdVd .va d; (.vec .va d x, t)
  | .vb => let (x, t) := c.rdVd .vb d; (.vec .vb d x, t)

/-- `tclr`, register form (R125). -/
def execTclrReg (u : DUnit) (d : BitVec 5) (s : State) : Out :=
  .next (s.onCtx (fun c => c.put 1 (c.rewrite u d).1 0))

/-- `tclr path` (R125). Where the bundle holds a `tdep path` too, the two act in unit order. (DESIGN CHOICE, log 123.) -/
def execTclrPath (_u : DUnit) (s : State) : Out :=
  .next (s.onCtx (fun c => { c with bun := { c.bun with path := 0 } }))

/-- `tclr`, capability form (R125). -/
def execTclrCap (d : BitVec 4) (s : State) : Out :=
  .next (s.onCtx (fun c => c.put 1 (.cap d (c.rdCd d).1) 0))

/-- `tdep`, register form (R126). -/
def execTdepReg (u : DUnit) (d : BitVec 5) (a : Src) (s : State) : Out :=
  if s.ctx.wrongPopU u a then raiseC s .illegal u.unit
  else
    let (_, _, t) := s.ctx.rdU u a
    .next (s.onCtx (fun c => (c.popLq u (qCount a)).put 1 (c.rewrite u d).1 ((c.rewrite u d).2 ||| t)))

/-- `tdep path` (R126). Beside a `tclr path` of the bundle it acts in unit order. (DESIGN CHOICE, log 123.) -/
def execTdepPath (u : DUnit) (a : Src) (s : State) : Out :=
  if s.ctx.wrongPopU u a then raiseC s .illegal u.unit
  else
    let (_, _, t) := s.ctx.rdU u a
    .next (s.onCtx (fun c => (c.popLq u (qCount a)).addPath t))

/-- `tdep`, capability form (R126). -/
def execTdepCap (d : BitVec 4) (a : Src) (s : State) : Out :=
  let (_, t) := s.ctx.rdA 0 a
  .next (s.onCtx (fun c => (c.popLq .a (qCount a)).put 1 (.cap d (c.rdCd d).1) ((c.rdCd d).2 ||| t)))

end Sys2Proof.Machine
end

