-- ==== Sys2Proof/Machine/MemWord.lean ====
section
/-! DEFINITION. The memory words of the A unit: loads, stores, vector accesses, capabilities in memory, atomics, fences,
translate handles, and `crev` (R204, R208, R226 to R235, R242, R339). -/

namespace Sys2Proof.Machine

open Sys2Proof

/-! ### Scalar accesses (R227) -/

/-- A scalar load (R227). -/
def ldWord (q : DUnit) (ty : XType) (cd : BitVec 4) (a b : Src) (s : State) : Out :=
  let (cap, tc) := s.ctx.rdCd cd
  let ((x, tx), (y, ty')) := s.ctx.rdA2 a b
  let n := ty.w.bytes
  match s.accCheck cap (x.toInt + y.toInt) n pR n with
  | .error f => raiseCheck s .A cap f
  | .ok (e, ad) =>
    let acc := (s.ctx.access (.load q ty) .A (tc ||| tx ||| ty') 0).at1 s.core.num e cap.index ad n 0
    let (k, s1) := (s.onCtx (fun c => c.popLq .a (qCount a + qCount b))).enqueueLoad acc
    .next (s1.reserve q k)

/-- `ld.a` (R227). -/
def execLdA (ty : XType) (cd : BitVec 4) (a b : Src) (s : State) : Out := ldWord .a ty cd a b s
/-- `ld.i` (R227). -/
def execLdI (ty : XType) (cd : BitVec 4) (a b : Src) (s : State) : Out := ldWord .i ty cd a b s

/-- A store of one piece at an offset, once its data is known. -/
def stAt (cd : BitVec 4) (off : Int) (n : Nat) (data : Nat) (at_ dt : Taint) (pops : Nat) (sqU : DUnit) (sqN : Nat)
    (s : State) : Out :=
  let (cap, tc) := s.ctx.rdCd cd
  match s.accCheck cap off n pW n with
  | .error f => raiseCheck s .A cap f
  | .ok (e, ad) =>
    let acc := (s.ctx.access .store .A (tc ||| at_) dt).at1 s.core.num e cap.index ad n (data % 2 ^ (8 * n))
    .next ((s.onCtx (fun c => (c.popLq .a pops).popSq sqU sqN)).enqueue acc)

/-- `st.a` (R227): the data is source B. -/
def execStA (w : Width) (cd : BitVec 4) (a b : Src) (s : State) : Out :=
  let ((x, tx), (y, ty)) := s.ctx.rdA2 a b
  stAt cd x.toInt w.bytes y.toNat tx ty (qCount a + qCount b) .a 0 s

/-- `st.i` (R227): the data is the head of I's store-data queue. -/
def execStI (w : Width) (cd : BitVec 4) (a b : Src) (s : State) : Out :=
  let ((x, tx), (y, ty)) := s.ctx.rdA2 a b
  let (q, tq) := s.ctx.sqVal .i 0
  stAt cd (x.toInt + y.toInt) w.bytes q.scalar.toNat (tx ||| ty) tq (qCount a + qCount b) .i 1 s

/-! ### Vector accesses (R208, R228) -/

/-- The lanes of a vector access that meet a condition on their offset, as a mask. -/
def laneBits (lanes : List (Nat × Int)) (p : Int → Bool) : BitVec 32 :=
  lanes.foldl (fun m (l : Nat × Int) => if p l.2 then m ||| BitVec.ofNat 32 (2 ^ l.1) else m) 0

/-- Whether a local-buffer range meets a bank outside sy.sbnd (R358). -/
def Ctx.sbndFails (c : Ctx) (e : BufEntry) (a n : Nat) : Bool :=
  e.isLocal && (List.range 16).any (fun b =>
    rangesMeet (48 * e.loff + a) n (b * bankBytes) bankBytes && !c.place.sbanks.getLsbD b)

/-- The checks of R208 for lanes at offsets: UNTAG, SPACE, STALE and PERM once, then ALIGN, then BOUND unless the form is
`.z`. Answers the entry and the mask of the lanes that fail BOUND. (DEDUCED, log 73.) -/
def State.laneCheck (s : State) (cap : CapV) (base : Int) (lanes : List (Nat × Int)) (need : Nat) (z : Bool) :
    Except TrapInfo (BufEntry × BitVec 32) :=
  match capCheck s.table cap need ((cap.cursor : Int) + base) with
  | .error f => .error (s.ctx.checkTrap .A cap f none)
  | .ok e =>
    let cur : Int := cap.cursor
    let mis := laneBits lanes (fun o => (cur + o) % 8 != 0)
    let out := laneBits lanes (fun o => !inBounds e cap (cur + o) 8 || s.ctx.sbndFails e (cur + o).toNat 8)
    if mis ≠ 0 then .error (s.ctx.checkTrap .A cap ⟨.align, cur + base, some e⟩ (some mis))
    else if out ≠ 0 ∧ z = false then .error (s.ctx.checkTrap .A cap ⟨.bound, cur + base, some e⟩ (some out))
    else .ok (e, out)

/-- The pieces of the lanes that pass, with their data. -/
def lanePieces (core : Nat) (e : BufEntry) (cap : CapV) (lanes : List (Nat × Int)) (bad : BitVec 32) (data : V2048) :
    List Piece :=
  (lanes.filter (fun (l : Nat × Int) => !bad.getLsbD l.1)).map (fun (l : Nat × Int) =>
    ⟨l.1, (e.loc core ((cap.cursor : Int) + l.2).toNat).2, elemOf data.toNat l.1 64⟩)

/-- The failure mask of a `.z` form (R208, R228): an exposed result of latency 1. -/
def Ctx.putFail (c : Ctx) (u : VUnit) (z : Option (BitVec 2)) (bad : BitVec 32) (t : Taint) : Ctx :=
  match z with
  | some m => c.put 1 (.mask u (m.setWidth 3) bad) t
  | none => c

/-- A vector load of lanes at given offsets; `so` store-data entries (the gather's offsets) are popped. -/
def vLoadLanes (u : VUnit) (z : Option (BitVec 2)) (cd : BitVec 4) (base : Int) (offs : List Int) (act : W64)
    (tAddr tFail : Taint) (pops so : Nat) (s : State) : Out :=
  let (cap, tc) := s.ctx.rdCd cd
  let lanes := ((List.range 32).zip offs).filter (fun (l : Nat × Int) => act.getLsbD l.1)
  match s.laneCheck cap base lanes pR z.isSome with
  | .error i => raise s i
  | .ok (e, bad) =>
    let ps := lanePieces s.core.num e cap lanes bad 0
    let acc := { s.ctx.access (.vload u) .A (tc ||| tAddr) 0 with
      loc := (e.loc s.core.num 0).1, pieces := ps, size := 8, ent := some e, index := cap.index }
    let s1 := s.onCtx (fun c =>
      ((c.popLq .a pops).popSq u.dunit so).putFail u z bad (tc ||| tFail))
    let (k, s2) := s1.enqueueLoad acc
    .next (s2.reserve u.dunit k)

/-- A vector store of lanes at given offsets. -/
def vStoreLanes (u : VUnit) (z : Option (BitVec 2)) (cd : BitVec 4) (base : Int) (offs : List Int) (act : W64)
    (data : V2048) (tAddr tData tFail : Taint) (pops so : Nat) (s : State) : Out :=
  let (cap, tc) := s.ctx.rdCd cd
  let lanes := ((List.range 32).zip offs).filter (fun (l : Nat × Int) => act.getLsbD l.1)
  match s.laneCheck cap base lanes pW z.isSome with
  | .error i => raise s i
  | .ok (e, bad) =>
    let ps := lanePieces s.core.num e cap lanes bad data
    let acc := { s.ctx.access .store .A (tc ||| tAddr) tData with
      loc := (e.loc s.core.num 0).1, pieces := ps, size := 8, ent := some e, index := cap.index }
    let s1 := s.onCtx (fun c =>
      ((c.popLq .a pops).popSq u.dunit so).putFail u z bad (tc ||| tFail))
    .next (s1.enqueue acc)

/-- A wide-sum image access of `n` bytes at alignment 48 (R54, R228). -/
def wsSize (ws64 : Bool) : Nat := if ws64 then 288 else 48

def wLoad (u : VUnit) (ws64 : Bool) (cd : BitVec 4) (off : Int) (t : Taint) (pops : Nat) (s : State) : Out :=
  let (cap, tc) := s.ctx.rdCd cd
  match s.accCheck cap off (wsSize ws64) pR 48 with
  | .error f => raiseCheck s .A cap f
  | .ok (e, ad) =>
    let acc := (s.ctx.access (.wload u ws64) .A (tc ||| t) 0).at1 s.core.num e cap.index ad (wsSize ws64) 0
    let (k, s1) := (s.onCtx (fun c => c.popLq .a pops)).enqueueLoad acc
    .next (s1.reserve u.dunit k)

def wStore (u : VUnit) (ws64 : Bool) (cd : BitVec 4) (off : Int) (t : Taint) (pops : Nat) (s : State) : Out :=
  let (q, tq) := s.ctx.sqVal u.dunit 0
  if (if ws64 then q.isW64 else q.isW32) then
    let (cap, tc) := s.ctx.rdCd cd
    match s.accCheck cap off (wsSize ws64) pW 48 with
    | .error f => raiseCheck s .A cap f
    | .ok (e, ad) =>
      let acc := (s.ctx.access .store .A (tc ||| t) tq).at1 s.core.num e cap.index ad (wsSize ws64)
        (q.wide.toNat % 2 ^ (8 * wsSize ws64))
      .next ((s.onCtx (fun c => (c.popLq .a pops).popSq u.dunit 1)).enqueue acc)
  else raiseC s .illegal .A

/-- The offsets of whole lanes from a base (R228). -/
def rowOffs (base : Int) : List Int := (List.range 32).map (fun (i : Nat) => base + 8 * (i : Int))

/-- The offsets of a gather or scatter: lane i of the popped entry as a signed 64-bit value (R228). -/
def gatherOffs (base : Int) (v : V2048) : List Int :=
  (List.range 32).map (fun i => base + signedVal 64 (elemOf v.toNat i 64))

/-- `vld` (R228). -/
def vldWord (u : VUnit) (k : VKind) (cd : BitVec 4) (a b : Src) (s : State) : Out :=
  let ((x, tx), (y, _)) := s.ctx.rdA2 a b
  let pops := qCount a + qCount b
  match k with
  | .lanes => vLoadLanes u none cd x.toInt (rowOffs x.toInt) y tx tx pops 0 s
  | .z m => vLoadLanes u (some m) cd x.toInt (rowOffs x.toInt) y tx tx pops 0 s
  | .ws32 => wLoad u false cd x.toInt tx pops s
  | .ws64 => wLoad u true cd x.toInt tx pops s

/-- `vst` (R228): the data is the head of the unit's store-data queue. -/
def vstWord (u : VUnit) (k : VKind) (cd : BitVec 4) (a b : Src) (s : State) : Out :=
  let ((x, tx), (y, _)) := s.ctx.rdA2 a b
  let pops := qCount a + qCount b
  let (q, tq) := s.ctx.sqVal u.dunit 0
  match k with
  | .lanes =>
    if q.isVec then vStoreLanes u none cd x.toInt (rowOffs x.toInt) y q.vector tx tq tx pops 1 s
    else raiseC s .illegal .A
  | .z m =>
    if q.isVec then vStoreLanes u (some m) cd x.toInt (rowOffs x.toInt) y q.vector tx tq tx pops 1 s
    else raiseC s .illegal .A
  | .ws32 => wStore u false cd x.toInt tx pops s
  | .ws64 => wStore u true cd x.toInt tx pops s

def GKind.zMask : GKind → Option (BitVec 2)
  | .lanes => none
  | .z m => some m

/-- `vldg` (R228): the offsets are popped from the unit's store-data queue. -/
def vldgWord (u : VUnit) (k : GKind) (cd : BitVec 4) (a b : Src) (s : State) : Out :=
  let ((x, tx), (y, _)) := s.ctx.rdA2 a b
  let (q, tq) := s.ctx.sqVal u.dunit 0
  if q.isVec then
    vLoadLanes u (GKind.zMask k) cd x.toInt (gatherOffs x.toInt q.vector) y (tx ||| tq) (tx ||| tq) (qCount a + qCount b) 1 s
  else raiseC s .illegal .A

/-- `vsts` (R228): the offsets are popped first and the data after them; lanes perform in ascending order. -/
def vstsWord (u : VUnit) (k : GKind) (cd : BitVec 4) (a b : Src) (s : State) : Out :=
  let ((x, tx), (y, _)) := s.ctx.rdA2 a b
  let (q, tq) := s.ctx.sqVal u.dunit 0
  let (v, tv) := s.ctx.sqVal u.dunit 1
  if q.isVec && v.isVec then
    vStoreLanes u (GKind.zMask k) cd x.toInt (gatherOffs x.toInt q.vector) y v.vector (tx ||| tq) tv (tx ||| tq)
      (qCount a + qCount b) 2 s
  else raiseC s .illegal .A

/-- `vld.va` (R228). -/
def execVldVA (k : VKind) (cd : BitVec 4) (a b : Src) (s : State) : Out := vldWord .va k cd a b s
/-- `vld.vb` (R228). -/
def execVldVB (k : VKind) (cd : BitVec 4) (a b : Src) (s : State) : Out := vldWord .vb k cd a b s
/-- `vst.va` (R228). -/
def execVstVA (k : VKind) (cd : BitVec 4) (a b : Src) (s : State) : Out := vstWord .va k cd a b s
/-- `vst.vb` (R228). -/
def execVstVB (k : VKind) (cd : BitVec 4) (a b : Src) (s : State) : Out := vstWord .vb k cd a b s
/-- `vldg.va` (R228). -/
def execVldgVA (k : GKind) (cd : BitVec 4) (a b : Src) (s : State) : Out := vldgWord .va k cd a b s
/-- `vldg.vb` (R228). -/
def execVldgVB (k : GKind) (cd : BitVec 4) (a b : Src) (s : State) : Out := vldgWord .vb k cd a b s
/-- `vsts.va` (R228). -/
def execVstsVA (k : GKind) (cd : BitVec 4) (a b : Src) (s : State) : Out := vstsWord .va k cd a b s
/-- `vsts.vb` (R228). -/
def execVstsVB (k : GKind) (cd : BitVec 4) (a b : Src) (s : State) : Out := vstsWord .vb k cd a b s

/-! ### Capabilities in memory (R220, R230, R231) -/

/-- `lcap` (R230): the destination is empty until the granule arrives. -/
def execLcap (d : BitVec 4) (a b : Src) (s : State) : Out :=
  let (cap, tc) := s.ctx.rdCap a
  let (x, tx) := s.ctx.rdA 0 b
  match s.accCheck cap x.toInt 16 (pR + pLC) 16 with
  | .error f => raiseCheck s .A cap f
  | .ok (e, ad) =>
    let acc := (s.ctx.access (.lcap d) .A (tc ||| tx) 0).at1 s.core.num e cap.index ad 16 0
    let r := RegRef.c (d.setWidth 5)
    let s1 := s.onCtx (fun c => ((c.popLq .a (qCount b)).cancelDue r).setEmpty r)
    .next (s1.enqueueLoad acc).2

/-- `scap` (R220, R231): the SL test of a tagged source follows BOUND. -/
def execScap (cd : BitVec 4) (a b : Src) (s : State) : Out :=
  let (cap, tc) := s.ctx.rdCd cd
  let (x, tx) := s.ctx.rdA 0 a
  let (v, tv) := s.ctx.rdCap b
  match s.accCheck cap x.toInt 16 (pW + pSC) 16 with
  | .error f => raiseCheck s .A cap f
  | .ok (e, ad) =>
    if v.tag && v.perms &&& pSL != 0 && !e.isLocal then raiseCheck s .A cap ⟨.perm, ad, some e⟩
    else
      let acc := (s.ctx.access (.scap v.tag) .A (tc ||| tx) tv).at1 s.core.num e cap.index ad 16 v.bits.toNat
      .next ((s.onCtx (fun c => c.popLq .a (qCount a))).enqueue acc)

/-! ### Atomics (R232, R233, R273) -/

/-- The fence halves of an atomic (R273). -/
def Access.ordered (x : Access) (sc : Scope) (ord : Ordering4) : Access :=
  { x with rel := if ord.isRel then some sc else none, acq := if ord.isAcq then some sc else none }

/-- An integer atomic (R232): the location is the capability's cursor; `.ret` takes a load id and reserves an entry of
A's load-data queue. -/
def amoWord (op : AmoOp) (ty : XType) (ret : Bool) (cd : BitVec 4) (sc : Scope) (ord : Ordering4) (b : Src)
    (s : State) : Out :=
  let (cap, tc) := s.ctx.rdCd cd
  let (v, tv) := s.ctx.rdA 0 b
  let n := ty.w.bytes
  match s.accCheck cap 0 n (pR + pW + pAT) n with
  | .error f => raiseCheck s .A cap f
  | .ok (e, ad) =>
    let acc := ((s.ctx.access (.amo op ty ret) .A tc tv).at1 s.core.num e cap.index ad n
      (v.toNat % 2 ^ ty.w.bits)).ordered sc ord
    let s1 := s.onCtx (fun c => c.popLq .a (qCount b))
    if ret then
      let (k, s2) := s1.enqueueLoad acc
      .next (s2.reserve .a k)
    else .next (s1.enqueue acc)

/-- The type of a class J atomic: results extend by zero (R93). -/
def jType (w : Width) : XType := ⟨true, w⟩

/-- `amo.add` (R232). -/
def execAmoAdd (w : Width) (ret : Bool) (cd : BitVec 4) (sc : Scope) (ord : Ordering4) (b : Src) (s : State) : Out :=
  amoWord .add (jType w) ret cd sc ord b s
/-- `amo.and` (R232). -/
def execAmoAnd (w : Width) (ret : Bool) (cd : BitVec 4) (sc : Scope) (ord : Ordering4) (b : Src) (s : State) : Out :=
  amoWord .and (jType w) ret cd sc ord b s
/-- `amo.or` (R232). -/
def execAmoOr (w : Width) (ret : Bool) (cd : BitVec 4) (sc : Scope) (ord : Ordering4) (b : Src) (s : State) : Out :=
  amoWord .or (jType w) ret cd sc ord b s
/-- `amo.xor` (R232). -/
def execAmoXor (w : Width) (ret : Bool) (cd : BitVec 4) (sc : Scope) (ord : Ordering4) (b : Src) (s : State) : Out :=
  amoWord .xor (jType w) ret cd sc ord b s
/-- `amo.swap` (R232). -/
def execAmoSwap (w : Width) (ret : Bool) (cd : BitVec 4) (sc : Scope) (ord : Ordering4) (b : Src) (s : State) : Out :=
  amoWord .swap (jType w) ret cd sc ord b s
/-- `amo.min` (R232). -/
def execAmoMin (ty : XType) (ret : Bool) (cd : BitVec 4) (sc : Scope) (ord : Ordering4) (b : Src) (s : State) : Out :=
  amoWord .min ty ret cd sc ord b s
/-- `amo.max` (R232). -/
def execAmoMax (ty : XType) (ret : Bool) (cd : BitVec 4) (sc : Scope) (ord : Ordering4) (b : Src) (s : State) : Out :=
  amoWord .max ty ret cd sc ord b s

/-- `amo.wsadd` (R232): the operand is the head image of the unit's store-data queue, of the same kind. -/
def execAmoWsadd (u : VUnit) (ws64 : Bool) (cd : BitVec 4) (sc : Scope) (ord : Ordering4) (s : State) : Out :=
  let (q, tq) := s.ctx.sqVal u.dunit 0
  if (if ws64 then q.isW64 else q.isW32) then
    let (cap, tc) := s.ctx.rdCd cd
    match s.accCheck cap 0 (wsSize ws64) (pR + pW + pAT) 48 with
    | .error f => raiseCheck s .A cap f
    | .ok (e, ad) =>
      let acc := ((s.ctx.access (.wsadd ws64) .A tc tq).at1 s.core.num e cap.index ad (wsSize ws64)
        (q.wide.toNat % 2 ^ (8 * wsSize ws64))).ordered sc ord
      .next ((s.onCtx (fun c => c.popSq u.dunit 1)).enqueue acc)
  else raiseC s .illegal .A

/-- `cas` (R233): the new value is the head of A's store-data queue; the old value always returns. -/
def execCas (w : Width) (cd : BitVec 4) (sc : Scope) (ord : Ordering4) (b : Src) (s : State) : Out :=
  let (cap, tc) := s.ctx.rdCd cd
  let (v, tv) := s.ctx.rdA 0 b
  let (q, tq) := s.ctx.sqVal .a 0
  let n := w.bytes
  match s.accCheck cap 0 n (pR + pW + pAT) n with
  | .error f => raiseCheck s .A cap f
  | .ok (e, ad) =>
    let acc := ((s.ctx.access (.cas w (q.scalar.toNat % 2 ^ w.bits)) .A tc (tv ||| tq)).at1 s.core.num e cap.index ad n
      (v.toNat % 2 ^ w.bits)).ordered sc ord
    let (k, s1) := (s.onCtx (fun c => (c.popLq .a (qCount b)).popSq .a 1)).enqueueLoad acc
    .next (s1.reserve .a k)

/-- `fence` (R234, R272): no load id; it takes effect in its place among the context's accesses. -/
def execFence (k : FenceKind) (sc : Scope) (s : State) : Out :=
  let x := s.ctx.access (.fence none) .A 0 0
  let y := match k with
    | .acq => { x with acq := some sc }
    | .rel => { x with rel := some sc }
    | .ar => { x with rel := some sc, acq := some sc }
  .next (s.enqueue { y with addrTaint := 0 })

/-! ### Translate handles (R242) -/

/-- `xlat` (R242): the handle is empty until the pinned extent is resident. -/
def execXlat (d : BitVec 3) (a b : Src) (s : State) : Out :=
  let (cap, tc) := s.ctx.rdCap a
  let (x, tx) := s.ctx.rdA 0 b
  match coreCheck s.table cap x.toInt 1 pR 1 with
  | .error f => raiseCheck s .A cap f
  | .ok (e, ad) =>
    if e.isLocal then raiseCheck s .A cap ⟨.perm, ad, some e⟩
    else
      let ext := ad / extentBytes
      let v := BitVec.ofNat 64 (ext * extentBytes + stackOf e (ext * extentBytes) * 2 ^ 40)
      let limit := if s.extentHolds e.extmap ext then none else some (s.cycle + 11)
      let r := RegRef.xh (d.setWidth 5)
      .next (s.onCtx (fun c =>
        let c1 := ((c.popLq .a (qCount b)).cancelDue r).setEmpty r
        { c1 with mem := { c1.mem with
          pins := vset c1.mem.pins d.toNat (some ⟨e.extmap, ext⟩)
          xlats := c1.mem.xlats ++ [⟨d, ⟨e.extmap, ext⟩, v, tc ||| tx, limit⟩] } }))

/-- `xrel` (R242): the pin goes, the handle stays full. -/
def execXrel (a : Src) (s : State) : Out :=
  .next (s.onCtx (fun c => { c with mem := { c.mem with pins := vset c.mem.pins (srcIdx a) none } }))

/-- `xrel.rd` (R242). -/
def execXrelRd (d : BitVec 5) (a : Src) (s : State) : Out :=
  let (x, t) := s.ctx.rdXh a
  .next (s.onCtx (fun c => c.put 1 (.addr d x) t))

/-! ### Revocation (R339) -/

/-- `crev` (R339): the checks at issue; then the context waits for CREV_COMPLETE, which makes the release, writes the
new generation and delivers the capability. -/
def execCrev (d : BitVec 4) (a : Src) (s : State) : Out :=
  let (cap, t) := s.ctx.rdCap a
  let ad : Int := cap.cursor
  if cap.tag = false then raiseCheck s .A cap ⟨.untag, ad, none⟩
  else
    match s.table.entry cap.index with
    | none => raiseCheck s .A cap ⟨.space, ad, none⟩
    | some e =>
      if cap.gen ≠ e.gen then raiseCheck s .A cap ⟨.stale, ad, some e⟩
      else if cap.perms &&& pRV = 0 || e.shared then raiseCheck s .A cap ⟨.perm, ad, some e⟩
      else .next (s.onCtx (fun c => { c with wait := { c.wait with crev := some ⟨cap.index, d, cap, t, none⟩ } }))

end Sys2Proof.Machine
end

