-- ==== Sys2Proof/Machine/Cards.lean ====
section
/-! DEFINITION. The K unit and the copy engine: job cards, their checks, their start and completion, status and
prefetch (R243 to R254, R380 to R382); `kcoll` at issue (R373, R374). -/

namespace Sys2Proof.Machine

open Sys2Proof

/-! ### Fields of a card (R243) -/

def JobCard.rbytes (j : JobCard) : Nat := natField j.w4.toNat 0 24
def JobCard.rows (j : JobCard) : Nat := natField j.w4.toNat 24 16
def JobCard.sstride (j : JobCard) : Nat := natField j.w5.toNat 0 32
def JobCard.dstride (j : JobCard) : Nat := natField j.w5.toNat 32 32
def JobCard.stype (j : JobCard) : Nat := natField j.w6.toNat 0 4
def JobCard.dtype (j : JobCard) : Nat := natField j.w6.toNat 4 4
def JobCard.sfmt (j : JobCard) : Nat := natField j.w6.toNat 8 4
def JobCard.dfmt (j : JobCard) : Nat := natField j.w6.toNat 12 4
def JobCard.rnd (j : JobCard) : Nat := natField j.w6.toNat 16 3
def JobCard.cen (j : JobCard) : Bool := natBit j.w6.toNat 19
def JobCard.goff (j : JobCard) : Nat := natField j.w7.toNat 0 13

/-- The rounding that a card names (R243). -/
def cardRm : Nat → Rm
  | 0 => .rne | 1 => .rtz | 2 => .rup | 3 => .rdn | _ => .rto

/-- Bytes of a row as written: converted when CEN = 1. -/
def JobCard.wbytes (j : JobCard) (fsrc fdst : Nat) : Nat :=
  if j.cen then j.rbytes * 8 / opSw j.stype fsrc * opSw j.dtype fdst / 8 else j.rbytes

/-- Whether RTO is allowed between two types (R40): from an IEEE format to a narrower IEEE format. -/
def rtoOk (s d : Nat) : Bool := s != 12 && d != 12 && decide (opSw d 0 < opSw s 0)

/-- The word-4 and conversion tests of check 1 of R247. (DEDUCED, log 70.) -/
def JobCard.fieldsOk (j : JobCard) (fsrc fdst : Nat) : Bool :=
  j.rbytes != 0 && j.rows != 0 && natField j.w4.toNat 40 24 == 0 &&
  (if j.cen then
    natField j.w6.toNat 20 44 == 0 && decide (8 ≤ j.stype) && decide (j.stype ≤ 12) && decide (8 ≤ j.dtype) &&
    decide (j.dtype ≤ 12) && (j.stype != 12 || fsrc != 0) && (j.dtype != 12 || fdst != 0) &&
    decide (j.rnd ≤ 4) && (j.rnd != 4 || rtoOk j.stype j.dtype) &&
    decide (j.rbytes * 8 % opSw j.stype fsrc = 0) &&
    decide (j.rbytes * 8 / opSw j.stype fsrc * opSw j.dtype fdst % 8 = 0)
  else j.w6 == 0)

/-- The length of the footprint [CURSOR, CURSOR + (ROWS - 1) * stride + row bytes). -/
def spanLen (rows stride row : Nat) : Nat := (rows - 1) * stride + row

/-! ### Footprints (R248) -/

/-- The storage of an entry's buffer as the current core resolves it, and the offset of its byte 0 there. -/
def State.storageOf (s : State) (e : BufEntry) (index : Nat) : Storage × Nat :=
  match e.kind with
  | .local => (.array s.clus.num (if e.home = 15 then s.core.num else e.home), 48 * e.loff)
  | .memory => (.buf e.owner index, 0)
  | .code => (.buf e.owner index, 0)
  | .reserved => (.buf e.owner index, 0)

def State.footprint (s : State) (e : BufEntry) (index a n : Nat) : Footprint :=
  let (st, o) := s.storageOf e index
  ⟨st, o + a, o + a + n⟩

/-- Whether two footprints overlap (R248). -/
def Footprint.meets (x y : Footprint) : Bool := x.at_ == y.at_ && decide (x.lo < y.hi) && decide (y.lo < x.hi)

def meetAny (l m : List Footprint) : Bool := l.any (fun x => m.any (fun y => x.meets y))

/-- Whether a card must wait for an earlier one (R248). -/
def Card.dependsOn (later earlier : Card) : Bool :=
  meetAny later.reads earlier.writes || meetAny later.writes earlier.reads || meetAny later.writes earlier.writes

/-- The card's own bytes that an access touches. -/
def State.accessPrints (s : State) (x : Access) : List Footprint :=
  match x.ent with
  | none => []
  | some e => x.pieces.map (fun (p : Piece) =>
    match x.loc with
    | .loc k => ⟨.array s.clus.num k, p.addr, p.addr + x.size⟩
    | .mem _ => ⟨.buf e.owner x.index, p.addr, p.addr + x.size⟩)

/-! ### Checks at issue (R247) -/

/-- The check of one side of a card over its whole footprint: alignment of the cursor and, with TAGS, of the strides at
the ALIGN step. -/
def State.cardSide (s : State) (cap : CapV) (n need al : Nat) (strideOk : Bool) : Except CheckFail BufEntry :=
  match capCheck s.table cap need cap.cursor with
  | .error f => .error f
  | .ok e =>
    if cap.cursor % al ≠ 0 ∨ strideOk = false then .error ⟨.align, cap.cursor, some e⟩
    else if inBounds e cap cap.cursor n && !s.ctx.sbndFails e cap.cursor n then .ok e
    else .error ⟨.bound, cap.cursor, some e⟩

/-- The kj register a card word names. -/
def Ctx.kj (c : Ctx) (j : BitVec 3) : JobCard × Taint := let e := vget c.k.kj j.toNat ⟨JobCard.zero, 0⟩; (e.val, e.taint)

/-- Whether some of a list of accesses touches a sector of a footprint of a card (R240). -/
def State.sectorsMeet (s : State) (l : List Access) (f : List Footprint) : Bool :=
  l.any (fun x => meetAny ((s.accessPrints x).map (fun (p : Footprint) =>
    { p with lo := p.lo / sectorBytes * sectorBytes, hi := (p.hi + sectorBytes - 1) / sectorBytes * sectorBytes })) f)

/-- Put a card into the dependency table and begin its done bit. -/
def issueCard (s : State) (c : Card) : Out :=
  let c1 := { c with slot := s.ctx.place.slot, launch := s.ctx.place.launch, seq := s.ctx.mem.aseq
                     behind := s.sectorsMeet s.ctx.mem.slog (c.reads ++ c.writes) }
  let s1 := { s with core := { s.core with cards := s.core.cards ++ [c1] } }
  .next (s1.onCtx (fun x => { (x.beginDone c.db) with mem := { (x.beginDone c.db).mem with aseq := x.mem.aseq + 1 } }))

/-- The card with the fields that every kind shares. -/
def Ctx.newCard (c : Ctx) (kind : CardKind) (jc : JobCard) (t : Taint) (db : BitVec 6) (fence : Bool) (se : BufEntry) :
    Card :=
  { slot := 0, launch := 0, kind := kind, card := jc, db := db.toNat, fence := fence, srcEnt := se, dstEnt := none,
    fsrc := (vget c.s.f jc.sfmt ⟨0, 0⟩).val, fdst := (vget c.s.f jc.dfmt ⟨0, 0⟩).val, reads := [], writes := [],
    taint := t ||| c.path, seq := 0, started := false, held := false, stops := [], moved := [],
    late := [], behind := false, flags := 0, own := c.place.own }

/-- Element alignment of a side with CEN = 1 (R247). -/
def sideAlign (j : JobCard) (tags : Bool) (ty fmt : Nat) : Nat :=
  if tags then 16 else if j.cen then (opSw ty fmt + 7) / 8 else 1

/-- `kcopy` (R245, R247). -/
def execKcopy (j : BitVec 3) (db : BitVec 6) (fence tags : Bool) (s : State) : Out :=
  let (jc, t) := s.ctx.kj j
  let c := s.ctx.newCard (.copy tags) jc t db fence default
  let fs := c.fsrc.toNat
  let fd := c.fdst.toNat
  if !jc.fieldsOk fs fd || jc.w7 != 0 || (tags && jc.cen) then raiseC s .illegal .K
  else
    let ns := spanLen jc.rows jc.sstride jc.rbytes
    let nd := spanLen jc.rows jc.dstride (jc.wbytes fs fd)
    match s.cardSide jc.src ns (if tags then pR + pLC else pR) (sideAlign jc tags jc.stype fs)
        (!tags || (jc.sstride % 16 == 0 && jc.rbytes % 16 == 0)) with
    | .error f => raiseCheck s .K jc.src f
    | .ok se =>
      match s.cardSide jc.dst nd (if tags then pW + pSC else pW) (sideAlign jc tags jc.dtype fd)
          (!tags || jc.dstride % 16 == 0) with
      | .error f => raiseCheck s .K jc.dst f
      | .ok de =>
        let rd := s.footprint se jc.src.index jc.src.cursor ns
        let wr := s.footprint de jc.dst.index jc.dst.cursor nd
        if rd.meets wr then raiseC s .illegal .K
        else issueCard s { c with srcEnt := se, dstEnt := some de, reads := [rd], writes := [wr] }

/-- `kfill` (R246, R247): the grist range must lie in the window. -/
def execKfill (j : BitVec 3) (db : BitVec 6) (fence : Bool) (s : State) : Out :=
  let (jc, t) := s.ctx.kj j
  let c := s.ctx.newCard .fill jc t db fence default
  let fs := c.fsrc.toNat
  let fd := c.fdst.toNat
  let row := jc.wbytes fs fd
  if !jc.fieldsOk fs fd || natField jc.w7.toNat 13 51 != 0 || decide (32 < jc.rows) || row % 32 != 0 then
    raiseC s .illegal .K
  else
    let ns := spanLen jc.rows jc.sstride jc.rbytes
    match s.cardSide jc.src ns pR (sideAlign jc false jc.stype fs) true with
    | .error f => raiseCheck s .K jc.src f
    | .ok se =>
      if jc.goff < s.ctx.place.gLo ∨ s.ctx.place.gHi < jc.goff + row / 32 then raiseC s .bound .K
      else issueCard s { c with
        srcEnt := se, reads := [s.footprint se jc.src.index jc.src.cursor ns]
        writes := [⟨.grist s.clus.num s.core.num, 32 * jc.goff, 32 * jc.goff + row⟩] }

/-- The destinations of a `kmc` checked in table order (R381): the capabilities with their entries, or the trap. -/
def State.kmcDests (s : State) (jc : JobCard) (tags : Bool) (rd : Footprint) :
    List (Nat × CapV) → Except TrapInfo (List (CapV × BufEntry))
  | [] => .ok []
  | (i, v) :: r =>
    let n := spanLen jc.rows jc.dstride jc.rbytes
    let lanes := some (BitVec.ofNat 32 (2 ^ i))
    match s.cardSide v n (if tags then pW + pSC else pW) (if tags then 16 else 1) (!tags || jc.dstride % 16 == 0) with
    | .error f => .error (s.ctx.checkTrap .K v f lanes)
    | .ok e =>
      if rd.meets (s.footprint e v.index v.cursor n) then
        .error { s.ctx.trapInfo .illegal .K with cap := some v.bits, lanes := lanes, index := v.index }
      else
        match s.kmcDests jc tags rd r with
        | .error i => .error i
        | .ok l => .ok ((v, e) :: l)

/-- `kmc` (R380, R381). -/
def execKmc (j : BitVec 3) (db : BitVec 6) (n : BitVec 5) (fence tags : Bool) (s : State) : Out :=
  let (jc, t) := s.ctx.kj j
  let c := s.ctx.newCard (.mcast tags []) jc t db fence default
  if !jc.fieldsOk 0 0 || jc.w6 != 0 || jc.w7 != 0 then raiseC s .illegal .K
  else
    let ns := spanLen jc.rows jc.sstride jc.rbytes
    match s.cardSide jc.src ns (if tags then pR + pLC else pR) (if tags then 16 else 1)
        (!tags || (jc.sstride % 16 == 0 && jc.rbytes % 16 == 0)) with
    | .error f => raiseCheck s .K jc.src f
    | .ok se =>
      let k := n.toNat + 1
      match capCheck s.table jc.dst (pR + pLC) jc.dst.cursor with
      | .error f => raiseCheck s .K jc.dst f
      | .ok te =>
        if !te.isOwn s.core.num then raiseCheck s .K jc.dst ⟨.perm, jc.dst.cursor, some te⟩
        else
          match s.cardSide jc.dst (16 * k) (pR + pLC) 16 true with
          | .error f => raiseCheck s .K jc.dst f
          | .ok _ =>
            let o := 48 * te.loff + jc.dst.cursor
            let rd := s.footprint se jc.src.index jc.src.cursor ns
            let tbl := (List.range k).map (fun i => (i, s.core.laReadCap (o + 16 * i)))
            match s.kmcDests jc tags rd tbl with
            | .error i => raise s i
            | .ok ds =>
              issueCard s { c with
                kind := .mcast tags ds, srcEnt := se, reads := [rd]
                writes := ds.map (fun (d : CapV × BufEntry) =>
                  s.footprint d.2 d.1.index d.1.cursor (spanLen jc.rows jc.dstride jc.rbytes)) }

/-! ### `kcoll` at issue (R373, R374) -/

/-- Element size of a job (R373), 0 for a value that is no element type. -/
def collEs (kind : CollKind) (ty : Nat) : Nat :=
  match kind with
  | .fp => (match ty with
    | 8 => 2 | 9 => 2 | 10 => 4 | 11 => 8 | _ => 0)
  | .ws32 => 48
  | .ws64 => 288

/-- Bytes of the output footprint (R373). -/
def collOut (op : CollOp) (rbytes g : Nat) : Nat :=
  match op with
  | .ar => rbytes | .bc => rbytes | .rs => rbytes / g | .ag => g * rbytes

/-- The job's step, and its ROOT. -/
def JobCard.step (j : JobCard) : Nat := natField j.w5.toNat 0 32
def JobCard.root (j : JobCard) : Nat := natField j.w5.toNat 32 6

/-- Check 1 of R374 on the fields of a job over a group of `g` members. -/
def JobCard.collOk (j : JobCard) (op : CollOp) (kind : CollKind) (g : Nat) : Bool :=
  let es := collEs kind j.stype
  natField j.w4.toNat 40 24 == 0 && j.rows == 1 && j.rbytes != 0 && j.w7 == 0 && natField j.w5.toNat 38 26 == 0 &&
  es != 0 &&
  (match kind with
   | .fp => decide (j.dtype = j.stype) && decide (j.rnd ≤ 3) && natField j.w6.toNat 8 8 == 0 &&
       natField j.w6.toNat 19 45 == 0
   | .ws32 => j.w6 == 0
   | .ws64 => j.w6 == 0) &&
  j.rbytes % es == 0 &&
  (match op with
   | .rs => (j.rbytes / es) % g == 0 && j.root == 0
   | .bc => decide (j.root < g)
   | .ar => j.root == 0
   | .ag => j.root == 0)

/-- The group's outstanding job opens: this package's member is ACTIVE, and the segments and reports of its step that came
early count (R372, R376, R378). Its sums take their free values from `elems` draws. -/
def State.openJob (s : State) (g : Group) (step elems : Nat) : State :=
  let now := g.early.filter (fun (x : (Nat × Nat) × CollDecl × List Nat) => x.2.1.step == step)
  let later := g.early.filter (fun (x : (Nat × Nat) × CollDecl × List Nat) => decide (step < x.2.1.step))
  let s1 := s.modGroup g.entry.gid (fun x =>
    { x.setMember x.entry.rank .active s.ticks with
      early := later, ahead := g.ahead.filter (fun p => decide (step < p.2))
      wrote := g.wrote.filter (fun p => decide (step < p.2)), failed := g.failed.filter (fun p => decide (step < p.2)) })
  let job : CollJob :=
    { gid := g.entry.gid, recv := now.map (fun x => (x.1, x.2.2)), decls := (now ++ later).map (fun x => (x.1.1, x.2.1))
      sent := [], steps := g.ahead.filter (fun p => decide (step < p.2)), written := false
      reports := ((g.wrote.filter (fun p => p.2 == step)).map (·.1)).eraseDups
      fault := g.failed.any (fun p => p.2 == step), awaits := [], free := s.draws }
  { s1 with coll := s1.coll ++ [job], draws := s1.draws + elems }.sendFabric [.memberState g.entry.gid g.entry.rank .active]

/-- `kcoll` (R373, R374): the job joins the dependency table and the group's outstanding job. -/
def execKcoll (j : BitVec 3) (db : BitVec 6) (gid : BitVec 6) (kind : CollKind) (op : CollOp) (fence : Bool)
    (s : State) : Out :=
  let (jc, t) := s.ctx.kj j
  let c := s.ctx.newCard (.coll gid.toNat op kind jc.step jc.root) jc t db fence default
  match s.groups.find? (fun g => g.entry.gid == gid.toNat) with
  | none => raiseC s .illegal .K
  | some g =>
    if !jc.collOk op kind g.entry.g then raiseC s .illegal .K
    else if !g.entry.valid || g.entry.asid != s.table.asid then raiseC s .illegal .K
    else if s.coll.any (fun x => x.gid == gid.toNat) ||
        (match g.lastStep with
         | some l => decide (jc.step ≤ l)
         | none => false) then raiseC s .illegal .K
    else
      let al := match kind with
        | .fp => collEs kind jc.stype | .ws32 => 48 | .ws64 => 48
      let nd := collOut op jc.rbytes g.entry.g
      match s.cardSide jc.src jc.rbytes pR al true with
      | .error f => raiseCheck s .K jc.src f
      | .ok se =>
        match s.cardSide jc.dst nd pW al true with
        | .error f => raiseCheck s .K jc.dst f
        | .ok de =>
          let rd := s.footprint se jc.src.index jc.src.cursor jc.rbytes
          let wr := s.footprint de jc.dst.index jc.dst.cursor nd
          let inPlace := rd == wr && (match op with
            | .ar => true | .bc => true | .rs => false | .ag => false)
          if rd.meets wr && !inPlace then raiseC s .illegal .K
          else
            issueCard (s.openJob g jc.step jc.rbytes) { c with srcEnt := se, dstEnt := some de, reads := [rd], writes := [wr] }

/-! ### `kset` (R244) -/

/-- An exposed K-unit result. -/
def kPut (lat : Nat) (w : RegWrite) (t : Taint) (s : State) : Out := .next (s.onCtx (fun c => c.put lat w t))

/-- `kset.w` (R244). -/
def execKsetW (j : BitVec 3) (k : BitVec 2) (b : Src) (s : State) : Out :=
  let (x, t) := s.ctx.rdKx b
  kPut 1 (.kjWord j k x) t s
/-- `kset.c` (R244, R342). -/
def execKsetC (j : BitVec 3) (dst : Bool) (b : Src) (s : State) : Out :=
  let (v, t) := s.ctx.rdKc b
  kPut 1 (.kjSlot j dst (s.enter s.ctx.place.asid v)) t s
/-- `kset.bnd` (R213, R244): as `cbndr`. -/
def execKsetBnd (d : BitVec 4) (a b : Src) (s : State) : Out :=
  let (v, t) := s.ctx.rdKc a
  let (x, tb) := s.ctx.rdKx b
  match boundCap true v x.toNat with
  | .ok r => kPut 2 (.kc d (s.enter s.ctx.place.asid r)) (t ||| tb) s
  | .error cause => raiseCap s .K cause v
/-- `kset.cur` (R212, R244): as `ccur`. -/
def execKsetCur (d : BitVec 4) (a b : Src) (s : State) : Out :=
  let (v, t) := s.ctx.rdKc a
  let (x, tb) := s.ctx.rdKx b
  kPut 1 (.kc d (s.enter s.ctx.place.asid (capCur v x))) (t ||| tb) s
/-- `kset.add` (R244). -/
def execKsetAdd (d : BitVec 5) (a b : Src) (s : State) : Out :=
  let (x, t) := s.ctx.rdKx a
  let (y, tb) := s.ctx.rdKx b
  kPut 1 (.kx d (x + y)) (t ||| tb) s

/-- `kset.lc` (R244): a granule of the core's own array, read at issue; a buffer elsewhere traps PERM at the PERM
step. -/
def execKsetLc (d : BitVec 4) (a b : Src) (s : State) : Out :=
  let (cap, t) := s.ctx.rdKc a
  let (x, tb) := s.ctx.rdKx b
  let ad : Int := (cap.cursor : Int) + x.toInt
  match capCheck s.table cap (pR + pLC) ad with
  | .error f => raiseCheck s .K cap f
  | .ok e =>
    if !e.isOwn s.core.num then raiseCheck s .K cap ⟨.perm, ad, some e⟩
    else
      match s.accCheck cap x.toInt 16 (pR + pLC) 16 with
      | .error f => raiseCheck s .K cap f
      | .ok (_, o) =>
        let v := loadTag e.shared (s.core.laReadCap (48 * e.loff + o))
        kPut 6 (.kc d (s.enter s.ctx.place.asid v)) (t ||| tb) s

/-! ### Status and prefetch (R252, R253) -/

/-- `kstat` (R252): a store of 8 bytes of sy.jstat. -/
def execKstat (d : BitVec 4) (a : Src) (db : BitVec 6) (s : State) : Out :=
  let e := vget s.ctx.k.kc d.toNat ⟨CapV.null, 0⟩
  let (x, t) := s.ctx.rdKx a
  match s.accCheck e.val x.toInt 8 pW 8 with
  | .error f => raiseCheck s .K e.val f
  | .ok (be, ad) =>
    let v := (vget s.ctx.st.jstat db.toNat 0).toNat
    .next (s.enqueue ((s.ctx.access .store .K (e.taint ||| t) 0).at1 s.core.num be e.val.index ad 8 v))

/-- Fill the sectors of one line for a prefetch into a level; access counters do not move (R253). -/
def State.prefetchLine (s : State) (level : PfLevel) (map n : Nat) (sects : List Bool) : State :=
  let s1 := match level with
    | .l1 => (s.loadLine map n 0 sects).1
    | .cc => (match (findLine s.clus.lines map n).filter (fun (x : Line) => x.serves 0 sects) with
      | some _ => s
      | none => s.fill map n sects)
    | .l2 => s.keepL2 (map, n)
    | .msc => s.keepMsc (map, n)
  { s1 with exts := s.exts }

/-- Whether a prefetch of a card's SRC footprint is dropped (R253). -/
def State.prefetchDrops (s : State) (jc : JobCard) (level : PfLevel) : Bool :=
  let ns := spanLen jc.rows jc.sstride jc.rbytes
  jc.rbytes == 0 || jc.rows == 0 ||
  (match s.cardSide jc.src ns pR 1 true with
   | .error _ => true
   | .ok e =>
     e.isLocal || s.nonResident e jc.src.cursor ns ||
     (extentsOf jc.src.cursor ns).any (fun x =>
       match s.extent e.extmap x with
       | some f => f.mig
       | none => true) ||
     !s.portOk e (.mem e.extmap) jc.src.cursor ns) ||
  (match level with
   | .l1 => s.ctx.place.l1 == 0
   | .l2 => false | .cc => false | .msc => false)

/-- `kpf` (R253). -/
def execKpf (j : BitVec 3) (level : PfLevel) (s : State) : Out :=
  let jc := (s.ctx.kj j).1
  if s.prefetchDrops jc level then
    .next (s.onCtx (fun c => { c with st := { c.st with hintdrop := c.st.hintdrop + 1 } }))
  else
    let ns := spanLen jc.rows jc.sstride jc.rbytes
    match s.table.entry jc.src.index with
    | none => .next s
    | some e =>
      .next ((linesOf jc.src.cursor ns).foldl (fun s l =>
        s.prefetchLine level e.extmap l (sectorsOf l jc.src.cursor ns)) s)

/-! ### The copy engine -/

/-- Card `k` of the current core's table. -/
def State.card (s : State) (k : Nat) : Option Card := s.core.cards[k]?

def State.modCard (s : State) (k : Nat) (f : Card → Card) : State :=
  { s with core := { s.core with cards := match s.core.cards[k]? with
      | some c => s.core.cards.set k (f c)
      | none => s.core.cards } }

/-- Change the context that issued a card of the current core. -/
def State.cardOwner (s : State) (c : Card) : Ctx → Bool := fun x =>
  x.place.cluster == s.clus.num && x.place.core == s.core.num && x.place.slot == c.slot && x.place.launch == c.launch

/-- A card leaves the table with its status (R250). -/
def State.finishCard (s : State) (k cause : Nat) (flags : BitVec 5) (foff : Nat) : State :=
  match s.card k with
  | none => s
  | some c =>
    let s1 := { s with core := { s.core with cards := s.core.cards.eraseIdx k } }
    s1.mapCtx (s.cardOwner c) (fun x => x.endDone c.db cause flags foff)

/-- Where a side of a card lies. -/
def State.sideLoc (s : State) (e : BufEntry) : Loc := (e.loc s.core.num 0).1

/-- Whether some extent or home of a range holds the card (R238, R250). -/
def State.rangeHeld (s : State) (e : BufEntry) (a n : Nat) : Bool := !e.isLocal && s.nonResident e a n

/-- The memory ranges of a card, with their entries. -/
def Card.ranges (c : Card) : List (BufEntry × Nat × Nat) :=
  let ns := spanLen c.card.rows c.card.sstride c.card.rbytes
  let src := (c.srcEnt, c.card.src.cursor, ns)
  match c.kind with
  | .copy _ => (match c.dstEnt with
    | some e => [src, (e, c.card.dst.cursor,
        spanLen c.card.rows c.card.dstride (c.card.wbytes c.fsrc.toNat c.fdst.toNat))]
    | none => [src])
  | .fill => [src]
  | .mcast _ ds => src :: ds.map (fun (d : CapV × BufEntry) =>
      (d.2, d.1.cursor, spanLen c.card.rows c.card.dstride c.card.rbytes))
  | .coll _ op _ _ _ =>
    let n := c.card.rbytes
    (match c.dstEnt with
     | some e => [(c.srcEnt, c.card.src.cursor, n), (e, c.card.dst.cursor,
         match op with
         | .ar => n | .bc => n
         | .rs => (c.writes.head?.map (fun w => w.hi - w.lo)).getD n
         | .ag => (c.writes.head?.map (fun w => w.hi - w.lo)).getD n)]
     | none => [(c.srcEnt, c.card.src.cursor, n)])

/-- Whether an extent or home of a card holds the whole card (R238, R250): of its source, or of its destination unless it is
a multicast. -/
def State.cardHeld (s : State) (c : Card) : Bool :=
  let rs := match c.kind with
    | .copy _ => c.ranges
    | .fill => c.ranges
    | .mcast _ _ => c.ranges.take 1
    | .coll _ _ _ _ _ => c.ranges
  rs.any (fun (r : BufEntry × Nat × Nat) => s.rangeHeld r.1 r.2.1 r.2.2)

/-- Whether one destination of a multicast is held (R382). -/
def State.destHeld (s : State) (c : Card) (i : Nat) : Bool :=
  match c.kind with
  | .mcast _ _ => (c.ranges[i + 1]?).any (fun (r : BufEntry × Nat × Nat) => s.rangeHeld r.1 r.2.1 r.2.2)
  | .copy _ => false
  | .fill => false
  | .coll _ _ _ _ _ => false

/-- Whether card `k` may start (R240, R245, R248, R249, R265, R272): no earlier card it depends on, with FENCE no earlier
card of its context; no earlier fence of its context is left, and the accesses that it overlaps have performed; where its
footprint meets a logged sector, the log entries before it have replayed; no load of its taint set outstanding. -/
def State.cardReady (s : State) (k : Nat) : Bool :=
  match s.card k with
  | none => false
  | some c =>
    let before := s.core.cards.take k
    let owner := s.allCtx.find? (s.cardOwner c)
    !c.started &&
    !before.any (fun b => c.dependsOn b || (c.fence && b.slot == c.slot && b.launch == c.launch)) &&
    (match owner with
     | none => true
     | some x =>
       let log := x.mem.slog.filter (fun y => decide (y.seq < c.seq))
       !x.fenced c.seq &&
       !(x.mem.outs ++ x.mem.slog).any (fun y => decide (y.seq < c.seq) &&
         meetAny (s.accessPrints y) (if y.op.reads then c.writes else c.reads ++ c.writes)) &&
       (log.isEmpty || !(c.behind || s.sectorsMeet log (c.reads ++ c.writes))) &&
       !(List.range 16).any (fun i => natBit c.taint.toNat i && (idAt x i).held))

/-! ### Moving the data (R245 to R250) -/

/-- A conversion between two types (R245): value and flags. -/
def convCode (j : JobCard) (fsrc fdst : Nat) (x : Nat) : Nat × BitVec 5 :=
  let v := opVal j.stype fsrc x
  let rm := cardRm j.rnd
  match j.dtype with
  | 8 => cvtToF .h rm v
  | 9 => cvtToF .b rm v
  | 10 => cvtToF .s rm v
  | 11 => cvtToF .d rm v
  | _ => packQ fdst rm v

/-- The length of a row as a card writes it. -/
def Card.row (c : Card) : Nat := c.card.wbytes c.fsrc.toNat c.fdst.toNat

/-- Whether a card copies tags (R245). -/
def Card.tags (c : Card) : Bool :=
  match c.kind with
  | .copy t => t
  | .mcast t _ => t
  | .fill => false
  | .coll _ _ _ _ _ => false

/-- The entry and cursor of destination `i` of a card; none for grist. -/
def Card.destAt (c : Card) (i : Nat) : Option (BufEntry × Nat) :=
  match c.kind with
  | .copy _ => some (c.dstEnt.getD c.srcEnt, c.card.dst.cursor)
  | .fill => none
  | .mcast _ ds => (ds[i]?).map (fun (d : CapV × BufEntry) => (d.2, d.1.cursor))
  | .coll _ _ _ _ _ => none

/-- The destinations that the copy engine writes for a card. -/
def Card.dests (c : Card) : Nat :=
  match c.kind with
  | .copy _ => 1
  | .fill => 1
  | .mcast _ ds => ds.length
  | .coll _ _ _ _ _ => 0

/-- Where byte `o` of destination `i`'s write order goes: a place of a buffer or an array, or of the grist. -/
def State.cardPos (s : State) (c : Card) (i o : Nat) : Option Loc × Nat :=
  match c.destAt i with
  | some (e, cur) =>
    let (l, a) := e.loc s.core.num (cur + o / c.row * c.card.dstride + o % c.row)
    (some l, a)
  | none => (none, o / c.row * 262144 + 32 * c.card.goff + o % c.row)

/-- `n` bytes of the source, `b` bytes into row `r`. -/
def State.cardSrc (s : State) (c : Card) (r b n : Nat) : Nat :=
  let (l, a) := c.srcEnt.loc s.core.num (c.card.src.cursor + r * c.card.sstride + b)
  bytesToNat (s.devRead l a n)

/-- Byte `o` of a card's write order, converted where CEN = 1 (R245, R246), with its flags. -/
def State.cardDatum (s : State) (c : Card) (o : Nat) : Byte × BitVec 5 :=
  let r := o / c.row
  let b := o % c.row
  if c.card.cen then
    let ws := opSw c.card.stype c.fsrc.toNat
    let wd := opSw c.card.dtype c.fdst.toNat
    let e0 := 8 * b / wd
    let l := (List.range ((8 * b + 7) / wd + 1 - e0)).map (fun i =>
      let e := e0 + i
      convCode c.card c.fsrc.toNat c.fdst.toNat
        (natField (s.cardSrc c r (e * ws / 8) ((ws + 7) / 8)) (if ws = 4 then 4 * (e % 2) else 0) ws))
    (BitVec.ofNat 8 (natField (ofElems wd (l.map (·.1))) (8 * b - e0 * wd) 8), l.foldl (fun f e => f ||| e.2) 0)
  else (BitVec.ofNat 8 (s.cardSrc c r b 1), 0)

/-- Whether bytes of a side meet an uncorrectable sector (R414). -/
def State.rangePoisoned (s : State) (l : Loc) (a n : Nat) : Bool :=
  match l with
  | .mem map => s.poison.any (fun k => rangesMeet (memKey map a) n k sectorBytes)
  | .loc _ => false

/-- The first cause that stops a write-order sector `i` of a destination: 0x07 port fault, 0x11 uncorrectable, 0 none.
`row` is the length of a row as written; `dst` the destination's entry and cursor, none for grist. -/
def State.chunkCause (s : State) (c : Card) (dst : Option (BufEntry × Nat)) (row i : Nat) : Nat :=
  let total := row * c.card.rows
  let offs := (List.range 48).filterMap (fun (b : Nat) => if 48 * i + b < total then some (48 * i + b) else none)
  let srcByte := fun o => c.card.src.cursor + (o / row) * c.card.sstride + o % row * c.card.rbytes / row
  let n := (c.card.rbytes + row - 1) / row
  let (sl, _) := c.srcEnt.loc s.core.num 0
  let bad := offs.any (fun o =>
    !s.portOkCard c c.srcEnt sl (c.srcEnt.loc s.core.num (srcByte o)).2 n ||
    (match dst with
     | some (e, cur) =>
       let (l, a) := e.loc s.core.num (cur + (o / row) * c.card.dstride + o % row)
       !s.portOkCard c e l a 1
     | none => false))
  if bad then 7
  else if offs.any (fun o => s.rangePoisoned sl (c.srcEnt.loc s.core.num (srcByte o)).2 n) then 17
  else 0

/-- The first stopping sector from `i` on, with its cause. -/
def State.firstStop (s : State) (c : Card) (dst : Option (BufEntry × Nat)) (row : Nat) : Nat → Nat → Option (Nat × Nat)
  | 0, _ => none
  | fuel + 1, i =>
    let q := s.chunkCause c dst row i
    if q = 0 then s.firstStop c dst row fuel (i + 1) else some (i, q)

/-- Sectors of a card's write order. -/
def Card.sectors (c : Card) (row : Nat) : Nat := ceilDiv (row * c.card.rows) 48

/-- Sectors already written to destination `i` (R250, R258). -/
def Card.movedAt (c : Card) (i : Nat) : Nat := (c.moved[i]?).getD 0

/-- A granule as a card with TAGS copies it to address `a` of a location (R245, R342). -/
def State.cardTag (s : State) (c : Card) (i : Nat) (l : Loc) (a : Nat) (v : CapV) : CapV :=
  let e := ((c.destAt i).map (·.1)).getD c.srcEnt
  s.enterAt l a e { v with tag := v.tag && !c.srcEnt.shared && !(v.perms &&& pSL != 0 && !e.isLocal) }

/-- Byte `o` of destination `i` is written; with TAGS the granule that begins there (R245, R246). Bytes of memory are written
at their home after the cluster's copies have been written back and dropped (R249). -/
def State.putByte (s : State) (c : Card) (i o : Nat) : State × BitVec 5 :=
  match s.cardPos c i o with
  | (none, a) =>
    let (b, fl) := s.cardDatum c o
    ({ s with core := { s.core with grist := Memory.write s.core.grist a [b] } }, fl)
  | (some l, a) =>
    let s1 := match l with
      | .mem map => s.homeReady map a 1
      | .loc _ => s
    if c.tags then
      if o % 16 = 0 then
        let (sl, sa) := c.srcEnt.loc s.core.num (c.card.src.cursor + o / c.row * c.card.sstride + o % c.row)
        (s1.devWriteCap l a (s1.cardTag c i l a (s1.devReadCap sl sa)), 0)
      else (s1, 0)
    else
      let (b, fl) := s1.cardDatum c o
      (s1.devWrite l a [b], fl)

/-- Destination `i` of a card has written the places `now` of its write order, of `done` in all: a sector of memory that it
has written whole has new ECC (R414). (DEDUCED, log 44.) -/
def State.cleanSectors (s : State) (c : Card) (i : Nat) (now done : List Nat) : State :=
  let key := fun o => match s.cardPos c i o with
    | (some (.mem map), a) => some (memKey map a)
    | (some (.loc _), _) => none
    | (none, _) => none
  let hit := s.poison.filter (fun k => now.any (fun o => (key o).any (fun x => decide (k ≤ x) && decide (x < k + sectorBytes))))
  if hit.isEmpty then s
  else
    let keys := done.filterMap key
    { s with poison := s.poison.filter (fun k =>
        !(hit.contains k && (List.range sectorBytes).all (fun b => keys.contains (k + b)))) }

/-- Bytes of destination `i` are written in the order given. -/
def State.putBytes (s : State) (c : Card) (i : Nat) (os : List Nat) : State × BitVec 5 :=
  os.foldl (fun (acc : State × BitVec 5) o =>
    let (s1, fl) := acc.1.putByte c i o
    (s1, acc.2 ||| fl)) (s, 0)

/-- Grist byte writes: a region of another ASID is zeroed and taken first (R159, R246). -/
def Core.takeRegion (k : Core) (asid r : Nat) : Core :=
  if vget k.gristAsid r none = some asid then k
  else { k with
    grist := k.grist.filter (fun cell => cell.1 % 262144 / 4096 != r)
    gristAsid := vset k.gristAsid r (some asid) }

/-- The regions that bytes `lo .. lo+n-1` of every column slice touch. -/
def gristRegions (lo n : Nat) : List Nat :=
  if n = 0 then [] else (List.range ((lo + n - 1) / 4096 - lo / 4096 + 1)).map (· + lo / 4096)

/-- The grist regions of a window (R159). -/
def Place.regions (p : Place) : List Nat :=
  (List.range 64).filter (fun r => decide (p.gLo < 128 * (r + 1)) && decide (128 * r < p.gHi))

/-- Whether a context stands on a core, or stopped on it last. -/
def Ctx.stoodOn (c : Ctx) (cluster core : Nat) : Bool :=
  (match c.saved with
   | some v => v.cluster == cluster
   | none => c.place.cluster == cluster) && c.place.core == core && c.phase != .vacant

/-- A region taken by an ASID counts as lost in the windows of that core's contexts of other ASIDs (R159); for a stopped one
it counts when it resumes (R336). -/
def State.loseRegion (s : State) (asid r : Nat) : State :=
  s.mapCtx (fun c => c.stoodOn s.clus.num s.core.num && c.place.asid != asid && c.place.regions.contains r)
    (fun c => match c.saved with
      | some v => { c with saved := some { v with grist := v.grist + 1 } }
      | none => { c with place := { c.place with gLost := min 65535 (c.place.gLost + 1) } })

/-- A region of the current core's grist is taken for an ASID, where that does not hold it already. -/
def State.giveRegion (s : State) (asid r : Nat) : State :=
  if vget s.core.gristAsid r none = some asid then s
  else { s with core := s.core.takeRegion asid r }.loseRegion asid r

/-- The regions that a `kfill` writes are zeroed and taken where another ASID holds them (R159, R246). -/
def State.takeRegions (s : State) (c : Card) : State :=
  match c.kind with
  | .fill => (gristRegions (32 * c.card.goff) c.row).foldl (fun s r => s.giveRegion s.table.asid r) s
  | .copy _ => s
  | .mcast _ _ => s
  | .coll _ _ _ _ _ => s

/-- Before a card reads, the dirty bytes that the cluster cache holds of its source are at their home (R249). -/
def State.flushSrc (s : State) (c : Card) : State :=
  if c.srcEnt.isLocal then s
  else s.homeFlush c.srcEnt.extmap c.card.src.cursor (spanLen c.card.rows c.card.sstride c.card.rbytes)

/-- The mask of delivered destinations of a `kmc`. -/
def deliveredMask (n : Nat) (stops : List (Nat × Nat)) : Nat :=
  (List.range n).foldl (fun m i => if stops.any (fun x => x.1 == i) then m else m + 2 ^ i) 0

/-- The first stop in table order. -/
def firstStopCause (n : Nat) (stops : List (Nat × Nat)) : Nat :=
  match (List.range n).filterMap (fun i => (stops.find? (fun x => x.1 == i)).map (·.2)) with
  | c :: _ => c
  | [] => 0

/-- Destinations of a running card that have sectors left to write. -/
def Card.open_ (c : Card) : List Nat :=
  (List.range c.dests).filter (fun i => decide (c.movedAt i < c.sectors c.row) && !c.stops.any (fun x => x.1 == i))

/-- The aligned unit of 8 bytes, with TAGS of 16, in which byte `o` of destination `i` performs (R249, R260). -/
def State.cardUnit (s : State) (c : Card) (i o : Nat) : Nat := (s.cardPos c i o).2 / (if c.tags then 16 else 8)

/-- The places of a write order not yet performed of destination `i`. -/
def Card.lateOf (c : Card) (i : Nat) : List Nat := (c.late.filter (fun (x : Nat × Nat) => x.1 == i)).map (·.2)

/-- Bytes `os` of destination `i` have been written with flags `fl`, bytes `held` are withheld. -/
def Card.wrote (c : Card) (i : Nat) (os held : List Nat) (fl : BitVec 5) : Card :=
  { c with late := c.late.filter (fun (x : Nat × Nat) => !(x.1 == i && os.contains x.2)) ++ held.map (fun o => (i, o))
           flags := c.flags ||| fl }

/-- One aligned unit `w` of the sector that destination `i` moves, with the bytes `os` of it: it performs with what was
withheld of it, or is withheld, by a free choice; one that the next sector goes on with is withheld. -/
def State.moveUnit (s : State) (k : Nat) (c : Card) (i : Nat) (next : Option Nat) (w : Nat) (os : List Nat) : State :=
  let (d, s1) := s.draw
  if next != some w && Config.freeBool d then
    let all := ((s.card k).getD c).lateOf i |>.filter (fun o => s.cardUnit c i o == w)
    let (s2, fl) := s1.putBytes c i (all ++ os)
    s2.modCard k (fun c => c.wrote i all [] fl)
  else s1.modCard k (fun c => c.wrote i [] os 0)

/-- The places of the write order that destination `i` has performed. -/
def Card.performed (c : Card) (i : Nat) : List Nat :=
  (List.range (min (48 * c.movedAt i) (c.row * c.card.rows))).filter (fun o => !(c.lateOf i).contains o)

/-- What card `k` has performed of the places `l` at destination `i` has been written. -/
def State.cardCleans (s : State) (k i : Nat) (l : List Nat) : State :=
  match s.card k with
  | some c => s.cleanSectors c i (l.filter (fun o => !(c.lateOf i).contains o)) (c.performed i)
  | none => s

/-- A running card moves its next sector to destination `i` (R249, R250, R382), unless that sector is one at which it
stops. -/
def execCardMove (k i : Nat) (s : State) : Out :=
  match s.card k with
  | none => .next s
  | some c =>
    if c.started && c.open_.contains i && !s.cardHeld c && !s.destHeld c i then
      let s0 := (s.flushSrc c).takeRegions c
      let m := c.movedAt i
      if s0.chunkCause c (c.destAt i) c.row m = 0 then
        let total := c.row * c.card.rows
        let os := (List.range 48).filterMap (fun (b : Nat) => if 48 * m + b < total then some (48 * m + b) else none)
        let next := if 48 * (m + 1) < total then some (s0.cardUnit c i (48 * (m + 1))) else none
        let s1 := (os.map (s0.cardUnit c i)).eraseDups.foldl (fun s w =>
          s.moveUnit k c i next w (os.filter (fun o => s0.cardUnit c i o == w))) s0
        let s2 := s1.modCard k (fun c =>
          { c with moved := (c.moved ++ List.replicate (i + 1 - c.moved.length) 0).set i (m + 1) })
        .next (s2.cardCleans k i (c.lateOf i ++ os))
      else .next s0
    else .next s

/-- What was withheld of destination `i` performs. -/
def State.flushLate (s : State) (k i : Nat) : State :=
  match s.card k with
  | none => s
  | some c =>
    let (s1, fl) := s.putBytes c i (c.lateOf i)
    (s1.modCard k (fun c => c.wrote i (c.lateOf i) [] fl)).cardCleans k i (c.lateOf i)

/-- Everything that the copy engine withheld of card `k` performs: at its end, and at the sector boundary at which it
stops (R249, R258). -/
def State.flushCard (s : State) (k : Nat) : State :=
  match s.card k with
  | none => s
  | some c => (List.range c.dests).foldl (fun s i => s.flushLate k i) s

/-- Run destination `i` from its front to its end or to the sector at which it stops: a port fault or an uncorrectable
sector, or at the latest after `limit` sectors with the cause given (R250, R382). The sector and the cause of the stop, and
the flags. -/
def State.runDest (s : State) (c : Card) (i : Nat) (limit : Option (Nat × Nat)) : State × Option (Nat × Nat) × BitVec 5 :=
  let n := c.sectors c.row
  let m := c.movedAt i
  let fault := s.firstStop c (c.destAt i) c.row (n - m) m
  let stop := match fault, limit.map (fun (x : Nat × Nat) => (max m x.1, x.2)) with
    | some (i, q), some (j, r) => if i < j then some (i, q) else some (j, r)
    | some x, none => some x
    | none, some y => some y
    | none, none => none
  let lim := match stop with
    | some (i, _) => 48 * i
    | none => c.row * c.card.rows
  let os := List.range' (48 * m) (lim - 48 * m)
  let (s1, fl) := s.putBytes c i os
  (s1.cleanSectors c i os (List.range lim), stop, fl)

/-- The uncorrectable sectors of the source under write-order sector `m` of a card, by their byte in the buffer. -/
def State.badSource (s : State) (c : Card) (m : Nat) : List Nat :=
  let n := (c.card.rbytes + c.row - 1) / c.row
  match s.sideLoc c.srcEnt with
  | .mem map => ((List.range 48).flatMap (fun b =>
      let o := 48 * m + b
      if o < c.row * c.card.rows then
        s.poisonIn map (c.card.src.cursor + o / c.row * c.card.sstride + o % c.row * c.card.rbytes / c.row) n
      else [])).eraseDups
  | .loc _ => []

/-- What a card that stops has read at its stop and could not correct: nothing past it (R250, R414). -/
def State.stopReads (s : State) (c : Card) (stop : Option (Nat × Nat)) : List Nat :=
  match stop with
  | some (m, q) => if q = 17 then s.badSource c m else []
  | none => []

/-- The uncorrectable sectors of a span of memory. -/
def State.badSpan (s : State) (l : Loc) (a n : Nat) : List Nat :=
  match l with
  | .mem map => s.poisonIn map a n
  | .loc _ => []

/-- The detection of sectors of a card's source (R414). -/
def State.detectAt (s : State) (c : Card) (l : List Nat) : State :=
  match s.sideLoc c.srcEnt with
  | .mem map => l.eraseDups.foldl (fun (s : State) o => s.detect map o) s
  | .loc _ => s

/-- Run a card to its end (R250, R382): of a multicast, a destination that has been delivered stays delivered. -/
def State.runCard (s : State) (k : Nat) (limit : Option (Nat × Nat)) : State :=
  match (s.flushCard k).card k with
  | none => s
  | some c =>
    let s0 := ((s.flushCard k).flushSrc c).takeRegions c
    let single :=
      let (s1, stop, fl) := s0.runDest c 0 limit
      (s1.detectAt c (s1.stopReads c stop)).finishCard k ((stop.map (·.2)).getD 0) (c.flags ||| fl) ((stop.map (fun x => 48 * x.1)).getD 0)
    match c.kind with
    | .copy _ => single
    | .fill => single
    | .mcast _ ds =>
      let run := c.open_.foldl (fun (acc : State × List (Nat × Nat) × List Nat) i =>
        let (s1, stop, _) := acc.1.runDest c i (if acc.1.destHeld c i then limit.map (fun x => (0, x.2)) else limit)
        (s1, acc.2.1 ++ (stop.map (fun x => (i, x.2))).toList, acc.2.2 ++ s1.stopReads c stop)) (s0, c.stops, [])
      let stops := run.2.1
      (run.1.detectAt c run.2.2).finishCard k (firstStopCause ds.length stops) 0
        (if stops.isEmpty then 0 else deliveredMask ds.length stops)
    | .coll _ _ _ _ _ => s0

/-- CARD_COMPLETE (R250, R382): a started `kcopy`, `kfill` or `kmc` writes what it has not written yet and ends; a footprint
that is no longer resident holds it, of a multicast an undelivered destination. A collective job ends by its own events.
(DEDUCED, log 23.) -/
def execCardComplete (k : Nat) (s : State) : Out :=
  match s.card k with
  | none => .next s
  | some c =>
    if c.started then
      if s.cardHeld c then .next (s.modCard k (fun c => { c with held := true, started := false }))
      else if c.open_.any (s.destHeld c) then .next s
      else .next (s.runCard k none)
    else .next s

/-- The index of the outstanding card of the current context that holds a done bit. -/
def State.cardOfDone (s : State) (db : Nat) : Option Nat :=
  (List.range s.core.cards.length).find? (fun k =>
    match s.core.cards[k]? with
    | some c => c.of s.ctx && c.db == db
    | none => false)

end Sys2Proof.Machine
end

