-- ==== Sys2Proof/Machine/Kitty.lean ====
section
/-! DEFINITION. The kitty words of the vector units: `kdef`, `ktake`, `kcnt` (R295 to R299). -/

namespace Sys2Proof.Machine

open Sys2Proof

/-- Bytes of a kitty entry (R296). -/
def kittyBytes : Nat := 48

/-- The 48 bytes of an entry (R296). -/
def kittyEntry (lane path : Nat) (vals : List Nat) : List Byte :=
  natToBytes kittyBytes (lane + path * 2 ^ 8 + vals.length * 2 ^ 16 + ofElems 64 vals * 2 ^ 64)

/-- The lowest local-array offset of a kitty's region outside the context's scratchpad banks (R296). -/
def Ctx.kittyOutside (c : Ctx) (k : Kitty) : Option Nat := c.firstOutside (kittyBytes * k.base) (kittyBytes * k.cap)

/-- The source registers of a `kdef`: value and taint set of register `index + t`. -/
def Ctx.kdefSrc (c : Ctx) (u : VUnit) (a : Src) (t : Nat) : V2048 × Taint :=
  c.rdV u 64 0 (.main (BitVec.ofNat 5 (srcIdx a + t)) false)

/-- `kdef` (R297). -/
def execKdef (u : VUnit) (cnt : BitVec 2) (kt : BitVec 2) (path : BitVec 3) (a : Src) (sel : MaskSel) (s : State) : Out :=
  let (act, tm) := s.ctx.rdSel u sel
  let k := s.ctx.kitty kt.toNat
  let lanes := setBits 32 act.toNat
  if act = 0 then .next s
  else
    match s.ctx.kittyOutside k with
    | some o => raiseLa s u.unit o
    | none =>
      if k.cap < k.count + lanes.length then
        raise s { s.ctx.trapInfo .kitty u.unit with lanes := some act }
      else
        let srcs := (List.range (cnt.toNat + 1)).map (s.ctx.kdefSrc u a)
        let t := orT (srcs.map (·.2)) ||| tm
        let s1 := (lanes.zip (List.range lanes.length)).foldl (fun s (x : Nat × Nat) =>
          { s with core := (s.core.laWrite (kittyBytes * (k.base + (k.head + k.count + x.2) % k.cap))
              (kittyEntry x.1 path.toNat (srcs.map (fun v => elemOf v.1.toNat x.1 64)))) }) s
        let k1 := { k with count := k.count + lanes.length, taint := k.taint ||| t }
        .next (s1.onCtx (fun c => { c with st := { c.st with kitty := vset c.st.kitty kt.toNat k1 } }))

/-- Entry `j` of a batch, as its 48-byte number. -/
def kittyAt (la : List Host.Cell) (k : Kitty) (j : Nat) : Nat :=
  bytesToNat (Memory.read la (kittyBytes * (k.base + (k.head + j) % k.cap)) kittyBytes)

/-- `ktake` (R298): one due-queue entry holds the header, the values and the mask. -/
def execKtake (u : VUnit) (cnt : BitVec 2) (kt : BitVec 2) (d : BitVec 5) (m : BitVec 3) (s : State) : Out :=
  let k := s.ctx.kitty kt.toNat
  match s.ctx.kittyOutside k with
  | some o => raiseLa s u.unit o
  | none =>
    let n := min k.count 32
    let es := (List.range n).map (kittyAt s.core.la k)
    let header := vecOf 64 (es.map (fun e => natField e 0 16))
    let vals := (List.range (cnt.toNat + 1)).map (fun t =>
      RegWrite.vec u (d + BitVec.ofNat 5 (t + 1)) (vecOf 64 (es.map (fun e => natField e (64 + 64 * t) 64))))
    let mask := RegWrite.mask u m (BitVec.ofNat 32 (2 ^ n - 1))
    let k1 := if n = 0 then k else { k with head := (k.head + n) % k.cap, count := k.count - n }
    let k2 := if k1.count = 0 then { k1 with taint := 0 } else k1
    .next (s.onCtx (fun c =>
      let c1 := c.putDue 6 (.vec u d header :: vals ++ [mask]) k.taint 0
      { c1 with st := { c1.st with kitty := vset c1.st.kitty kt.toNat k2 } }))

/-- `kcnt` (R299). -/
def execKcnt (u : VUnit) (d : BitVec 5) (kt : BitVec 2) (s : State) : Out :=
  let k := s.ctx.kitty kt.toNat
  .next (s.onCtx (fun c => c.put 2 (.vec u d (splat k.count)) k.taint))

end Sys2Proof.Machine
end

