-- ==== Sys2Proof/Machine/Pool.lean ====
section
/-! DEFINITION. Continuations: records, the pool unit, `spawn`, `pick`, `susp`, `join`, `bar`, and contexts created from
records (R282 to R293). -/

namespace Sys2Proof.Machine

open Sys2Proof

/-! ### The pool buffer (R282, R283) -/

/-- The launch of the current context. -/
def State.curLaunch (s : State) : Option Launch := s.launchOf s.ctx.place.launch

/-- The buffer-space entry of a launch's pool. -/
def State.poolEntry (s : State) (l : Launch) : Option BufEntry := (s.spaceOf l.lrec.asid).entry l.pool.index

/-- Cores of a launch in each cluster. -/
def LaunchRec.coreCount (r : LaunchRec) : Nat := popCount 8 r.cores

/-- The byte offset of a context slot's stage in the pool buffer (R283). -/
def Launch.stageOff (l : Launch) (clord core slot : Nat) : Nat :=
  64 * (l.pool.size + 2 * (clord * l.lrec.coreCount + popCount core l.lrec.cores) + slot)

/-- The lowest-numbered free record slot. -/
def Pool.freeSlot (p : Pool) : Option Nat :=
  (List.range p.size).find? (fun k => !p.slots.any (fun x => x.slot == k))

/-- Whether no record slot is free in the pool of the current context's launch. -/
def State.poolFull (s : State) : Bool :=
  match s.curLaunch with
  | some l => l.pool.freeSlot.isNone
  | none => false

/-- Whether the pool unit of the current context's launch, on the die of the launch's first cluster, is shed (R285,
R394). -/
def State.poolShed (s : State) : Bool :=
  match s.curLaunch with
  | some l => s.power.shed.contains (clusterStack ((l.clusters.head?).getD 0))
  | none => false

/-- Whether the pool unit must wait for bytes of the pool buffer: their home is shed, or an extent is not in HBM and finds no
frame (R3, R238, R394). -/
def State.poolHeld (s : State) (l : Launch) (off n : Nat) : Bool :=
  match s.poolEntry l with
  | some e => s.homeShed e off n || !s.roomFor e off n
  | none => false

/-- Whether a `spawn` is held: no slot is free, or its pool unit or the slot's bytes are out of reach. -/
def State.poolHolds (s : State) : Bool :=
  s.poolFull || s.poolShed ||
  (match s.curLaunch with
   | some l => s.poolHeld l (64 * (l.pool.freeSlot.getD 0)) 64
   | none => false)

def State.modPool (s : State) (id : Nat) (f : Pool → Pool) : State :=
  s.modLaunch id (fun l => { l with pool := f l.pool })

/-- Bytes of the pool buffer written by the pool unit at their home. -/
def State.poolWrite (s : State) (l : Launch) (off : Nat) (bs : List Byte) : State :=
  let s1 := s.homeReady l.pool.map off bs.length
  let s2 := match s1.poolEntry l with
    | some e => s1.touchExtent e (off / extentBytes)
    | none => s1
  s2.memWrite l.pool.map off bs

/-- A granule of the pool buffer written with its tag. -/
def State.poolWriteCap (s : State) (l : Launch) (off : Nat) (v : CapV) : State :=
  let owner := ((s.poolEntry l).map (fun e => e.owner)).getD l.lrec.asid
  (s.poolWrite l off (natToBytes 16 v.bits.toNat)).memWriteCap l.pool.map off (s.enter owner v)

/-- A record enters a pool slot (R282): reserved bits and SUSP zero, granules 1 and 2 with their tags, the counter 0. -/
def State.enterRecord (s : State) (l : Launch) (slot : Nat) (bs : List Byte) (frame arg : CapV) : State :=
  let st := bs.take 4 ++ [0, ((bs[5]?).getD 0) &&& 3] ++ bs.drop 6
  let s1 := s.poolWrite l (64 * slot) st
  let s2 := (s1.poolWriteCap l (64 * slot + 16) frame).poolWriteCap l (64 * slot + 32) arg
  s2.modPool l.id (fun p => { p with slots := p.slots ++ [⟨slot, 0, false⟩] })

/-- The number of a record field at byte `o` of `n` bytes. -/
def State.recField (s : State) (l : Launch) (slot o n : Nat) : Nat :=
  bytesToNat (s.memRead l.pool.map (64 * slot + o) n)

/-! ### The pool unit (R285) -/

/-- The priority sequence of R285. -/
def prioRound : List Nat := [3, 2, 3, 1, 3, 2, 3, 0, 3, 2, 3, 1, 3, 2, 3]

/-- The bits of AFF that name claimed clusters. -/
def Launch.claimedMask (l : Launch) : Nat :=
  (List.range l.clusters.length).foldl (fun m c => m ||| 2 ^ (c % 64)) 0

/-- Eligibility of a record for a cluster ordinal (R284). -/
def State.eligible (s : State) (l : Launch) (c slot : Nat) : Bool :=
  let aff := s.recField l slot 8 8
  natBit aff (c % 64) || aff &&& l.claimedMask == 0

/-- Positions of the sequence from `p` on, wrapping. -/
def roundFrom (p : Nat) : List Nat := (List.range 15).map (fun i => (p + i) % 15)

/-- The record that the pool unit hands to a cluster, and the cluster's next position (R285). -/
def State.choose (s : State) (l : Launch) (c : Nat) : Option (Nat × Nat) :=
  let el := l.pool.queue.filter (s.eligible l c)
  let prio := fun slot => s.recField l slot 5 1 % 4
  let pos := ((l.pool.pos.find? (fun x => x.1 == c)).map (·.2)).getD 0
  match (roundFrom pos).find? (fun i => el.any (fun k => prio k == (prioRound[i]?).getD 0)) with
  | none => none
  | some i =>
    match el.find? (fun k => prio k == (prioRound[i]?).getD 0) with
    | none => none
    | some k => some (k, (i + 1) % 15)

/-- Set the position of a cluster. -/
def setPos (l : List (Nat × Nat)) (c p : Nat) : List (Nat × Nat) := l.filter (fun x => x.1 != c) ++ [(c, p)]

/-! ### `spawn` and `join` (R286, R290) -/

def Access.isSpawn (x : Access) : Bool :=
  match x.op with
  | .spawn => true
  | .load _ _ => false | .vload _ => false | .wload _ _ => false | .lcap _ => false | .store => false
  | .scap _ => false | .amo _ _ _ => false | .cas _ _ => false | .wsadd _ => false | .join _ => false
  | .fence _ => false

/-- A `spawn` that finds no slot free holds its context from then on until it performs (R286). -/
def State.holdSpawns (s : State) : State :=
  if s.poolHolds then
    let f := fun (x : Access) => if x.isSpawn then { x with hold := true } else x
    s.onCtx (fun c => { c with mem := { c.mem with outs := c.mem.outs.map f, slog := c.mem.slog.map f } })
  else s

/-- `spawn` (R286): an access of ordering `.ar` at PK, a 64-byte read of the stage. -/
def execSpawn (s : State) : Out :=
  match s.curLaunch with
  | none => .next s
  | some l =>
    let p := s.ctx.place
    let x := s.ctx.access .spawn .C 0 0
    .next (s.enqueue { x with
      loc := .mem l.pool.map, pieces := [⟨0, l.stageOff p.clord p.core p.slot, 0⟩], size := 64
      ent := s.poolEntry l, index := l.pool.index, rel := some .pk, acq := some .pk }).holdSpawns

/-- The action of the pool unit when a `spawn` performs (R286). (DEDUCED, log 83.) -/
def State.spawnAction (s : State) (x : Access) : State :=
  match s.curLaunch with
  | none => s
  | some l =>
    match l.pool.freeSlot with
    | none => s
    | some k =>
      let off := ((x.pieces.head?).map (·.addr)).getD 0
      let bs := s.memRead l.pool.map off 64
      let s1 := s.enterRecord l k bs (s.memReadCap l.pool.map (off + 16)) (s.memReadCap l.pool.map (off + 32))
      s1.modPool l.id (fun p => { p with queue := p.queue ++ [k] })

/-- A join counter is a signed 32-bit number (R283). -/
def counter32 (z : Int) : Int := signedVal 32 (wrapInt 32 z)

/-- An addition to the counter of a slot: a parked record whose counter is then 0 is queued (R288, R290). -/
def Pool.count (p : Pool) (slot : Nat) (n : Int) : Pool :=
  let p1 := { p with slots := p.slots.map (fun (x : PoolSlot) =>
    if x.slot == slot then { x with counter := counter32 (x.counter + n) } else x) }
  if p1.slots.any (fun x => x.slot == slot && x.parked && x.counter == 0) then { p1 with queue := p1.queue ++ [slot] }
  else p1

/-- `join` to a slot (R290): an access of ordering `.rel` at PK. -/
def joinSlot (slot : Nat) (t : Taint) (s : State) : Out :=
  if s.ctx.place.poolsz ≤ slot then raiseC s .space .C
  else
    let x := s.ctx.access (.join slot) .C t 0
    .next (s.enqueue { x with rel := some .pk })

/-- `join` (R290). -/
def execJoin (a : Src) (s : State) : Out :=
  let (v, t) := s.ctx.rdC a
  joinSlot v.toNat t s

/-- `join.l` (R290): no effect without a link. -/
def execJoinL (s : State) : Out :=
  if s.ctx.place.link = 0xFFFF then .next s else joinSlot s.ctx.place.link 0 s

/-! ### Performing an access, pool actions included -/

/-- Performing an access: `spawn` and `join` act on the pool, every other one as R273 says. -/
def State.perform (s : State) (x : Access) (replay : Bool) : State :=
  match x.op with
  | .spawn =>
    if (s.badPieces x).isEmpty then s.spawnAction x else s.performNow x replay
  | .join slot => s.modPool s.ctx.place.launch (fun p => p.count slot (-1))
  | .load _ _ => s.performNow x replay
  | .vload _ => s.performNow x replay
  | .wload _ _ => s.performNow x replay
  | .lcap _ => s.performNow x replay
  | .store => s.performNow x replay
  | .scap _ => s.performNow x replay
  | .amo _ _ _ => s.performNow x replay
  | .cas _ _ => s.performNow x replay
  | .wsadd _ => s.performNow x replay
  | .fence _ => s.performNow x replay

def Access.isJoin (x : Access) : Bool :=
  match x.op with
  | .join _ => true
  | .load _ _ => false | .vload _ => false | .wload _ _ => false | .lcap _ => false | .store => false
  | .scap _ => false | .amo _ _ _ => false | .cas _ _ => false | .wsadd _ => false | .spawn => false
  | .fence _ => false

/-- Whether an access may perform now; a `spawn` also needs a free slot and its pool unit (R286, R394). -/
def State.canPerform (s : State) (x : Access) : Bool := s.mayPerform x && (!x.isSpawn || !s.poolHolds)

/-- An outstanding access of the current context performs, when nothing holds it; one that reads an uncorrectable sector is
a fatal fault of the context (R414). -/
def State.performOut (s : State) (x : Access) : State :=
  if s.canPerform x then
    let s1 := s.onCtx (fun c => c.dropAccess x.seq)
    if s.readsPoison x then s1.poisonFault x else s1.perform x false
  else s

/-- SPAWN_PERFORM (R286): `k` is the access's place among the outstanding ones. -/
def execSpawnPerform (k : Nat) (s : State) : Out :=
  match s.ctx.mem.outs[k]? with
  | some x => .next (if x.isSpawn then s.performOut x else s)
  | none => .next s

/-- JOIN_PERFORM (R290). -/
def execJoinPerform (k : Nat) (s : State) : Out :=
  match s.ctx.mem.outs[k]? with
  | some x => .next (if x.isJoin then s.performOut x else s)
  | none => .next s

/-! ### `bar` (R292) -/

/-- The barriers that a `bar` names: of the launch, or of the launch in the current cluster. (DEDUCED, log 80.) -/
def Launch.barsAt (l : Launch) (launch : Bool) (clord : Nat) : Vector Barrier 4 :=
  if launch then l.bars
  else ((l.clBars.find? (fun b => b.clord == clord)).map (·.bars)).getD (Vector.replicate 4 Barrier.zero)

def Launch.setBars (l : Launch) (launch : Bool) (clord : Nat) (v : Vector Barrier 4) : Launch :=
  if launch then { l with bars := v }
  else { l with clBars := l.clBars.filter (fun b => b.clord != clord) ++ [⟨clord, v⟩] }

/-- One arrival (R292): the first of a generation fixes the count; the last closes it. -/
def Barrier.arrive (b : Barrier) (k : Nat) : Barrier :=
  let k1 := if b.arrivals = 0 then k else b.k
  if k1 ≤ b.arrivals + 1 then { k := k1, arrivals := 0, gen := b.gen + 1 }
  else { k := k1, arrivals := b.arrivals + 1, gen := b.gen }

def LState.isAborting : LState → Bool
  | .aborting _ _ => true | .running => false | .stopped _ => false

/-- `bar` (R292, R338): from the end of the cycle in which an abort begins the context ends as by `halt` and nothing is
counted. -/
def execBar (b : BitVec 2) (launch : Bool) (a : Src) (s : State) : Out :=
  match s.curLaunch with
  | none => .next s
  | some l =>
    if l.state.isAborting && !s.notices.contains (.abort l.id) then execHalt s
    else
      let k := (s.ctx.rdC a).1.toNat
      if k = 0 ∨ 65535 < k then raiseC s .illegal .C
      else
        let p := s.ctx.place
        let v := l.barsAt launch p.clord
        let br := vget v b.toNat Barrier.zero
        let s1 := if launch then s.writeBackAll else s
        let s2 := s1.modLaunch l.id (fun l => l.setBars launch p.clord (vset v b.toNat (br.arrive k)))
        .next (s2.onCtx (fun c => { c with wait := { c.wait with bar := some ⟨launch, b.toNat, br.gen⟩ } }))

/-! ### `pick` and `susp` (R287, R288) -/

/-- `pick` (R287): a release at PK, the record slot freed; the slot waits once the bundle has issued whole (Step). -/
def execPick (s : State) : Out :=
  .next ((s.freeRecord.writeBackAll).onCtx (fun c =>
    { c with phase := .waiting, bun := { c.bun with decided := true } }))

/-- What a live-mask bit selects (R288): file 0 a, 1 c, 2 i, 3 va, 4 vb; register; bytes. -/
def liveReg (b : Nat) : Nat × Nat × Nat :=
  if b < 28 then (0, b, 8) else if b < 44 then (1, b - 28, 16) else if b < 72 then (2, b - 44, 8)
  else if b < 100 then (3, b - 72, 256) else (4, b - 100, 256)

/-- The selected registers with their frame offsets, and the frame size (R288). -/
def frameLayout (mask : Nat) : List (Nat × Nat × Nat) × Nat :=
  (setBits 128 mask).foldl (fun (acc : List (Nat × Nat × Nat) × Nat) b =>
    let (f, n, sz) := liveReg b
    let o := if sz = 16 then (acc.2 + 15) / 16 * 16 else acc.2
    (acc.1 ++ [(f, n, o)], o + sz)) ([], 304)

/-- No frame is longer than this. -/
def frameMax : Nat := 16384

/-- A register's value as the frame holds it. -/
def Ctx.frameReg (c : Ctx) (f n : Nat) : Nat :=
  match f with
  | 0 => (vget c.a.a n fe0).val.toNat
  | 1 => (vget c.a.c n ⟨CapV.null, 0, true⟩).val.bits.toNat
  | 2 => (vget c.i.i n fe0).val.toNat
  | 3 => (vget c.va.v n ⟨0, 0, true⟩).val.toNat
  | _ => (vget c.vb.v n ⟨0, 0, true⟩).val.toNat

/-- Values of a file in ascending order at `w` bits each. -/
def packFile {α : Type} {n : Nat} (w : Nat) (f : α → Nat) (v : Vector α n) : Nat := ofElems w (v.toList.map f)

/-- The frame as a number (R288). -/
def Ctx.frameNum (c : Ctx) (mask : Nat) : Nat :=
  packFile 64 (fun (e : TV W64) => e.val.toNat) c.c.g +
  packFile 32 (fun (e : BitVec 32) => e.toNat) c.c.rstk * 2 ^ (8 * 64) +
  (1 + packFile 1 (fun (e : TV Bool) => if e.val then 1 else 0) c.c.p / 2 * 2) * 2 ^ (8 * 128) +
  c.c.depth * 2 ^ (8 * 129) + c.st.rm.toNat * 2 ^ (8 * 130) + c.st.fflags.toNat * 2 ^ (8 * 131) +
  packFile 32 (fun (e : TV (BitVec 32)) => e.val.toNat) c.c.l * 2 ^ (8 * 136) +
  packFile 64 (fun (e : TV W64) => e.val.toNat) c.a.s * 2 ^ (8 * 152) +
  packFile 64 (fun (e : TV W64) => e.val.toNat) c.i.s * 2 ^ (8 * 184) +
  packFile 32 (fun (e : TV (BitVec 32)) => e.val.toNat) c.va.m * 2 ^ (8 * 216) +
  packFile 32 (fun (e : TV (BitVec 32)) => e.val.toNat) c.vb.m * 2 ^ (8 * 248) +
  mask * 2 ^ (8 * 288) +
  (frameLayout mask).1.foldl (fun t (r : Nat × Nat × Nat) => t + c.frameReg r.1 r.2.1 * 2 ^ (8 * r.2.2)) 0

/-- The extents of a range become resident for a unit of the device. -/
def State.touchRange (s : State) (e : BufEntry) (a n : Nat) : State :=
  if e.isLocal then s else (extentsOf a n).foldl (fun s x => s.touchExtent e x) s

/-- The frame written at its place with the tags of the capabilities in it (R288); a write that fails the port check
changes nothing (R206). An SL capability in a frame that lies in memory is stored with its tag too, as R288 says of every
capability, though R220 names the save area alone. (DEDUCED, log 120.) -/
def State.writeFrame (s : State) (e : BufEntry) (a mask : Nat) : State :=
  let (lay, size) := frameLayout mask
  let (l, o) := e.loc s.core.num a
  let s0 := s.touchRange e a size
  let s1 := match l with
    | .mem map => s0.homeReady map o size
    | .loc _ => s0
  if s1.portOk e l o size then
    lay.foldl (fun s (r : Nat × Nat × Nat) =>
      if r.1 = 1 then
        s.devWriteCap l (o + r.2.2) (s.enterAt l (o + r.2.2) e (vget s.ctx.a.c r.2.1 ⟨CapV.null, 0, true⟩).val)
      else s) (s1.devWrite l o (natToBytes size (s1.ctx.frameNum mask)))
  else s1

/-- The record of the current context parked (R288): PC, SUSP and the count. -/
def State.parkRecord (s : State) (l : Launch) (n : Nat) : State :=
  let slot := s.ctx.place.contSlot
  let s1 := s.poolWrite l (64 * slot) (natToBytes 4 s.ctx.bun.seqNext ++ [1])
  s1.modPool l.id (fun p =>
    { p with slots := p.slots.map (fun (x : PoolSlot) => if x.slot == slot then { x with parked := true } else x) }.count slot n)

/-- Whether the frame that a capability names is out of reach of the units that write and read it (R369, R394). -/
def State.frameHeld (s : State) (fr : CapV) (n : Nat) : Bool :=
  match s.accCheck fr 0 304 (pR + pLC) 16 with
  | .ok (e, a) => !e.isLocal && s.engineHeld e a (min n (e.length - a))
  | .error _ => false

/-- Whether a `susp` must wait for its frame or its record: out of reach, or without frames of HBM (R3, R285, R394). -/
def State.suspHeld (s : State) (a b : Src) : Bool :=
  let size := (frameLayout ((s.ctx.rdC a).1.toNat + (s.ctx.rdC b).1.toNat * 2 ^ 64)).2
  s.frameHeld s.ctx.place.frame size ||
  (match s.accCheck s.ctx.place.frame 0 size (pR + pW + pLC + pSC) 16 with
   | .ok (e, ad) => !s.roomFor e ad size
   | .error _ => false) ||
  s.poolShed || s.curLaunch.any (fun l => s.poolHeld l (64 * s.ctx.place.contSlot) 8)

/-- `susp` (R288). -/
def execSusp (n : BitVec 3) (a b : Src) (s : State) : Out :=
  let cnt := (vget s.ctx.c.g n.toNat tv0).val.toNat
  let mask := (s.ctx.rdC a).1.toNat + (s.ctx.rdC b).1.toNat * 2 ^ 64
  let fr := s.ctx.place.frame
  if 2 ^ 31 - 1 < cnt then raiseC s .illegal .C
  else
    match s.accCheck fr 0 (frameLayout mask).2 (pR + pW + pLC + pSC) 16 with
    | .error f => raiseCheck s .C fr f
    | .ok (e, ad) =>
      let s0 := s.onCtx Ctx.takeAllLoose
      let s1 := (s0.writeFrame e ad mask).writeBackAll
      let s2 := match s1.curLaunch with
        | some l => s1.parkRecord l cnt
        | none => s1
      .next (s2.onCtx (fun c => { c with phase := .waiting, bun := { c.bun with decided := true } }))

/-! ### Contexts created from records (R284, R289, R315) -/

/-- The floor and every perform epoch at the cluster clock (R269). -/
def Ctx.atClock (c : Ctx) (clock : Nat) : Ctx :=
  { c with mem := { c.mem with floor := clock, ids := vmap (fun x : LoadId => { x with pe := clock }) c.mem.ids } }

/-- A register write of a restored or initial value: full, empty taint set. -/
def Ctx.init (c : Ctx) (w : RegWrite) : Ctx := c.putReg w 0

/-- The context of a record of launch `l` at a place (R284). (DEDUCED, log 85.) -/
def State.createCtx (s : State) (l : Launch) (p : Place) (slot : Nat) : Ctx :=
  let off := l.stageOff p.clord p.core p.slot
  let frame := s.enter l.lrec.asid (s.memReadCap l.pool.map (64 * slot + 16))
  let arg := s.enter l.lrec.asid (s.memReadCap l.pool.map (64 * slot + 32))
  let e := expExact (off + 64)
  let gen := ((s.poolEntry l).map (fun b => b.gen)).getD l.pool.gen
  let stage := mkCap l.pool.index gen (pR + pW + pLC + pSC) e (off / 2 ^ e) ((off + 64) / 2 ^ e) off true
  let p1 := { p with contSlot := slot, link := s.recField l slot 6 2, poolsz := l.pool.size, frame := frame, gLost := 0 }
  let c := ((Ctx.create p1).init (.cap 0 frame)).init (.cap 1 arg)
  let c1 := (c.init (.cap 2 stage)).init (.gen 0 (BitVec.ofNat 64 (s.recField l slot 48 8)))
  let c2 := c1.init (.gen 1 (BitVec.ofNat 64 (s.recField l slot 56 8)))
  { c2 with pc := s.recField l slot 0 4 }.atClock s.clus.clock

/-- A field of the frame. -/
def frameField (f o n : Nat) : Nat := natField f (8 * o) (8 * n)

/-- A restored register from the frame. -/
def Ctx.restoreReg (c : Ctx) (f : Nat) (r : Nat × Nat × Nat) (cap : CapV) : Ctx :=
  let n5 := BitVec.ofNat 5 r.2.1
  match r.1 with
  | 0 => c.init (.addr n5 (BitVec.ofNat 64 (frameField f r.2.2 8)))
  | 1 => c.init (.cap (BitVec.ofNat 4 r.2.1) cap)
  | 2 => c.init (.int n5 (BitVec.ofNat 64 (frameField f r.2.2 8)))
  | 3 => c.init (.vec .va n5 (BitVec.ofNat 2048 (frameField f r.2.2 256)))
  | _ => c.init (.vec .vb n5 (BitVec.ofNat 2048 (frameField f r.2.2 256)))

/-- The fixed part of the frame restored (R288, R289). -/
def Ctx.restoreFixed (c : Ctx) (f : Nat) : Ctx :=
  let regs : List RegWrite :=
    (List.range 8).map (fun k => .gen (BitVec.ofNat 3 k) (BitVec.ofNat 64 (frameField f (8 * k) 8))) ++
    (List.range 8).map (fun k => .pred (BitVec.ofNat 3 k) (natBit (frameField f 128 1) k)) ++
    (List.range 4).map (fun k => .loop (BitVec.ofNat 2 k) (BitVec.ofNat 32 (frameField f (136 + 4 * k) 4)) false) ++
    (List.range 4).map (fun k => .addr (BitVec.ofNat 5 (28 + k)) (BitVec.ofNat 64 (frameField f (152 + 8 * k) 8))) ++
    (List.range 4).map (fun k => .int (BitVec.ofNat 5 (28 + k)) (BitVec.ofNat 64 (frameField f (184 + 8 * k) 8))) ++
    (List.range 8).map (fun k => .mask .va (BitVec.ofNat 3 k) (BitVec.ofNat 32 (frameField f (216 + 4 * k) 4))) ++
    (List.range 8).map (fun k => .mask .vb (BitVec.ofNat 3 k) (BitVec.ofNat 32 (frameField f (248 + 4 * k) 4)))
  let c1 := regs.foldl Ctx.init c
  { c1 with
    c := { c1.c with rstk := vmap (fun (k : Nat) => BitVec.ofNat 32 (frameField f (64 + 4 * k) 4)) (Vector.range 16)
                     depth := min 16 (frameField f 129 1) }
    st := { c1.st with rm := BitVec.ofNat 2 (frameField f 130 1), fflags := BitVec.ofNat 5 (frameField f 131 1) } }

/-- The current context, created from a parked record, restored from its frame; a failing check traps at the first
bundle, before any register is restored (R289). -/
def State.restoreFrame (s : State) : State :=
  let fr := s.ctx.place.frame
  match s.accCheck fr 0 304 (pR + pLC) 16 with
  | .error f => s.takeTrap (s.ctx.checkTrap .C fr f none)
  | .ok (e, a) =>
    let (l, o) := e.loc s.core.num a
    let s0 := match l with
      | .mem map => s.homeFlush map o frameMax
      | .loc _ => s
    let mask := bytesToNat (s0.devRead l (o + 288) 16)
    let (lay, size) := frameLayout mask
    match s0.accCheck fr 0 size (pR + pLC) 16 with
    | .error f => s0.takeTrap (s0.ctx.checkTrap .C fr f none)
    | .ok _ =>
      let f := bytesToNat (s0.devRead l o size)
      s0.onCtx (fun c => lay.foldl (fun c (r : Nat × Nat × Nat) =>
        c.restoreReg f r (s0.enter c.place.asid (loadTag e.shared (s0.devReadCap l (o + r.2.2))))) (c.restoreFixed f))

def Phase.isWaiting : Phase → Bool
  | .waiting => true | .vacant => false | .running => false | .ended => false | .frozen => false | .stopped => false

/-- Whether a context of a launch counts as ended or waiting in `pick` with nothing of its pool accesses left (R287). -/
def Ctx.idle (c : Ctx) : Bool :=
  (match c.phase with
   | .waiting => true | .ended => true | .frozen => true
   | .vacant => false | .running => false | .stopped => false) &&
  !(c.mem.outs ++ c.mem.slog).any (fun x => x.isSpawn || x.isJoin)

/-- Every waiting slot of a launch ends as by `halt` once no record is queued and every context waits or has ended
(R287). -/
def State.endWaiting (s : State) (l : Launch) : State :=
  if l.pool.queue.isEmpty && (s.allCtx.filter (fun c => c.place.launch == l.id && c.phase != .vacant)).all Ctx.idle then
    s.mapCtx (fun c => c.place.launch == l.id && c.phase == .waiting) (fun c => { c with phase := .ended })
  else s

/-- The tiles that a context owns at its creation: full, with empty taint sets (R20, R162). -/
def Core.freshTiles (k : Core) (p : Place) : Core :=
  { k with tiles := (setBits 32 p.zown.toNat).foldl (fun v z => vmod v z (fun (t : Tile) => { t with full := true, taint := 0 })) k.tiles }

/-- The cards that a context leaves behind when its slot takes another one: they run to completion and no context hears of
them (R20, R106, R287). -/
def Core.orphanCards (k : Core) (c : Ctx) : Core :=
  { k with cards := k.cards.map (fun (x : Card) => if x.of c then { x with slot := x.slot + 2 } else x) }

/-- POOL_HANDOVER (R284, R285, R287, R289): the current slot, waiting in `pick` or `susp`, takes the record that the pool
unit chooses, once what its last continuation left has performed; a record that was parked is restored, its counter at
0 again (R289). -/
def execPoolHandover (s : State) : Out :=
  if s.ctx.phase.isWaiting && s.ctx.mem.outs.isEmpty && s.ctx.mem.slog.isEmpty && s.ctx.mem.mq.isEmpty &&
      s.ctx.wait.crev.isNone && !s.poolShed then
    match s.curLaunch with
    | none => .next s
    | some l =>
      let cl := s.ctx.place.clord
      match s.choose l cl with
      | none => .next (s.endWaiting l)
      | some (slot, pos) =>
        let parked := l.pool.slots.any (fun x => x.slot == slot && x.parked)
        let c := s.createCtx l s.ctx.place slot
        if s.poolHeld l (64 * slot) 64 || (parked && s.frameHeld c.place.frame frameMax) then .next s else
        let s1 := s.poolWrite l (64 * slot + 4) [0]
        let s2 := s1.modPool l.id (fun p => { p with
          queue := p.queue.filter (fun k => k != slot), pos := setPos p.pos cl pos
          slots := p.slots.map (fun (x : PoolSlot) => if x.slot == slot then
            { x with counter := if x.parked then 0 else x.counter, parked := false } else x) })
        let s3 := { s2 with core := (s2.core.freshTiles s.ctx.place).orphanCards s.ctx }.withCtx { c with bubblesLeft := s.ctx.bubblesLeft }
        .next (if parked then s3.restoreFrame else s3)
  else .next s

end Sys2Proof.Machine
end

