-- ==== Sys2Proof/Machine/Perform.lean ====
section
/-! DEFINITION. Events of the memory system and of results: accesses performing, side-log replay, extents becoming
resident and moving, translate handles, results arriving, asynchronous faults, the end of a yield
(R24, R27, R105, R237 to R242, R259, R264, R325). -/

namespace Sys2Proof.Machine

open Sys2Proof

/-! ### Results and waits -/

/-- DUE_ENTRY_VISIBLE (R27, R28): the expired entries of the current context become visible, in issue order. -/
def execDueEntryVisible (s : State) : Out := .next ((s.testDue (fun e => e.rem == 0)).onCtx Ctx.landExpired)

/-- FULL_EMPTY_RESULT_ARRIVE (R24): the result in flight at place `k` fills its destination. -/
def execFullEmptyResultArrive (k : Nat) (s : State) : Out := .next (s.arrive k)

/-- YIELD_EXPIRE (R105): what is left of a wait ends when the other slot is empty; its cycles count down at the
context's turns (`settleWait`). -/
def execYieldExpire (s : State) : Out :=
  .next (if s.peerOccupied then s else s.onCtx (fun c => { c with wait := { c.wait with yield := 0 } }))

/-! ### Asynchronous faults (R325) -/

/-- The pending fault that the next boundary takes, with its place: in handler mode a fault of the program's accesses is
held. -/
def Ctx.nextFault (c : Ctx) : Option (Nat × PortFault) :=
  ((List.range c.ports.length).zip c.ports).find? (fun x => !c.handler || x.2.hand)

/-- Whether a context has ended (R239). -/
def Phase.isOver : Phase → Bool
  | .ended => true | .waiting => true | .frozen => false | .vacant => false | .running => false | .stopped => false

/-- ASYNC_FAULT_TAKEN (R239, R325): taken at a boundary as a trap that resumes at the next bundle; the fault of a context
that has ended goes to its launch as a fault of that context. -/
def execAsyncFaultTaken (s : State) : Out :=
  match s.ctx.nextFault with
  | none => .next s
  | some (k, f) =>
    let s1 := s.onCtx (fun c => { c with ports := c.ports.eraseIdx k })
    if s.ctx.phase.isRunning then .next (s1.takeTrap { f.info with raddr := s.ctx.pc })
    else if s.ctx.phase.isOver then
      let i := { f.info with raddr := s.ctx.pc }
      .next ((s1.onCtx (fun c => { c with st := { c.st with frec := frecBits i c.st.bundles } })).freeze)
    else .next s1

/-! ### Accesses (R259, R264) -/

/-- LOAD_PERFORM (R264): the outstanding load that holds load id `k`. -/
def execLoadPerform (k : Nat) (s : State) : Out :=
  match s.ctx.mem.outs.find? (fun x => x.id == some k && x.isLoad) with
  | some x => .next (s.performOut x)
  | none => .next s

/-- STORE_PERFORM (R259): the store or atomic at place `k` of the outstanding accesses. -/
def execStorePerform (k : Nat) (s : State) : Out :=
  match s.ctx.mem.outs[k]? with
  | some x => .next (if x.isLoad || x.isSpawn || x.isJoin || x.op.isFence then s else s.performOut x)
  | none => .next s

/-! ### The side log (R239) -/

/-- The pieces of a logged store written at their home. -/
def State.storeHome (s : State) (x : Access) (tag : Option Bool) : State :=
  x.pieces.foldl (fun s (p : Piece) =>
    match x.loc with
    | .loc _ => s.writePieces { x with pieces := [p] } tag
    | .mem map =>
      let s1 := s.homeReady map p.addr x.size
      (match tag with
       | some t => s1.memWriteCap map p.addr ⟨BitVec.ofNat 128 p.data, t⟩
       | none => s1.memWrite map p.addr (natToBytes x.size p.data))) s

/-- A logged access performs at its home with the scope and ordering it recorded (R239). -/
def State.replay (s : State) (x : Access) : State :=
  if (s.badPieces x).isEmpty then
    match x.op with
    | .store => (s.stain x).storeHome x none
    | .scap t => (s.stain x).storeHome x (some (s.scapTag x t))
    | .amo _ _ _ => s.perform x true
    | .cas _ _ => s.perform x true
    | .wsadd _ => s.perform x true
    | .spawn => s.perform x true
    | .join _ => s.perform x true
    | .load _ _ => s.perform x true
    | .vload _ => s.perform x true
    | .wload _ _ => s.perform x true
    | .lcap _ => s.perform x true
    | .fence _ => s.perform x true
  else s.performNow x true

/-- SIDE_LOG_REPLAY (R239): the oldest entry of the current context's log, in log order. -/
def execSideLogReplay (s : State) : Out :=
  match s.ctx.mem.slog with
  | [] => .next s
  | x :: _ =>
    if s.canPerform x then
      let s1 := s.onCtx (fun c => c.dropAccess x.seq)
      .next (if s.readsPoison x then s1.poisonFault x else s1.replay x)
    else .next s

/-! ### Extents (R237, R238, R241) -/

/-- Whether an extent is pinned by a handle of some context (R242). -/
def State.pinned (s : State) (map ext : Nat) : Bool :=
  s.allCtx.any (fun c => c.mem.pins.toList.any (fun p => p == some ⟨map, ext⟩))

/-- Whether an access touches an extent. -/
def Access.touches (x : Access) (map ext : Nat) : Bool :=
  x.loc == .mem map && x.pieces.any (fun (p : Piece) => (extentsOf p.addr x.size).contains ext)

/-- The buffer entries under which accesses, cards and translates of the machine wait for an extent. -/
def State.touchers (s : State) (map ext : Nat) : List BufEntry :=
  let ofCtx := fun (c : Ctx) =>
    ((c.mem.outs ++ c.mem.slog).filter (fun x => x.touches map ext)).filterMap (fun x => x.ent)
  let ofCards := fun (k : Core) =>
    (k.cards.flatMap Card.ranges).filterMap (fun (r : BufEntry × Nat × Nat) =>
      if !r.1.isLocal && r.1.extmap == map && (extentsOf r.2.1 r.2.2).contains ext then some r.1 else none)
  s.allCtx.flatMap ofCtx ++ (s.core :: s.cores).flatMap ofCards

/-- The entry under which something needs an extent: one that touches it, or the one of its buffer where a handle pins
it. -/
def State.needer (s : State) (map ext : Nat) : Option BufEntry :=
  match s.touchers map ext with
  | e :: _ => some e
  | [] => if s.pinned map ext then s.entryOfMap map else none

/-- EXTENT_FIRST_TOUCH (R237, R411): a frame is allocated at once, where one is free, for an absent extent that something
touches. -/
def execExtentFirstTouch (map ext : Nat) (s : State) : Out :=
  let absent : Bool := match s.extent map ext with
    | none => true
    | some e => e.state == .absent
  match s.needer map ext with
  | some e => .next (if absent then s.allocFrame e ext else s)
  | none => .next s

/-- EXTENT_RESIDENT (R238): the bytes of an extent in SCM or held remote have arrived in the frame allocated for it, which
holds zeros. -/
def execExtentResident (map ext : Nat) (s : State) : Out :=
  match s.extent map ext, s.allocated map ext with
  | some e, some f => .next (if f.clean && (e.state == .scm || e.state == .remote) then s.enterFrame f else s)
  | some _, none => .next s
  | none, _ => .next s

/-- Whether some access or log entry of the machine needs an extent resident (R241). -/
def State.logged (s : State) (map ext : Nat) : Bool :=
  s.allCtx.any (fun c => c.mem.slog.any (fun x => x.touches map ext))

/-- Extents that may be written out: resident, neither pinned nor logged (R241). -/
def State.movable (s : State) (e : Extent) : Bool :=
  e.state == .hbm && !s.pinned e.map e.ext && !s.logged e.map e.ext

/-- An extent in SCM or held remote starts to come in: a frame is allocated for it, where one is free (R238, R411). -/
def State.startIn (s : State) (e : Extent) : State :=
  match s.entryOfMap e.map with
  | none => s
  | some b =>
    let s1 := s.allocFrame b e.ext
    if (s1.allocated e.map e.ext).isSome then s1.modExtent e.map e.ext (fun x => { x with mig := true }) else s1

/-- EXTENT_MIGRATE (R2, R241): an extent in SCM or held remote starts to come in, or the resident extent with the lowest
counter that is neither pinned nor logged goes to a free frame of SCM. A VPM9-P has no SCM. The cost rule only decides when.
(DEDUCED, log 29.) -/
def execExtentMigrate (map ext : Nat) (inward : Bool) (s : State) : Out :=
  match s.extent map ext with
  | none => .next s
  | some e =>
    if inward then .next (if e.state == .scm || e.state == .remote then s.startIn e else s)
    else
      match s.code, s.freeInScm with
      | .vpm9p, _ => .next s
      | .vpm9mh, none => .next s
      | .vpm9mh, some f =>
        .next (if s.movable e && s.exts.all (fun x => !s.movable x || decide (e.counter ≤ x.counter)) then
          s.modExtent map ext (fun x => { x with state := .scm, mig := false, frame := f }) else s)

/-- ACCESS_COUNTER_HALVE (R241). -/
def execAccessCounterHalve (s : State) : Out :=
  .next { s with exts := s.exts.map (fun e => { e with counter := e.counter / 2 }) }

/-- XLAT_HANDLE_FILL (R242): the translate at place `k` fills its handle once its extent is resident. -/
def execXlatHandleFill (k : Nat) (s : State) : Out :=
  match s.ctx.mem.xlats[k]? with
  | none => .next s
  | some x =>
    if s.extentHolds x.pin.map x.pin.ext then .next s
    else .next (s.onCtx (fun c =>
      let c1 := { c with mem := { c.mem with xlats := c.mem.xlats.eraseIdx k } }
      c1.putReg (.handle x.handle x.value) x.taint))

end Sys2Proof.Machine
end

