-- ==== Sys2Proof/Machine/Revoke.lean ====
section
/-! DEFINITION. Revocation and the sparge sweep: table writes, completion of `crev`, stale tags, the places a sweep visits
(R339 to R345). -/

namespace Sys2Proof.Machine

open Sys2Proof

/-! ### Entries in every table (R200, R203) -/

/-- Change the entries of every space and of every cluster's table. -/
def Space.mapEntries (sp : Space) (f : Nat → Nat → BufEntry → BufEntry) : Space :=
  { sp with entries := sp.entries.map (fun (p : Nat × BufEntry) => (p.1, f sp.asid p.1 p.2)) }

def Cluster.mapTable (c : Cluster) (f : Nat → Nat → BufEntry → BufEntry) : Cluster :=
  { c with table := c.table.map (fun sp => sp.mapEntries f) }

def State.mapEntries (s : State) (f : Nat → Nat → BufEntry → BufEntry) : State :=
  { s with spaces := s.spaces.map (fun sp => sp.mapEntries f), clus := s.clus.mapTable f
           clusters := s.clusters.map (fun c => c.mapTable f) }

/-- Whether entry `j` of the space of ASID `b` is the buffer of entry `i` of that of `a` (R200, R203): a memory or code buffer
shows in several spaces, with one owner and one extent map; a local buffer is its own space's. -/
def BufEntry.same (e : BufEntry) (a i : Nat) (f : BufEntry) (b j : Nat) : Bool :=
  if e.isLocal then a == b && i == j else e.owner == f.owner && e.kind == f.kind && e.extmap == f.extmap

/-! ### The start of a sweep (R341) -/

/-- A sweep starts, unless one is active: SGEN records the GEN of every entry of every space. -/
def State.startSweep (s : State) : State :=
  if s.sweep.active then s
  else { s with sweep := { s.sweep with
    active := true, paused := []
    sgen := s.spaces.flatMap (fun sp => sp.entries.map (fun (p : Nat × BufEntry) => ((sp.asid, p.1), p.2.gen))) } }

/-- Whether an entry's generations call for a sweep (R341). -/
def BufEntry.wantsSweep (e : BufEntry) : Bool := decide (3584 ≤ (e.gen + 4096 - e.gfloor) % 4096)

/-- SWEEP_START (R341): some entry has used up its generations, or `crev` waits for GFLOOR (Step asks for it). -/
def execSweepStart (s : State) : Out :=
  .next (if s.spaces.any (fun sp => sp.entries.any (fun (p : Nat × BufEntry) =>
      p.2.valid && (p.2.wantsSweep || (p.2.gen + 1) % 4096 == p.2.gfloor))) then s.startSweep else s)

/-- SWEEP_REQUEST (R341): the physical function asks for a sweep. -/
def execSweepRequest (s : State) : Out := .next s.startSweep

/-! ### Places in a context (R343) -/

def JobCard.mapCap (f : CapV → CapV) (j : JobCard) : JobCard := { j with src := f j.src, dst := f j.dst }

/-- The data of an outstanding or logged `scap`. -/
def Access.mapCap (f : CapV → CapV) (x : Access) : Access :=
  match x.op with
  | .scap t => { x with op := .scap (f ⟨BitVec.ofNat 128 x.data1, t⟩).tag }
  | .load _ _ => x | .vload _ => x | .wload _ _ => x | .lcap _ => x | .store => x | .amo _ _ _ => x | .cas _ _ => x
  | .wsadd _ => x | .spawn => x | .join _ => x | .fence _ => x

def CardKind.mapCap (f : CapV → CapV) : CardKind → CardKind
  | .mcast t ds => .mcast t (ds.map (fun (d : CapV × BufEntry) => (f d.1, d.2)))
  | .copy t => .copy t
  | .fill => .fill
  | .coll g o k st r => .coll g o k st r

/-- Card copies in the dependency table. -/
def Card.mapCaps (f : CapV → CapV) (k : Card) : Card := { k with card := k.card.mapCap f, kind := k.kind.mapCap f }

/-- Every place of a context in which a capability sits, its saved cards among them. -/
def Ctx.mapCaps (c : Ctx) (f : CapV → CapV) : Ctx :=
  { c with
    a := { c.a with c := vmap (fun (e : FE CapV) => { e with val := f e.val }) c.a.c
                    latch := { c.a.latch with val := f c.a.latch.val } }
    k := { c.k with kc := vmap (fun (e : TV CapV) => { e with val := f e.val }) c.k.kc
                    kj := vmap (fun (e : TV JobCard) => { e with val := e.val.mapCap f }) c.k.kj
                    latch := { c.k.latch with val := f c.k.latch.val } }
    due := c.due.map (fun (e : DueEntry) => { e with writes := e.writes.map (RegWrite.mapCap f) })
    mem := { c.mem with outs := c.mem.outs.map (Access.mapCap f), slog := c.mem.slog.map (Access.mapCap f)
                        pend := c.mem.pend.map (fun x => { x with write := x.write.mapCap f }) }
    place := { c.place with frame := f c.place.frame }
    saved := c.saved.map (fun v => { v with cards := v.cards.map (Card.mapCaps f) }) }

/-- Whether a register, kj slot or latch of a context holds a tagged capability of an index (R340). -/
def Ctx.holdsIndex (c : Ctx) (i : Nat) : Bool :=
  let hit := fun (v : CapV) => v.tag && v.index == i
  c.a.c.toList.any (fun (e : FE CapV) => hit e.val) || hit c.a.latch.val ||
  c.k.kc.toList.any (fun (e : TV CapV) => hit e.val) || hit c.k.latch.val ||
  c.k.kj.toList.any (fun (e : TV JobCard) => hit e.val.src || hit e.val.dst)

/-! ### `crev` (R339, R340) -/

/-- The buffers that a card names, with the capabilities that name them. -/
def Card.named (c : Card) : List (CapV × BufEntry) :=
  (c.card.src, c.srcEnt) ::
  (match c.kind with
   | .mcast _ ds => ds
   | .copy _ => c.dstEnt.toList.map (fun e => (c.card.dst, e))
   | .fill => []
   | .coll _ _ _ _ _ => c.dstEnt.toList.map (fun e => (c.card.dst, e)))

/-- Whether a card of any context, a saved one too, names buffer `i` of an ASID's space under a generation (R339). -/
def State.cardsName (s : State) (asid i : Nat) (e : BufEntry) (g : Nat) : Bool :=
  ((s.core :: s.cores).flatMap (fun (k : Core) => k.cards) ++
    s.allCtx.flatMap (fun (c : Ctx) => (c.saved.map (fun (v : Saved) => v.cards)).getD [])).any (fun (c : Card) =>
    c.named.any (fun (r : CapV × BufEntry) => r.1.gen == g &&
      e.same asid i r.2 (((s.launchOf c.launch).map (fun l => l.lrec.asid)).getD asid) r.1.index))

/-- The new generation in every table of every space that holds buffer `i` of an ASID's space (R339). -/
def State.writeGen (s : State) (asid i : Nat) (e : BufEntry) (g : Nat) : State :=
  s.mapEntries (fun a j x => if e.same asid i x a j then { x with gen := g } else x)

/-- d63 in the contexts of the spaces holding the entry that have a tagged capability of its index, as the cycle ends
(R340). -/
def State.notifyRevoked (s : State) (asid i : Nat) (e : BufEntry) : State :=
  s.mapCtx (fun c => c.phase != .vacant && ((s.spaceOf c.place.asid).entries.any (fun (p : Nat × BufEntry) =>
      e.same asid i p.2 c.place.asid p.1 && c.holdsIndex p.1)))
    (fun c => c.setDone 63)

/-- The `crev` under way is over. -/
def Ctx.endCrev (c : Ctx) : Ctx := { c with wait := { c.wait with crev := none } }

/-- CREV_COMPLETE (R339, R340): first, once the accesses and cards before it have performed, the release and the table
writes; then, once no card names the old generation, the capability under the new generation is delivered, the
context proceeds, and d63 is set in the holders. (DEDUCED, log 27.) -/
def execCrevComplete (s : State) : Out :=
  match s.ctx.wait.crev with
  | none => .next s
  | some w =>
    match s.table.entry w.index with
    | none => .next (s.onCtx (fun c => c.endCrev))
    | some e =>
      match w.step with
      | none =>
        let g := (e.gen + 1) % 4096
        if g = e.gfloor then .next s.startSweep
        else if s.released (some .pk) s.ctx.mem.aseq then
          let s1 := (s.writeBackAll.writeGen s.table.asid w.index e g).onCtx (fun c =>
            { c with wait := { c.wait with crev := some { w with step := some g } } })
          .next (if { e with gen := g }.wantsSweep then s1.startSweep else s1)
        else .next s
      | some g =>
        if s.cardsName s.table.asid w.index e ((g + 4095) % 4096) then .next s
        else
          let v := s.enter s.ctx.place.asid (w.cap.withGen g)
          let s1 := s.note (.revoked s.table.asid w.index e)
          .next (s1.onCtx (fun c => (c.landEntry ⟨0, c.handler, [.cap w.d v], w.taint, 0⟩).endCrev))

/-! ### The visits (R341 to R345) -/

/-- A capability that a visit of a space finds: a stale one loses its tag. -/
def State.visit (s : State) (asid : Nat) (v : CapV) : CapV :=
  if staleIn (s.spaceOf asid) v then { v with tag := false } else v

/-- SWEEP_CORE_PAUSE (R344): the current core's contexts and dependency table. -/
def execSweepCorePause (s : State) : Out :=
  if s.sweep.active then
    let k := s.core
    let s1 := s.mapCtx (fun c => c.place.cluster == k.cluster && c.place.core == k.num && c.phase != .stopped)
      (fun c => c.mapCaps (s.visit c.place.asid))
    let asidOf := fun (c : Card) => ((s.launchOf c.launch).map (fun (l : Launch) => l.lrec.asid)).getD 0
    .next { s1 with
      core := { k with cards := k.cards.map (fun (c : Card) => c.mapCaps (s.visit (asidOf c))) }
      sweep := { s.sweep with paused := s.sweep.paused ++ [(k.cluster, k.num)] } }
  else .next s

/-- The space of the granules of a buffer (R341): that of its owner. -/
def State.ownerOf (s : State) (map : Nat) : Option Nat := (s.entryOfMap map).map (fun e => e.owner)

/-- The tags of a line after a visit. -/
def State.visitLine (s : State) (x : Line) : Line :=
  match s.ownerOf x.map with
  | none => x
  | some o =>
    { x with tags := (List.range 12).map (fun g =>
        (s.visit o ⟨BitVec.ofNat 128 (bytesToNat ((x.bytes.drop (16 * g)).take 16)), (x.tags[g]?).getD false⟩).tag) }

/-- Whether a granule at home is stale, by its key. -/
def State.staleKey (s : State) (k : Nat) : Bool :=
  match s.ownerOf (k * 16 / 2 ^ 40) with
  | none => false
  | some o => staleIn (s.spaceOf o) (s.memReadCap (k * 16 / 2 ^ 40) (k * 16 % 2 ^ 40))

/-- Whether a granule of a core's array is stale: its space is the ASID that owns the bank. -/
def State.staleLa (s : State) (k : Core) (g : Nat) : Bool :=
  match vget k.bankAsid (16 * g / bankBytes) none with
  | none => false
  | some a => staleIn (s.spaceOf a) (k.laReadCap (16 * g))

/-- The contexts whose saved state lies in a range of a buffer. -/
def State.savedIn (s : State) (c : Ctx) (map lo n : Nat) : Bool :=
  c.phase == .stopped &&
  (match s.launchOf c.place.launch with
   | none => false
   | some l =>
     match s.saveEntry l with
     | none => false
     | some e => e.extmap == map && rangesMeet lo n (saveBase c.place) 1048576)

/-- Whether the 3 KiB of a tag-summary bit hold a set tag. -/
def State.summaryHolds (s : State) (b : Nat × Nat) : Bool :=
  s.memTags.any (fun g => s.summaryBit (16 * g / 2 ^ 40) (16 * g % 2 ^ 40) == some b)

/-- The tag-summary bits of a range whose 3 KiB hold no set tag are cleared (R345). -/
def State.clearSummary (s : State) (map lo n : Nat) : State :=
  let seen := (List.range (n / summaryBytes + 2)).filterMap (fun i =>
    if lo + i * summaryBytes < lo + n + summaryBytes then s.summaryBit map (min (lo + i * summaryBytes) (lo + n - 1)) else none)
  { s with tagSum := s.tagSum.filter (fun b => !seen.contains b || s.summaryHolds b) }

/-- SWEEP_VISIT (R343): one place outside the core pause. Saved contexts are visited with the memory they lie in. -/
def execSweepVisit (p : SweepPlace) (s : State) : Out :=
  if s.sweep.active then
    match p with
    | .granules map lo n =>
      let s1 := { s with memTags := s.memTags.filter (fun k =>
        !(rangesMeet (memKey map lo) n (16 * k) 16 && s.staleKey k)) }
      .next ((s1.clearSummary map lo n).mapCtx (fun c => s.savedIn c map lo n) (fun c => c.mapCaps (s.visit c.place.asid)))
    | .line map n =>
      let f := fun (x : Line) => if x.map == map && x.line == n then s.visitLine x else x
      .next ((s.onClus (fun c => { c with lines := c.lines.map f })).mapCores
        (fun k => { k with l1 := k.l1.map f }))
    | .bank core b =>
      .next (s.modCore core (fun k => { k with laTags := k.laTags.filter (fun g =>
        !(16 * g / bankBytes == b && s.staleLa k g)) }))
  else .next s

/-- Whether a capability is stale for a visit. -/
def State.staleCtx (s : State) (c : Ctx) : Bool := c.mapCaps (s.visit c.place.asid) != c

/-- A place of memory, saved contexts among it, that holds a stale tag. -/
def State.homeVisit (s : State) : Option SweepPlace :=
  match s.memTags.find? s.staleKey with
  | some k => some (.granules (k * 16 / 2 ^ 40) (k * 16 % 2 ^ 40) 16)
  | none =>
    match s.allCtx.find? (fun c => c.phase == .stopped && s.staleCtx c) with
    | none => none
    | some c =>
      match s.launchOf c.place.launch with
      | none => none
      | some l => (s.saveEntry l).map (fun e => .granules e.extmap (saveBase c.place) 1048576)

/-- A place of the current core and its cluster, outside the core pause, that holds a stale tag. -/
def State.coreVisit (s : State) : Option SweepPlace :=
  match (s.clus.lines ++ s.core.l1).find? (fun x => s.visitLine x != x) with
  | some x => some (.line x.map x.line)
  | none => (s.core.laTags.find? (s.staleLa s.core)).map (fun g => .bank s.core.num (16 * g / bankBytes))

/-- Whether the whole walk has been done (R343): every core paused once, and no stale tag left outside the contexts. A
context's own registers are visited in the pause only: what a `crev` makes stale behind it does not hold the sweep open
(R345). (DEDUCED, log 28.) -/
def State.sweepDone (s : State) : Bool :=
  (s.core :: s.cores).all (fun (k : Core) => s.sweep.paused.contains (k.cluster, k.num)) &&
  s.homeVisit.isNone &&
  (s.clus :: s.clusters).all (fun (c : Cluster) => c.lines.all (fun x => s.visitLine x == x)) &&
  (s.core :: s.cores).all (fun (k : Core) => k.l1.all (fun x => s.visitLine x == x) && !k.laTags.any (s.staleLa k))

/-- SWEEP_COMPLETE (R345): every entry's GFLOOR takes its SGEN, SEQ steps, ACTIVE clears, and the tag-summary bits of 3 KiB
without a tag clear, in one action. -/
def execSweepComplete (s : State) : Out :=
  if s.sweep.active && s.sweepDone then
    let s1 := s.mapEntries (fun a i e =>
      match s.sweep.sgen.find? (fun (x : (Nat × Nat) × Nat) => x.1 == (a, i)) with
      | some x => { e with gfloor := x.2 }
      | none => e)
    .next { s1 with
      tagSum := s.tagSum.filter s.summaryHolds
      sweep := { active := false, sgen := [], seq := s.sweep.seq + 1, paused := [] } }
  else .next s

end Sys2Proof.Machine
end

