-- ==== Sys2Proof/Machine/Stream.lean ====
section
/-! DEFINITION. Command streams: registers, records, completion entries, the launch journal, WAIT, SIGNAL and FENCE
(R301 to R306, R322, R403, R404). -/

namespace Sys2Proof.Machine

open Sys2Proof

/-! ### Streams by number -/

def State.streamOf (s : State) (n : Nat) : Stream := (s.streams.find? (fun x => x.num == n)).getD (Stream.blank n)

/-- Change stream `n`, one of 64 (R301). -/
def State.modStream (s : State) (n : Nat) (f : Stream → Stream) : State :=
  if n < 64 then
    { s with streams := s.streams.filter (fun x => x.num != n) ++ [f (s.streamOf n)] }
  else s

/-- Change partition `n`, one of 64 (R346). -/
def State.modPart (s : State) (n : Nat) (f : Part → Part) : State :=
  if n < 64 then { s with parts := s.parts.filter (fun x => x.num != n) ++ [f (s.partOf n)] } else s

/-- Launches and graphs of a stream that have not ended. -/
def State.streamBusy (s : State) (n : Nat) : Bool :=
  s.launches.any (fun (l : Launch) => l.stream == n) || s.graphs.any (fun (g : Graph) => g.stream == n)

/-- Whether a launch has been stopped; it waits at the head of its stream (R332). -/
def LState.isStopped : LState → Bool
  | .stopped _ => true | .running => false | .aborting _ _ => false

/-- Such a launch blocks the records of its stream, but for records of a level above its own (R332). -/
def State.streamBack (s : State) (n : Nat) : Bool :=
  s.launches.any (fun (l : Launch) => l.stream == n && l.state.isStopped && decide ((s.streamOf n).level ≤ l.level))

/-- cmd.state (R301): halted stays until the host restarts the stream; else running while it has a launch or graph, even
beside a WAIT that stands; then waiting for a WAIT; else idle, also where a record waits for its rectangle. (DESIGN CHOICE,
log 124.) -/
def State.settleStream (s : State) (n : Nat) : State :=
  s.modStream n (fun st =>
    { st with state := if st.state = 3 then 3 else if s.streamBusy n then 1 else if st.waiting then 2 else 0 })

/-- A stream halts on a stream error: the record is taken (R303). -/
def State.haltStream (s : State) (n : Nat) : State :=
  s.modStream n (fun st =>
    { st with state := 3, waiting := false, begun := none, head := (st.head + 1) % 2 ^ st.size })

/-- The record at the head is done with. -/
def State.advance (s : State) (n : Nat) : State :=
  (s.modStream n (fun st => { st with waiting := false, begun := none, head := (st.head + 1) % 2 ^ st.size })).settleStream n

/-! ### The registers of a stream -/

/-- cmd.ctl of a stream (R301). -/
def Stream.ctl (st : Stream) : Nat :=
  (if st.enable then 1 else 0) + st.size * 2 ^ 4 + st.level * 2 ^ 8 + st.weight * 2 ^ 12

/-- A register of a stream at an offset (R301). -/
def Stream.readReg (st : Stream) (off : Nat) : Nat :=
  match off with
  | 0x00 => st.base
  | 0x08 => st.ctl
  | 0x10 => st.tail
  | 0x18 => st.head
  | 0x20 => st.cqbase
  | 0x28 => st.cqtail
  | 0x30 => st.state
  | _ => 0

/-! ### Records (R303, R304) -/

/-- The field of `n` bytes at byte `o` of a record. -/
def recBytes (r o n : Nat) : Nat := natField r (8 * o) (8 * n)

/-- Whether every byte range (first byte, bytes) of a record is zero. -/
def bytesZero (r : Nat) (l : List (Nat × Nat)) : Bool := l.all (fun (x : Nat × Nat) => recBytes r x.1 x.2 == 0)

/-- The fields of a LAUNCH record (R304). -/
def launchRec (r : Nat) : LaunchRec :=
  { anchor := natBit r 8, meld := natBit r 9, preempt := natBit r 10, asid := recBytes r 2 2, rows := recBytes r 4 1,
    cols := recBytes r 5 1, row0 := recBytes r 6 1, col0 := recBytes r 7 1, cores := recBytes r 8 1,
    image := recBytes r 10 2, pool := recBytes r 12 2, poolsz := recBytes r 14 2, frame := recBytes r 16 2,
    save := recBytes r 18 2, framesz := recBytes r 20 4, arg := recBytes r 24 2, argPerms := recBytes r 26 1,
    argCur := recBytes r 32 5, argBase := recBytes r 40 5, argLen := recBytes r 48 5,
    s1 := BitVec.ofNat 64 (recBytes r 56 8), hang := recBytes r 64 4, wall := recBytes r 68 4,
    timeout := recBytes r 72 4, tag := BitVec.ofNat 64 (recBytes r 80 8) }

/-- Whether the reserved fields of a LAUNCH record are zero. -/
def launchRecOk (r : Nat) : Bool :=
  natField r 11 5 == 0 &&
  bytesZero r [(9, 1), (27, 5), (37, 3), (45, 3), (53, 3), (76, 4), (88, 40)]

/-- A record of a stream, by its TYPE. -/
inductive Cmd where
  | launch (r : LaunchRec)
  | graph (asid image patch : Nat) (tag : W64)
  | wait (asid buf off value : Nat)
  | signal (add : Bool) (asid buf off value : Nat)
  | fence
  | bad
deriving DecidableEq, Repr

/-- A record read; `bad` for another TYPE or a nonzero reserved field (R303), and for a SIGNAL whose OP is neither 0 nor 1.
(DESIGN CHOICE, log 125.) -/
def parseCmd (r : Nat) : Cmd :=
  match recBytes r 0 1 with
  | 1 => if launchRecOk r then .launch (launchRec r) else .bad
  | 2 =>
    if bytesZero r [(1, 1), (8, 72), (88, 40)] then
      .graph (recBytes r 2 2) (recBytes r 4 2) (recBytes r 6 2) (BitVec.ofNat 64 (recBytes r 80 8))
    else .bad
  | 3 =>
    if bytesZero r [(1, 1), (6, 2), (24, 104)] then
      .wait (recBytes r 2 2) (recBytes r 4 2) (recBytes r 8 8) (recBytes r 16 8)
    else .bad
  | 4 =>
    if bytesZero r [(6, 2), (24, 104)] && decide (recBytes r 1 1 ≤ 1) then
      .signal (natBit r 8) (recBytes r 2 2) (recBytes r 4 2) (recBytes r 8 8) (recBytes r 16 8)
    else .bad
  | 5 => if bytesZero r [(1, 127)] then .fence else .bad
  | _ => .bad

/-- Whether a live update stops the streams: for 50 ms from the start of its hand-over at most (R417). -/
def State.updateStops (s : State) : Bool :=
  match s.mgmt.fwNew with
  | some (_, t) => decide (s.ticks < t + 5000000)
  | none => false

/-- Whether a partition's TDI lets its stream run: not in CONFIG_LOCKED (R348), and with no key sealed for a migration
(R359). -/
def State.tdiOpen (s : State) (n : Nat) : Bool :=
  (s.partOf n).tdi != .locked && !s.keys.any (fun (k : KeyRec) => k.st == .sealed n)

/-- The record that the engine may take from a stream (R301): one to fetch, the stream enabled and not empty, or the LAUNCH
whose sequence has begun, after a restart also before the host enables the stream (R399); not halted, the module on, no
live update in its stop (R417), no launch of the stream that waits to resume before it, no WAIT standing, its TDI open. -/
def State.headRecord (s : State) (n : Nat) : Option Nat :=
  let st := s.streamOf n
  if st.state != 3 && !st.waiting && !s.updateStops && s.power.phase == .on && !s.streamBack n && s.tdiOpen n then
    match st.begun with
    | some b => if st.enable || st.restored then some b.2 else none
    | none =>
      if st.enable && st.head != st.tail % 2 ^ st.size then
        some (bytesToNat (Memory.read s.hostMem (st.base + 128 * st.head) 128))
      else none
  else none

def State.headCmd (s : State) (n : Nat) : Option Cmd := (s.headRecord n).map parseCmd

/-! ### Completion entries (R306, R322) -/

/-- An entry written at cmd.cqtail, or owed after a restart until the host enables the stream (R399). Indices count modulo
2^SIZE (R301). (DEDUCED, log 38.) -/
def State.putEntry (s : State) (n : Nat) (bs : List Byte) : State :=
  let st := s.streamOf n
  if st.restored then s.modStream n (fun st => { st with owed := st.owed ++ [⟨bs, none⟩] })
  else
    { s with hostMem := Memory.write s.hostMem (st.cqbase + 16 * st.cqtail) bs }.modStream n
      (fun st => { st with cqtail := (st.cqtail + 1) % 2 ^ st.size })

/-- The bytes of a completion entry. -/
def completionEntry (tag : W64) (status cause ticks : Nat) : List Byte :=
  natToBytes 16 (tag.toNat + status * 2 ^ 64 + cause * 2 ^ 72 + min ticks (2 ^ 32 - 1) * 2 ^ 96)

/-- The bytes of a parked-record entry (R322). -/
def parkedEntry (slot pc : Nat) : List Byte :=
  natToBytes 16 (slot + pc % 2 ^ 32 * 2 ^ 32 + 1 * 2 ^ 64 + 0x13 * 2 ^ 72 + 1 * 2 ^ 80)

/-! ### The launch journal (R403, R404) -/

def journalSize : Nat := 1048576

/-- The number of the next entry. -/
def State.ljNext (s : State) : Nat :=
  match s.ljournal.getLast? with
  | some e => e.index + 1
  | none => 0

/-- Whether some entry closes a BEGIN entry. -/
def State.ljClosed (s : State) (i : Nat) : Bool :=
  s.ljournal.any (fun (e : LJEntry) => e.type != 1 && e.begins == i)

/-- The BEGIN entries that no entry closes yet. -/
def State.ljOpen (s : State) : List LJEntry :=
  s.ljournal.filter (fun (e : LJEntry) => e.type == 1 && !s.ljClosed e.index)

/-- Whether the ring holds a free entry for a BEGIN: past it, room is left up to the oldest open BEGIN entry for the entries
that will close those open, so that none is overwritten before. A VPM9-P has no launch journal and waits for none (R1).
(DEDUCED, log 119.) -/
def State.ljFree (s : State) : Bool :=
  s.code == .vpm9p ||
  (match s.ljOpen with
   | e :: r => decide (s.ljNext - e.index + r.length + 3 ≤ journalSize)
   | [] => true)

/-- One bit of a CRC-32, least significant first. (PRESUMED, log 113.) -/
def crcBit (c : Nat) : Nat := if c % 2 = 1 then (c / 2) ^^^ 0xEDB88320 else c / 2

/-- The CRC-32 of a list of bytes. -/
def crc32 (bs : List Byte) : Nat :=
  (bs.foldl (fun c b => (List.range 8).foldl (fun c _ => crcBit c) (c ^^^ b.toNat)) 0xFFFFFFFF) ^^^ 0xFFFFFFFF

/-- Bytes 27:0 of an entry (R403). -/
def LJEntry.body (e : LJEntry) : List Byte :=
  natToBytes 28 (e.type + e.stream * 2 ^ 8 + e.asid * 2 ^ 16 + e.tag.toNat * 2 ^ 64 + e.ticks * 2 ^ 128 +
    e.status * 2 ^ 192 + e.cause * 2 ^ 200)

/-- Append an entry with its CHECK, on a module; a full ring overwrites its oldest one. -/
def State.ljPut (s : State) (type stream asid : Nat) (tag : W64) (status cause begins : Nat) : State :=
  let e : LJEntry := { type := type, stream := stream, asid := asid, tag := tag, ticks := s.ticks, status := status,
                       cause := cause, check := 0, index := s.ljNext, begins := begins }
  if s.code = .vpm9p then s
  else { s with ljournal := (if s.ljournal.length < journalSize then s.ljournal else s.ljournal.drop 1) ++
    [{ e with check := crc32 e.body }] }

/-- BEGIN entries without an END or REPORTED entry that no launch, graph or stream of the machine carries: those a restart on
the unsealed path reports as FAILED with CAUSE 0x14 (R404). -/
def State.lostBegins (s : State) : List LJEntry :=
  s.ljOpen.filter (fun (e : LJEntry) =>
    !s.launches.any (fun (l : Launch) => l.journal == e.index) && !s.graphs.any (fun (g : Graph) => g.journal == e.index) &&
    !s.streams.any (fun (st : Stream) => st.begun.any (fun b => b.1 == e.index)))

/-- One failure report: its completion entry and its REPORTED entry. -/
def State.reportLost (s : State) (e : LJEntry) : State :=
  (s.putEntry e.stream (completionEntry e.tag 1 0x14 0)).ljPut 3 e.stream e.asid e.tag 0 0 e.index

/-- The completion entry of a record, and, once it is written, its END entry in the journal (R403). -/
def State.complete (s : State) (stream asid : Nat) (tag : W64) (status cause ticks begins : Nat) : State :=
  let bs := completionEntry tag status cause ticks
  if (s.streamOf stream).restored then
    s.modStream stream (fun st => { st with owed := st.owed ++ [⟨bs, some (asid, tag, status, cause, begins)⟩] })
  else (s.putEntry stream bs).ljPut 2 stream asid tag status cause begins

/-- An owed entry is written, then its END entry. -/
def State.payOwed (s : State) (n : Nat) (o : Owed) : State :=
  match o.fin with
  | some (asid, tag, status, cause, begins) => (s.putEntry n o.bytes).ljPut 2 n asid tag status cause begins
  | none => s.putEntry n o.bytes

/-! ### Writes of the stream registers (R301) -/

/-- Whether the host ports accept requests (R386). -/
def State.hostOpen (s : State) : Bool := s.power.phase == .on

/-- CMD_TAIL_WRITE (R301): the doorbell. -/
def execCmdTailWrite (n : Nat) (v : W64) (s : State) : Out :=
  .next (if s.hostOpen then s.modStream n (fun st => { st with tail := v.toNat % 2 ^ 32 }) else s)

/-- What enabling a stream does: a halted stream starts again, a SIZE below 4 halts it (R301, R303); entries owed since a
restart and failure reports of the unsealed path come first (R399, R404). (DEDUCED, log 37.) -/
def State.enableStream (s : State) (n : Nat) : State :=
  let owed := (s.streamOf n).owed
  let s1 := s.modStream n (fun st =>
    { st with enable := true, restored := false, owed := [], state := if st.size < 4 then 3 else 0 })
  let s2 := owed.foldl (fun s o => s.payOwed n o) s1
  let s3 := (s2.lostBegins.filter (fun (e : LJEntry) => e.stream == n)).foldl State.reportLost s2
  s3.settleStream n

/-- The plain effect of a write of cmd.ctl; its reserved fields take nothing (R10). A stream of a TDI in CONFIG_LOCKED is
not enabled (R348). (DEDUCED, log 39.) -/
def State.ctlWrite (s : State) (n : Nat) (v : Nat) : State :=
  let was := (s.streamOf n).enable
  let s1 := s.modStream n (fun st =>
    { st with size := natField v 4 4, level := natField v 8 2, weight := max 1 (natField v 12 4) })
  if natBit v 0 then
    if was || (s.partOf n).tdi == .locked then s1 else s1.enableStream n
  else s1.modStream n (fun st => { st with enable := false })

/-! ### WAIT, SIGNAL, FENCE (R303) -/

/-- The buffer of a sync word, or none where the record halts its stream. -/
def State.syncEntry (s : State) (n asid buf off : Nat) : Option BufEntry :=
  if (s.partOf n).asids.contains asid then
    match (s.spaceOf asid).entry buf with
    | some e =>
      if e.kind == .memory && off % 8 == 0 && decide (off + 8 ≤ e.length) then some e else none
    | none => none
  else none

/-- The sync word at its home. -/
def State.syncWord (s : State) (e : BufEntry) (off : Nat) : Nat := bytesToNat (s.memRead e.extmap off 8)

/-- A WAIT record is taken: it ends at once when its word is at least VALUE, or waits. -/
def State.takeWait (s : State) (n asid buf off value : Nat) : State :=
  match s.syncEntry n asid buf off with
  | none => s.haltStream n
  | some e =>
    if !s.engineHeld e off 8 && decide (value ≤ s.syncWord e off) then s.advance n
    else (s.modStream n (fun st => { st with waiting := true })).settleStream n

/-- Whether a SIGNAL record may be taken: every earlier record of the stream has ended; a bad one is taken then too. -/
def State.signalReady (s : State) (n asid buf off : Nat) : Bool :=
  !s.streamBusy n &&
  (match s.syncEntry n asid buf off with
   | none => true
   | some e => !s.engineHeld e off 8)

/-- A SIGNAL record is taken: the word is written or added to at its home, as a release at SY; the launches before it have
released their writes at their ends. -/
def State.takeSignal (s : State) (n : Nat) (add : Bool) (asid buf off value : Nat) : State :=
  match s.syncEntry n asid buf off with
  | none => s.haltStream n
  | some e =>
    let s1 := (s.touchExtent e (off / extentBytes)).homeReady e.extmap off 8
    let v := if add then s1.syncWord e off + value else value
    (s1.memWrite e.extmap off (natToBytes 8 v)).advance n

/-- The record that stands at the head of a stream whose WAIT has been taken. -/
def State.waitingCmd (s : State) (n : Nat) : Option Cmd :=
  let st := s.streamOf n
  if st.waiting && s.power.phase == .on then
    some (parseCmd (bytesToNat (Memory.read s.hostMem (st.base + 128 * st.head) 128)))
  else none

/-- Whether a standing WAIT ends now, or halts its stream. -/
def State.waitDone (s : State) (n : Nat) : Bool :=
  match s.waitingCmd n with
  | some (.wait asid buf off value) =>
    (match s.syncEntry n asid buf off with
     | none => true
     | some e => !s.engineHeld e off 8 && decide (value ≤ s.syncWord e off))
  | some .bad => false
  | some (.launch _) => false
  | some (.graph _ _ _ _) => false
  | some (.signal _ _ _ _ _) => false
  | some .fence => false
  | none => false

/-- WAIT_RECHECK (R303): the word is read again after a write to its line; the record ends when it is at least VALUE. -/
def execWaitRecheck (n : Nat) (s : State) : Out :=
  match s.waitingCmd n with
  | some (.wait asid buf off value) => .next (if s.waitDone n then s.takeWait n asid buf off value else s)
  | some .bad => .next s
  | some (.launch _) => .next s
  | some (.graph _ _ _ _) => .next s
  | some (.signal _ _ _ _ _) => .next s
  | some .fence => .next s
  | none => .next s

end Sys2Proof.Machine
end

