-- ==== Sys2Proof/Machine/Image.lean ====
section
/-! DEFINITION. Kernel images: header, plan, buffer list, signed segment header, their checks, and the verified-image
cache (R74, R75, R222, R223, R307, R313, R356). -/

namespace Sys2Proof.Machine

open Sys2Proof

/-! ### Reading an image (R307, R356) -/

/-- The number of `n` bytes at offset `o` of a buffer, at home. -/
def State.homeNum (s : State) (map o n : Nat) : Nat := bytesToNat (s.memRead map o n)

/-- A plan entry, sizes and offsets in units of 48 bytes. -/
def planEntry (x : Nat) : PlanEntry :=
  { bank := natField x 0 4, bank2 := natField x 4 4, off := recBytes x 2 2, bind := recBytes x 4 2,
    size := recBytes x 6 2, first := recBytes x 8 4, last := recBytes x 12 4 }

/-- A buffer-list entry. -/
def bufListEntry (x : Nat) : BufListEntry :=
  { index := recBytes x 0 2, rights := recBytes x 2 1, cls := if natBit x 27 then some (natField x 24 3) else none }

/-- The first and the last byte of a plan region in the local array. -/
def PlanEntry.lo (e : PlanEntry) : Nat := bankBytes * e.bank + 48 * e.off
def PlanEntry.bytes (e : PlanEntry) : Nat := 48 * e.size

/-- The banks that a region touches. -/
def PlanEntry.banks (e : PlanEntry) : BitVec 16 :=
  (List.range 16).foldl (fun m b =>
    if rangesMeet e.lo e.bytes (b * bankBytes) bankBytes then m ||| BitVec.ofNat 16 (2 ^ b) else m) 0

/-- The banks that a context of an image owns: every bank that a region of its plan touches (R222). -/
def ImageInfo.own (i : ImageInfo) : BitVec 16 := i.plan.foldl (fun m e => m ||| e.banks) 0

/-- The L1 banks: the k highest-numbered ones (R218). -/
def l1Mask (k : Nat) : BitVec 16 := BitVec.ofNat 16 ((2 ^ k - 1) * 2 ^ (16 - k))

/-- What an image's header, tables and segment header say, and the wrapped block key. -/
structure ImageParts where
  header : Nat
  seg : Nat
  info : ImageInfo
  signer : Nat
  wkey : Nat
  signature : Nat
  blkOff : Nat
  segOff : Nat
  size : Nat
deriving DecidableEq, Repr

/-- The bytes of an image end where the last of its parts ends. -/
def imageSize (nplan planOff nbuf bufOff segOff nblocks blkOff : Nat) : Nat :=
  max (max (max 64 (planOff + 16 * nplan)) (bufOff + 4 * nbuf)) (max (segOff + 576) (blkOff + 1024 * nblocks))

/-- The parts of the image at offset 0 of a buffer, before any check. -/
def State.readImage (s : State) (map : Nat) : ImageParts :=
  let h := s.homeNum map 0 64
  let nplan := recBytes h 18 2
  let nbuf := recBytes h 20 2
  let planOff := recBytes h 32 8
  let bufOff := recBytes h 40 8
  let segOff := recBytes h 48 8
  let blkOff := recBytes h 56 8
  let g := s.homeNum map segOff 576
  let handler := recBytes h 12 4
  { header := h, seg := g, signer := recBytes g 6 1, wkey := recBytes g 16 40, signature := recBytes g 64 512,
    blkOff := blkOff, segOff := segOff
    size := imageSize nplan planOff nbuf bufOff segOff (recBytes h 24 4) blkOff
    info :=
      { entry := recBytes h 8 4, handler := if handler = 0xFFFFFFFF then none else some handler
        l1 := recBytes h 16 1, ztiles := recBytes h 17 1, gunits := recBytes h 22 2, nblocks := recBytes h 24 4,
        segMap := map, segBase := blkOff, segKey := 0, segNonce := BitVec.ofNat 64 (recBytes g 8 8),
        banks := BitVec.ofNat 16 (recBytes g 56 2), l1max := recBytes g 7 1
        plan := (List.range nplan).map (fun k => planEntry (s.homeNum map (planOff + 16 * k) 16))
        bufs := (List.range (min nbuf 4096)).map (fun k => bufListEntry (s.homeNum map (bufOff + 4 * k) 4)) } }

/-- The checks of the kernel header (R307). -/
def headerOk (h : Nat) : Bool :=
  recBytes h 0 4 == 0x4B564B31 && recBytes h 4 2 == 1 && recBytes h 6 2 == 0 && recBytes h 28 4 == 0 &&
  decide (recBytes h 16 1 ≤ 8) && decide (recBytes h 17 1 ≤ 32) && decide (recBytes h 20 2 ≤ 4096) &&
  recBytes h 22 2 % 128 == 0 && decide (recBytes h 22 2 ≤ 8192) && recBytes h 32 8 % 16 == 0 &&
  recBytes h 40 8 % 4 == 0 && recBytes h 56 8 % 1024 == 0

/-- The checks of the segment header (R356). -/
def segHeaderOk (g : Nat) : Bool :=
  recBytes g 0 4 == 0x4B564831 && recBytes g 4 2 == 1 && decide (recBytes g 6 1 ≤ 3) && decide (recBytes g 7 1 ≤ 8) &&
  recBytes g 58 6 == 0

/-- The checks of the image that need no key: headers, the bound BANKS on the plan, L1 within L1MAX, every part within
the buffer (R307, R356). The tables are looked at only once the headers and the size hold. -/
def ImageParts.shapeOk (p : ImageParts) (length : Nat) : Bool :=
  headerOk p.header && segHeaderOk p.seg && decide (p.size ≤ length) && decide (p.info.l1 ≤ p.info.l1max) &&
  p.info.own &&& ~~~p.info.banks == 0

/-- The digest of R307: every byte of the image but the signature. (DEDUCED, log 35.) -/
def State.imageDigest (s : State) (map : Nat) (p : ImageParts) : Nat :=
  Config.sha512 ((s.memRead map 0 (p.segOff + 64)).map BitVec.toNat ++
    (s.memRead map (p.segOff + 576) (p.size - (p.segOff + 576))).map BitVec.toNat)

/-- The digest that the verified-image cache is looked up by: of the image header and the segment header (R313). -/
def ImageParts.cacheKey (p : ImageParts) : Nat := Config.sha512 [p.header, p.seg]

/-! ### Verification (R313) -/

/-- A partition's entry of the cache for an image, at the partition's current generation. -/
def State.verifiedHit (s : State) (part : Part) (p : ImageParts) : Bool :=
  s.verified.any (fun (v : Verified) =>
    v.digest == p.cacheKey && v.part == part.num && v.signer == p.signer && v.mgen == part.mgen.toNat)

/-- The signature of an image under the partition's key of slot SIGNER. -/
def State.signatureOk (s : State) (part : Part) (map : Nat) (p : ImageParts) : Bool :=
  Config.sigOk (vget part.keys p.signer 0) (s.imageDigest map p) p.signature

/-- The cache after a launch has used an image: its entry becomes the most recently used; the least recently used one of
256 makes room for a new one. -/
def State.touchVerified (s : State) (part : Part) (p : ImageParts) : State :=
  let v : Verified := { digest := p.cacheKey, signer := p.signer, part := part.num, mgen := part.mgen.toNat }
  { s with verified := (v :: s.verified.filter (fun x => x != v)).take 256 }

/-- The image of a launch where it verifies (R309 step 2). -/
def State.checkImage (s : State) (part : Part) (e : BufEntry) : Option ImageParts :=
  let p := s.readImage e.extmap
  if p.shapeOk e.length && (s.verifiedHit part p || s.signatureOk part e.extmap p) then some p else none

/-- The image of a launch: its parts with the block key unwrapped, or the cause of its refusal (R309 steps 2 and 3).
A partition never locked has image-wrapping key index 0, the device's own (R357). (DESIGN CHOICE, log 132.) -/
def State.openImage (s : State) (part : Part) (e : BufEntry) : Except Nat ImageParts :=
  match s.checkImage part e with
  | some p =>
    (match (s.keySerial part.wrapKey).bind (fun z => Config.unwrap z p.wkey) with
     | some k => .ok { p with info := { p.info with segKey := k } }
     | none => .error 3)
  | none => .error 3

/-! ### The plan (R223) -/

/-- Whether two regions share a byte and their live ranges a bundle number. -/
def PlanEntry.clash (x y : PlanEntry) : Bool :=
  rangesMeet x.lo x.bytes y.lo y.bytes && decide (x.first ≤ y.last) && decide (y.first ≤ x.last)

/-- A test of every pair of a list. -/
def anyPair {α : Type} (p : α → α → Bool) : List α → Bool
  | [] => false
  | x :: r => r.any (p x) || anyPair p r

/-- Whether a region's bound buffer is the local buffer that R222 asks for. -/
def PlanEntry.boundOk (e : PlanEntry) (sp : Space) : Bool :=
  e.bind == 0xFFFF ||
  (match sp.entry e.bind with
   | some b => b.kind == .local && b.home == 15 && b.loff == 1024 * e.bank + e.off && b.length == e.bytes
   | none => false)

/-- Rows 1 to 3 of R223 hold for a plan. -/
def ImageInfo.planOk (i : ImageInfo) (sp : Space) : Bool :=
  (i.own &&& l1Mask i.l1 == 0) && !anyPair PlanEntry.clash i.plan && i.plan.all (fun e => e.boundOk sp)

end Sys2Proof.Machine
end

