-- ==== Sys2Proof/Machine/Claim.lean ====
section
/-! DEFINITION. The claim of a rectangle of clusters: mesh positions, free clusters, the search, pre-emption's victims
(R223 row 4, R310 to R316, R318, R332, R336, R419). -/

namespace Sys2Proof.Machine

open Sys2Proof

/-! ### Cores and clusters that need not be the current ones -/

/-- A core or cluster by key, blank when not listed. -/
def State.findCore (s : State) (cl n : Nat) : Core :=
  ((s.core :: s.cores).find? (fun (k : Core) => k.cluster == cl && k.num == n)).getD (Core.blank cl n)
def State.findCluster (s : State) (n : Nat) : Cluster :=
  ((s.clus :: s.clusters).find? (fun (k : Cluster) => k.num == n)).getD (Cluster.blank n)

/-- Make a core and its cluster the current ones. -/
def State.focus (s : State) (cl n : Nat) : State :=
  let k := s.findCore cl n
  let c := s.findCluster cl
  { s with
    core := k
    cores := (s.core :: s.cores).filter (fun (x : Core) => !(x.cluster == cl && x.num == n))
    clus := c
    clusters := (s.clus :: s.clusters).filter (fun (x : Cluster) => x.num != cl) }

/-- An operation with core `n` of cluster `cl` as the current one; the current core and cluster are the same after it. -/
def State.atCore (s : State) (cl n : Nat) (f : State → State) : State :=
  (f (s.focus cl n)).focus s.core.cluster s.core.num

/-- Change one core or one cluster, listed or not. -/
def State.putCore (s : State) (cl n : Nat) (f : Core → Core) : State :=
  s.atCore cl n (fun s => { s with core := f s.core })
def State.putCluster (s : State) (cl : Nat) (f : Cluster → Cluster) : State :=
  s.atCore cl 0 (fun s => { s with clus := f s.clus })

/-! ### The mesh (R310, R406, R419) -/

/-- Clusters are numbered row by row in the 12 × 16 mesh. -/
def meshCluster (row col : Nat) : Nat := 16 * row + col
/-- The voltage region of a cluster (R406). -/
def clusterRegion (n : Nat) : Nat := 6 * clusterStack n + n / 16 % 6

/-- The clusters of a rectangle in order of their ordinals (R314). -/
def rectClusters (row col rows cols : Nat) : List Nat :=
  (List.range rows).flatMap (fun i => (List.range cols).map (fun j => meshCluster (row + i) (col + j)))

/-! ### Who holds what -/

def Phase.isStopped : Phase → Bool
  | .stopped => true | .vacant => false | .running => false | .waiting => false | .ended => false | .frozen => false

/-- Whether two contexts are the one of a position of a launch. -/
def Ctx.sameAs (c d : Ctx) : Bool :=
  c.place.launch == d.place.launch && c.place.clord == d.place.clord && c.place.core == d.place.core &&
  c.place.slot == d.place.slot

/-- The contexts of a launch. -/
def State.ctxOf (s : State) (id : Nat) : List Ctx :=
  s.allCtx.filter (fun c => c.place.launch == id && c.phase != .vacant)

/-- Whether a launch holds its clusters: it has not been stopped whole, or some context of it is yet to be saved, or a card
of a context that has ended is yet to complete; one whose abort began after that holds none. (DEDUCED, log 63.) -/
def State.holdsClusters (s : State) (l : Launch) : Bool :=
  if l.state.isStopped then
    (s.ctxOf l.id).any (fun c => !c.phase.isStopped) ||
      (s.core :: s.cores).any (fun (k : Core) => k.cards.any (fun (c : Card) => c.launch == l.id))
  else !l.clusters.isEmpty

/-- The launches that hold a cluster, but for those in `skip`. -/
def State.holders (s : State) (skip : List Nat) (cl : Nat) : List Launch :=
  s.launches.filter (fun (l : Launch) => l.clusters.contains cl && !skip.contains l.id && s.holdsClusters l)

/-- Contexts that have a slot of a core: resident ones, and those that a shed stopped in place (R397). -/
def State.residents (s : State) (skip : List Nat) (cl n : Nat) : List Ctx :=
  s.allCtx.filter (fun c => c.place.cluster == cl && c.place.core == n && c.phase != .vacant &&
    !skip.contains c.place.launch &&
    (match s.launchOf c.place.launch with
     | some l => s.holdsClusters l
     | none => true))

/-- The slot a new context takes: slot 0 when it is free, else slot 1 (R314). -/
def freeSlotOf (l : List Ctx) : Option Nat :=
  if !l.any (fun c => c.place.slot == 0) then some 0
  else if !l.any (fun c => c.place.slot == 1) then some 1
  else none

/-! ### What placement gives a slot (R159, R161, R218) -/

def slotTiles (slot z : Nat) : BitVec 32 :=
  if slot = 0 then BitVec.ofNat 32 (2 ^ z - 1) else BitVec.ofNat 32 ((2 ^ z - 1) * 2 ^ (32 - z))
def slotGrist (slot units : Nat) : Nat × Nat := if slot = 0 then (0, units) else (8192 - units, 8192)

/-- A place for a context of an image: everything that placement fixes but where it stands. -/
def ImageInfo.placeFor (i : ImageInfo) (slot : Nat) : Place :=
  { Place.zero with
    slot := slot, zown := slotTiles slot i.ztiles, gLo := (slotGrist slot i.gunits).1, gHi := (slotGrist slot i.gunits).2
    l1 := l1Mask i.l1, own := i.own, sbanks := i.banks, sl1max := i.l1max }

/-- Row 4 of R223: a context on the core whose L1 size differs, or whose banks, tiles or window meet. -/
def Place.conflicts (p q : Place) : Bool :=
  p.slot == q.slot || p.l1 != q.l1 || p.own &&& q.own != 0 || p.zown &&& q.zown != 0 ||
  (decide (p.gLo < p.gHi) && decide (q.gLo < q.gHi) && decide (p.gLo < q.gHi) && decide (q.gLo < p.gHi))

/-! ### Free clusters and the search (R310) -/

/-- Whether a cluster is assigned to a stream's partition and world, and healthy. -/
def State.clusterMine (s : State) (part cl : Nat) : Bool :=
  let c := s.findCluster cl
  c.part == part && c.world == (s.partOf part).tdi.secure && c.healthy

/-- Whether every launch that holds a cluster lets a launch of an ASID with a MELD flag in. -/
def State.meldsWith (s : State) (skip : List Nat) (asid : Nat) (meld : Bool) (cl : Nat) : Bool :=
  (s.holders skip cl).all (fun (h : Launch) => h.lrec.asid == asid && h.lrec.meld && meld)

/-- Whether a cluster is free for a new launch. -/
def State.clusterFree (s : State) (skip : List Nat) (r : LaunchRec) (i : ImageInfo) (cl : Nat) : Bool :=
  !(s.findCluster cl).shed && s.meldsWith skip r.asid r.meld cl &&
  (setBits 8 r.cores).all (fun n =>
    let l := s.residents skip cl n
    match freeSlotOf l with
    | none => false
    | some slot => l.all (fun c => !(i.placeFor slot).conflicts c.place))

/-- The corners that a record's search tries: its anchor, or every corner in row-major order. -/
def LaunchRec.corners (r : LaunchRec) : List (Nat × Nat) :=
  if r.anchor then [(r.row0, r.col0)]
  else (List.range (13 - r.rows)).flatMap (fun i => (List.range (17 - r.cols)).map (fun j => (i, j)))

/-- The first corner whose rectangle fits. -/
def State.claim (s : State) (skip : List Nat) (part : Nat) (r : LaunchRec) (i : ImageInfo) : Option (Nat × Nat) :=
  r.corners.find? (fun (p : Nat × Nat) =>
    (rectClusters p.1 p.2 r.rows r.cols).all (fun cl => s.clusterMine part cl && s.clusterFree skip r i cl))

/-- Whether a rectangle could ever fit in the partition's assigned and healthy clusters. -/
def State.claimable (s : State) (part : Nat) (r : LaunchRec) : Bool :=
  r.corners.any (fun (p : Nat × Nat) => (rectClusters p.1 p.2 r.rows r.cols).all (fun cl => s.clusterMine part cl))

/-! ### A stopped launch's rectangle (R332, R336) -/

/-- The saved contexts of a launch. -/
def State.stoppedOf (s : State) (id : Nat) : List Ctx :=
  s.allCtx.filter (fun c => c.place.launch == id && c.phase.isStopped)

/-- Whether every saved context finds its core, slot, tiles, banks and window free in a rectangle. -/
def State.resumeFits (s : State) (l : Launch) (cls : List Nat) : Bool :=
  cls.all (fun cl => s.clusterMine l.stream cl && !(s.findCluster cl).shed &&
    s.meldsWith [l.id] l.lrec.asid l.lrec.meld cl) &&
  (s.stoppedOf l.id).all (fun c =>
    match cls[c.place.clord]? with
    | none => false
    | some cl => (s.residents [l.id] cl c.place.core).all (fun d => !c.place.conflicts d.place))

/-- The corners a stopped launch tries: its anchor, or its old corner and then every corner. -/
def Launch.resumeCorners (l : Launch) : List (Nat × Nat) :=
  if l.lrec.anchor then l.lrec.corners else (l.row, l.col) :: l.lrec.corners

def State.resumeClaim (s : State) (l : Launch) : Option (Nat × Nat) :=
  l.resumeCorners.find? (fun (p : Nat × Nat) => s.resumeFits l (rectClusters p.1 p.2 l.lrec.rows l.lrec.cols))

/-! ### Pre-emption (R332) -/

def LState.isRunning : LState → Bool
  | .running => true | .stopped _ => false | .aborting _ _ => false

/-- A list without the greatest element under a key, and that element. -/
def takeBest (key : Launch → Nat × Nat) : List Launch → Option Launch
  | [] => none
  | l :: r =>
    match takeBest key r with
    | none => some l
    | some m => if (key l).1 < (key m).1 ∨ ((key l).1 = (key m).1 ∧ (key m).2 < (key l).2) then some l else some m

/-- Launches in the order of stopping: lowest level first, within a level the most recently started first. -/
def stopOrder : Nat → List Launch → List Launch
  | 0, _ => []
  | fuel + 1, l =>
    match takeBest (fun (x : Launch) => (x.level, x.seq)) l with
    | none => []
    | some x => x :: stopOrder fuel (l.filter (fun (y : Launch) => y.id != x.id))

/-- The launches that a LAUNCH of a level may stop, in order: running under PREEMPT, of the same partition, of a lower
level. A launch has the level that its stream had when it started, since a partition has one stream. -/
def State.stoppable (s : State) (part level : Nat) : List Launch :=
  let l := s.launches.filter (fun (x : Launch) =>
    x.lrec.preempt && x.state.isRunning && x.stream == part && decide (x.level < level) &&
    (s.ctxOf x.id).any (fun c => c.phase == .running || c.phase == .waiting))
  stopOrder l.length l

/-- Launches of a partition that are being stopped. -/
def State.stopping (s : State) (part : Nat) : List Nat :=
  (s.launches.filter (fun (x : Launch) => x.stream == part && x.state.isStopped)).map (fun x => x.id)

/-- The shortest run of stoppable launches that, with those already being stopped, makes the rectangle fit. -/
def State.victims (s : State) (part level : Nat) (r : LaunchRec) (i : ImageInfo) : Option (List Nat) :=
  let l := (s.stoppable part level).map (fun (x : Launch) => x.id)
  ((List.range l.length).map (fun k => l.take (k + 1))).find? (fun ids => (s.claim (ids ++ s.stopping part) part r i).isSome)

end Sys2Proof.Machine
end

