-- ==== Sys2Proof/Machine/Launch.lean ====
section
/-! DEFINITION. The launch engine: arbitration over streams, the launch sequence, initial contexts, graphs, the end of a
launch, its limits and its abort (R301 to R322, R338). -/

namespace Sys2Proof.Machine

open Sys2Proof

/-! ### The checks of the launch sequence (R305, R309, R334) -/

/-- The number of initial records. -/
def LaunchRec.initial (r : LaunchRec) : Nat := r.rows * r.cols * r.coreCount

/-- The range checks of R305: the cause of a refusal, or 0. -/
def LaunchRec.rangeCause (r : LaunchRec) : Nat :=
  if r.rows = 0 ∨ r.cols = 0 ∨ 12 < r.rows ∨ 16 < r.cols then 1
  else if r.anchor && decide (12 < r.row0 + r.rows ∨ 16 < r.col0 + r.cols) then 1
  else if r.cores = 0 ∨ r.poolsz = 0 ∨ r.framesz % 16 ≠ 0 ∨ 2 ^ 40 < r.argBase + r.argLen then 5
  else if 2 ^ 40 < r.framesz * r.initial then 5
  else 0

/-- A memory buffer of at least a length. -/
def Space.memOfLength (sp : Space) (index n : Nat) : Bool :=
  match sp.entry index with
  | some e => e.kind == .memory && decide (n ≤ e.length)
  | none => false

/-- The checks of step 5: indices, POOL, FRAME and SAVE (0x02), then the plan and the count of initial records (0x04). -/
def State.stepFive (s : State) (r : LaunchRec) (i : ImageInfo) : Nat :=
  let sp := s.spaceOf r.asid
  let list := i.bufs.map (fun (b : BufListEntry) => b.index)
  let named := r.image :: r.pool :: r.arg :: (if r.framesz = 0 then [] else [r.frame]) ++ list
  if !named.all (fun k => (sp.entry k).isSome) ||
      !sp.memOfLength r.pool (64 * (r.poolsz + 2 * r.initial)) ||
      (r.framesz != 0 && !sp.memOfLength r.frame (r.framesz * r.initial)) ||
      !sp.memOfLength r.save (16777216 * r.rows * r.cols) || named.contains r.save then 2
  else if !i.planOk sp || decide (r.poolsz < r.initial) then 4
  else 0

/-- What the launch sequence finds for a record. -/
inductive Plan where
  | refuse (cause : Nat)
  | wait
  | stop (ids : List Nat)
  | start (p : ImageParts) (row col : Nat)

/-- Whether the initial records can be written at their homes: none is shed, and their extents find frames (R3, R394). -/
def State.recordsReach (s : State) (r : LaunchRec) : Bool :=
  match (s.spaceOf r.asid).entry r.pool with
  | some e => !s.engineHeld e 0 (64 * r.initial) && s.roomFor e 0 (64 * r.initial)
  | none => true

/-- The launch sequence up to step 5 for a record of a stream (R309, R310, R332); what it reads or writes at a home out of
reach waits (R369, R394). -/
def State.planLaunch (s : State) (n level : Nat) (r : LaunchRec) : Plan :=
  if r.rangeCause ≠ 0 then .refuse r.rangeCause
  else if !(s.partOf n).asids.contains r.asid then .refuse 2
  else
    match (s.spaceOf r.asid).entry r.image with
    | none => .refuse 2
    | some e =>
      if e.kind != .code then .refuse 2
      else if s.engineHeld e 0 e.length then .wait
      else
        match s.openImage (s.partOf n) e with
        | .error c => .refuse c
        | .ok p =>
          if !s.claimable n r then .refuse 1
          else
            match s.claim [] n r p.info with
            | some (row, col) =>
              let c := s.stepFive r p.info
              if c ≠ 0 then .refuse c else if s.recordsReach r then .start p row col else .wait
            | none =>
              if (s.claim (s.stopping n) n r p.info).isSome then .wait
              else
                match s.victims n level r p.info with
                | some ids => .stop ids
                | none => .wait

/-- Whether a partition's keys are LIVE: not held wrapped after a restart (R399), nor sealed for a migration (R359). -/
def State.keysOpen (s : State) (n : Nat) : Bool :=
  (s.partOf n).held.isNone && !s.keys.any (fun (k : KeyRec) => k.st == .sealed n)

/-- The launches of a restart that have not come back, in launch-table order, which claim before one that follows them (R399
step 7): those of `l` whose keys are LIVE and whose rectangle is free. -/
def State.claimsFirst (s : State) (l : List Nat) : Bool :=
  l.any (fun id => s.launches.any (fun (x : Launch) =>
    x.id == id && x.state.isStopped && s.keysOpen x.stream && (s.resumeClaim x).isSome))

/-- Whether a launch sequence of a restart waits for launches before it in the launch table. -/
def State.restartFirst (s : State) (n : Nat) : Bool :=
  (s.streamOf n).begun.any (fun b => s.power.seqs.contains (n, b.1)) && s.claimsFirst s.power.pending

/-- What the launch sequence finds for the LAUNCH at the head of a stream: one that has not begun waits for an entry of the
launch journal (R403). -/
def State.planHead (s : State) (n : Nat) (r : LaunchRec) : Plan :=
  if ((s.streamOf n).begun.isNone && !s.ljFree) || s.restartFirst n then .wait
  else s.planLaunch n (s.streamOf n).level r

/-- Step 1 of the launch sequence of the record at the head of a stream: its BEGIN entry (R403). -/
def State.beginSeq (s : State) (n asid : Nat) (tag : W64) (bits : Nat) : State :=
  match (s.streamOf n).begun with
  | some _ => s
  | none => (s.ljPut 1 n asid tag 0 0 0).modStream n (fun st => { st with begun := some (s.ljNext, bits) })

/-- The BEGIN entry of the record at the head of a stream. -/
def State.beginOf (s : State) (n : Nat) : Nat := ((s.streamOf n).begun.map (·.1)).getD 0

/-- The verified-image cache once a record of a stream has passed step 2: its image is the most recently used (R313). -/
def State.touchRecord (s : State) (n : Nat) (r : LaunchRec) : State :=
  if r.rangeCause == 0 && (s.partOf n).asids.contains r.asid then
    match ((s.spaceOf r.asid).entry r.image).bind (fun e =>
      if e.kind == .code && !s.engineHeld e 0 e.length then s.checkImage (s.partOf n) e else none) with
    | some p => s.touchVerified (s.partOf n) p
    | none => s
  else s

/-- The launch sequence of the LAUNCH at the head of a stream begins, where its record may (R403), and goes as far as it
can. -/
def State.beginWaiting (s : State) (n : Nat) (r : LaunchRec) : State :=
  if ((s.streamOf n).begun.isNone && !s.ljFree) || s.restartFirst n then s
  else (s.beginSeq n r.asid r.tag ((s.headRecord n).getD 0)).touchRecord n r

/-- The same for the LAUNCH at the head of a stream that waits to claim its rectangle. -/
def State.touchWaiting (s : State) (n : Nat) : State :=
  match s.headCmd n with
  | some (.launch r) =>
    (match s.planHead n r with
     | .wait => s.beginWaiting n r
     | .stop _ => s.beginWaiting n r
     | .refuse _ => s
     | .start _ _ _ => s)
  | some (.graph _ _ _ _) => s
  | some (.wait _ _ _ _) => s
  | some (.signal _ _ _ _ _) => s
  | some .fence => s
  | some .bad => s
  | none => s

/-- Whether the images that a GRAPH record names can be read at their homes (R369, R394). -/
def State.graphReach (s : State) (asid image patch : Nat) : Bool :=
  [image, patch].all (fun k =>
    match (s.spaceOf asid).entry k with
    | some e => !s.engineHeld e 0 e.length
    | none => true)

/-! ### Arbitration (R302) -/

/-- Whether the head record of a stream is ready to start. -/
def State.ready (s : State) (n : Nat) : Bool :=
  match s.headCmd n with
  | none => false
  | some .bad => true
  | some .fence => !s.streamBusy n
  | some (.wait _ _ _ _) => true
  | some (.signal _ asid buf off _) => s.signalReady n asid buf off
  | some (.graph a i p _) => s.ljFree && s.graphReach a i p
  | some (.launch r) =>
    match s.planHead n r with
    | .refuse _ => true
    | .start _ _ _ => true
    | .wait => false
    | .stop _ => false

/-- The streams whose head record is ready. -/
def State.readyStreams (s : State) : List Stream := s.streams.filter (fun (st : Stream) => s.ready st.num)

/-- Whether no stream of a level above has a record ready. -/
def State.noHigher (s : State) (level : Nat) : Bool :=
  s.readyStreams.all (fun (st : Stream) => decide (st.level ≤ level))

/-- Whether the engine serves stream `n` now: it is ready, no higher level is, and it has credit left in the round of its
level or no ready stream of the level has. (DEDUCED, log 36.) -/
def State.mayServe (s : State) (n : Nat) : Bool :=
  let st := s.streamOf n
  s.ready n && s.noHigher st.level &&
  (st.credit != 0 || s.readyStreams.all (fun (x : Stream) => x.level != st.level || x.credit == 0))

/-- A service of stream `n`: a new round begins when the level has no credit left; one credit is used. -/
def State.serve (s : State) (n : Nat) : State :=
  let st := s.streamOf n
  let s1 := if st.credit = 0 then
      { s with streams := s.streams.map (fun (x : Stream) => if x.level == st.level then { x with credit := x.weight } else x) }
    else s
  s1.modStream n (fun x => { x with credit := x.credit - 1 })

/-! ### Starting a launch (R309 steps 5 to 7, R314, R315) -/

/-- A core made ready for a context: tiles and banks that last belonged to another ASID are zeroed (R161, R221), its tiles
full with empty taint sets (R20), no filled copy of the segment. Its grist regions are `State.prepareCore`'s. (DEDUCED,
log 117.) -/
def Core.prepare (k : Core) (p : Place) : Core :=
  let tiles := (setBits 32 p.zown.toNat).foldl (fun (v : Vector Tile 32) z =>
    vmod v z (fun (t : Tile) =>
      { val := if t.asid = some p.asid then t.val else 0, full := true, taint := 0, asid := some p.asid })) k.tiles
  let other := (setBits 16 p.own.toNat).filter (fun b => vget k.bankAsid b none != some p.asid)
  { k with
    tiles := tiles
    la := k.la.filter (fun (x : Host.Cell) => !other.contains (x.1 / bankBytes))
    laTags := k.laTags.filter (fun g => !other.contains (16 * g / bankBytes))
    bankAsid := (setBits 16 p.own.toNat).foldl (fun v b => vset v b (some p.asid)) k.bankAsid
    istore := k.istore.filter (fun b => !(b.map == p.segMap && b.base == p.segBase))
    mLast := 0 }

/-- The current core made ready for a context: the regions of its window that another ASID holds are taken too (R159).
(DEDUCED, log 117.) -/
def State.prepareCore (s : State) (p : Place) : State :=
  p.regions.foldl (fun s r => s.giveRegion p.asid r) { s with core := s.core.prepare p }

/-- The capability over one buffer-list entry (R315). -/
def listCap (sp : Space) (b : BufListEntry) : CapV :=
  match sp.entry b.index with
  | some e => launchCap b.index e.gen b.rights 0 e.length 0
  | none => CapV.null

/-- The FRAME capability of initial record `k`. -/
def LaunchRec.frameCap (r : LaunchRec) (sp : Space) (k : Nat) : CapV :=
  match sp.entry r.frame with
  | some e =>
    if r.framesz = 0 then CapV.null
    else
      let (x, lo, hi) := roundBounds (k * r.framesz) ((k + 1) * r.framesz)
      mkCap r.frame e.gen (pR + pW + pLC + pSC) x lo hi (lo * 2 ^ x) true
  | none => CapV.null

/-- The ARG capability. -/
def LaunchRec.argCap (r : LaunchRec) (sp : Space) : CapV :=
  match sp.entry r.arg with
  | some e => launchCap r.arg e.gen r.argPerms r.argBase (r.argBase + r.argLen) r.argCur
  | none => CapV.null

/-- The 64 bytes of initial record `k` of cluster ordinal `c`, but for its capabilities. -/
def initialRecord (entry k c : Nat) (s1 : W64) : List Byte :=
  natToBytes 64 (entry % 2 ^ 32 + 3 * 2 ^ 40 + 0xFFFF * 2 ^ 48 + 2 ^ (c % 64) * 2 ^ 64 + k * 2 ^ 384 + s1.toNat * 2 ^ 448)

/-- Initial record `k` of a launch and its context, in the first free slot of its core, secondary beside another context, with
its first code block filled (R309 step 7, R314 to R316). -/
def State.placeInitial (s : State) (id : Nat) (k : Nat) : State :=
  match s.launchOf id with
  | none => s
  | some l =>
    let cores := setBits 8 l.lrec.cores
    let c := k / cores.length
    let n := (cores[k % cores.length]?).getD 0
    let cl := (l.clusters[c]?).getD 0
    let sp := s.spaceOf l.lrec.asid
    let s0 := s.enterRecord l k (initialRecord l.img.entry k c l.lrec.s1) (l.lrec.frameCap sp k) (l.lrec.argCap sp)
    s0.atCore cl n (fun s =>
      let beside := s.residents [] cl n
      let p := { l.img.placeFor ((freeSlotOf beside).getD 0) with
        cluster := cl, core := n, prim := !beside.any (fun c => c.phase.occupied), launch := id, asid := l.lrec.asid, poolsz := l.lrec.poolsz
        clord := c, image := l.lrec.image, segMap := l.img.segMap, segBase := l.img.segBase
        segBlocks := l.img.nblocks, segKey := l.img.segKey, handler := l.img.handler }
      let x := (s.launchOf id).map (fun l => s.createCtx l p k)
      let caps := (l.img.bufs.take 16).map (listCap sp)
      let y := x.map (fun c0 => (caps.zip (List.range caps.length)).foldl (fun (c : Ctx) (v : CapV × Nat) =>
        c.init (.kc (BitVec.ofNat 4 v.2) v.1)) c0)
      let t := s.prepareCore p
      ({ t with others := t.others ++ y.toList }.fillBlock p (l.img.entry / 1024)).1)

/-- The RACK update of step 5 (R200, R388). -/
def State.rackUpdate (s : State) (asid : Nat) (bufs : List BufListEntry) : State :=
  bufs.foldl (fun s (b : BufListEntry) =>
    match b.cls with
    | none => s
    | some k => s.mapEntries (fun a i e => if a == asid && i == b.index then { e with rack := min e.rack k } else e)) s

/-- The space of an ASID loaded and locked in the table of every claimed cluster (R200). -/
def State.lockTables (s : State) (asid : Nat) (cls : List Nat) : State :=
  cls.foldl (fun s cl => s.putCluster cl (fun c => { c with table := some (s.spaceOf asid) })) s

/-- Steps 5 to 7 of a launch at a claimed corner: RACK, tables, records and contexts. (DEDUCED, log 32.) -/
def State.startLaunch (s : State) (n : Nat) (node : Option (Nat × Nat)) (r : LaunchRec) (p : ImageParts) (row col journal : Nat) :
    State :=
  let cls := rectClusters row col r.rows r.cols
  let e := ((s.spaceOf r.asid).entry r.pool).getD default
  let l : Launch :=
    { id := s.nextId, stream := n, seq := s.nextId, level := (s.streamOf n).level, node := node, lrec := r, img := p.info
      row := row, col := col, clusters := cls
      pool := { map := e.extmap, index := r.pool, gen := e.gen, size := r.poolsz, slots := [], queue := [], pos := [] }
      bars := Vector.replicate 4 Barrier.zero, clBars := [], state := .running, first := none, journal := journal
      stained := [] }
  let s1 := (s.rackUpdate r.asid p.info.bufs).lockTables r.asid cls
  (List.range r.initial).foldl (fun s k => s.placeInitial l.id k)
    { s1 with launches := s1.launches ++ [l], nextId := s1.nextId + 1 }

/-! ### LAUNCH -/

/-- A LAUNCH or GRAPH record refused: its BEGIN and END entries and its completion entry. -/
def State.refuseRecord (s : State) (n asid : Nat) (tag : W64) (cause : Nat) : State :=
  let s1 := s.beginSeq n asid tag 0
  s1.complete n asid tag 2 cause 0 (s1.beginOf n)

/-- LAUNCH (R303, R309): the engine takes the LAUNCH record at the head of a stream, or halts the stream on a bad one.
(DEDUCED, log 31.) -/
def execLaunch (n : Nat) (s : State) : Out :=
  match s.headRecord n with
  | none => .next s
  | some r =>
    if recBytes r 0 1 ∈ [2, 3, 4, 5] then .next s
    else if !s.mayServe n then .next (s.touchWaiting n)
    else
      match parseCmd r with
      | .launch l =>
        let s1 := ((s.serve n).beginSeq n l.asid l.tag r).touchRecord n l
        (match s.planHead n l with
         | .refuse c => .next ((s1.refuseRecord n l.asid l.tag c).advance n)
         | .start p row col => .next ((s1.startLaunch n none l p row col (s1.beginOf n)).advance n)
         | .wait => .next s
         | .stop _ => .next s)
      | .bad => .next ((s.serve n).haltStream n)
      | .graph _ _ _ _ => .next s
      | .wait _ _ _ _ => .next s
      | .signal _ _ _ _ _ => .next s
      | .fence => .next s

/-- The record at the head of a stream, of a TYPE, which the engine takes: `f` acts on it, and a bad one halts the
stream. -/
def takeRecord (n type : Nat) (f : Cmd → State → State) (s : State) : Out :=
  match s.headRecord n with
  | none => .next s
  | some r =>
    if recBytes r 0 1 = type ∧ s.mayServe n then
      .next (match parseCmd r with
        | .bad => (s.serve n).haltStream n
        | .launch l => f (.launch l) (s.serve n)
        | .graph a i p t => f (.graph a i p t) (s.serve n)
        | .wait a b o v => f (.wait a b o v) (s.serve n)
        | .signal x a b o v => f (.signal x a b o v) (s.serve n)
        | .fence => f .fence (s.serve n))
    else .next s

/-- WAIT (R303). -/
def execWaitRecord (n : Nat) (s : State) : Out :=
  takeRecord n 3 (fun c t =>
    match c with
    | .wait a b o v => t.takeWait n a b o v
    | .launch _ => t | .graph _ _ _ _ => t | .signal _ _ _ _ _ => t | .fence => t | .bad => t) s

/-- SIGNAL (R303). -/
def execSignal (n : Nat) (s : State) : Out :=
  takeRecord n 4 (fun c t =>
    match c with
    | .signal x a b o v => t.takeSignal n x a b o v
    | .launch _ => t | .graph _ _ _ _ => t | .wait _ _ _ _ => t | .fence => t | .bad => t) s

/-- FENCE (R303): the next record starts once every earlier record of the stream has ended. -/
def execFenceRecord (n : Nat) (s : State) : Out :=
  takeRecord n 5 (fun c t =>
    match c with
    | .fence => t.advance n
    | .launch _ => t | .graph _ _ _ _ => t | .wait _ _ _ _ => t | .signal _ _ _ _ _ => t | .bad => t) s

/-! ### The end of launches and graphs (R306, R308, R322) -/

/-- Clusters that no launch holds give up their locked tables (R312). -/
def State.unlock (s : State) : State :=
  let f := fun (c : Cluster) => if (s.holders [] c.num).isEmpty then { c with table := none } else c
  { s with clus := f s.clus, clusters := s.clusters.map f }

/-- A launch leaves the machine: its contexts, its cards, with the jobs among them, and its claim. -/
def State.dropLaunch (s : State) (id : Nat) : State :=
  let f := fun (k : Core) => { k with cards := k.cards.filter (fun (c : Card) => c.launch != id) }
  let s := s.dropJobs (s.jobGroups id)
  let s1 := { s with
    ctx := if s.ctx.place.launch == id then { s.ctx with phase := .vacant } else s.ctx
    others := s.others.filter (fun (c : Ctx) => c.place.launch != id)
    core := f s.core, cores := s.cores.map f
    launches := s.launches.filter (fun (l : Launch) => l.id != id) }
  s1.unlock

/-- A graph's pending nodes with an ended predecessor that did not complete are cancelled (R308), again and again. -/
def cancelNodes (edges : List (Nat × Nat)) : Nat → List GNode → List GNode
  | 0, l => l
  | fuel + 1, l =>
    let failed := fun (k : Nat) => l.any (fun (x : GNode) => x.num == k &&
      (match x.state with
       | .ended st _ => st != 0
       | .pending => false
       | .running => false))
    cancelNodes edges fuel (l.map (fun (x : GNode) =>
      if x.state == .pending && edges.any (fun (e : Nat × Nat) => e.2 == x.num && failed e.1) then
        { x with state := .ended 3 0x15 } else x))

/-- STATUS and CAUSE of a graph whose nodes have ended: those of the lowest-numbered node that failed or was refused. -/
def Graph.verdict (g : Graph) : Nat × Nat :=
  (g.nodes.findSome? (fun (x : GNode) =>
    match x.state with
    | .ended st c => if st = 1 ∨ st = 2 then some (st, c) else none
    | .pending => none
    | .running => none)).getD (0, 0)

def GNode.over (x : GNode) : Bool :=
  match x.state with
  | .ended _ _ => true
  | .pending => false
  | .running => false

/-- A graph whose nodes have all ended writes its one completion entry (R306, R308). -/
def State.settleGraph (s : State) (id : Nat) : State :=
  match s.graphs.find? (fun (g : Graph) => g.id == id) with
  | none => s
  | some g =>
    let g1 := { g with nodes := cancelNodes g.edges g.nodes.length g.nodes }
    if g1.nodes.all GNode.over then
      let (st, c) := g1.verdict
      let asid := ((g1.nodes.head?).map (fun (x : GNode) => x.lrec.asid)).getD 0
      let s1 := { s with graphs := s.graphs.filter (fun (x : Graph) => x.id != id) }
      (s1.complete g.stream asid g.tag st c ((g.first.map (fun t => s.ticks - t)).getD 0) g.journal).settleStream g.stream
    else { s with graphs := s.graphs.map (fun (x : Graph) => if x.id == id then g1 else x) }

/-- A node of a graph ends; `first` is the tick of its first bundle. -/
def State.endNode (s : State) (g node status cause : Nat) (first : Option Nat) : State :=
  { s with graphs := s.graphs.map (fun (x : Graph) =>
      if x.id == g then
        { x with
          first := match x.first, first with
            | some a, some b => some (min a b)
            | some a, none => some a
            | none, b => b
          nodes := x.nodes.map (fun (y : GNode) => if y.num == node then { y with state := .ended status cause } else y) }
      else x) }.settleGraph g

/-- The end of a launch: what its clusters hold is at home (release at SY), its entry is written, a graph's node ends,
its claim is released. Parked-record entries follow the completion entry of CAUSE 0x13 (R322); a launch that ends under
another cause with records parked keeps that cause and writes no such entries. (DESIGN CHOICE, log 126.) -/
def State.endLaunch (s : State) (l : Launch) (status cause : Nat) : State :=
  let s1 := l.clusters.foldl (fun s cl => s.atCore cl 0 State.writeBackReach) s
  let ticks := (l.first.map (fun t => s.ticks - t)).getD 0
  let parked := (List.range l.pool.size).filter (fun k => l.pool.slots.any (fun (x : PoolSlot) => x.slot == k && x.parked))
  match l.node with
  | some (g, node) => (s1.dropLaunch l.id).endNode g node status cause l.first
  | none =>
    let s2 := s1.complete l.stream l.lrec.asid l.lrec.tag status cause ticks l.journal
    let s3 := if cause = 0x13 then
        parked.foldl (fun s k => s.putEntry l.stream (parkedEntry k (s.recField l k 0 4))) s2
      else s2
    (s3.dropLaunch l.id).settleStream l.stream

/-- Whether a launch has ended (R322): every context has ended or froze, or waits with the pool empty; every card is
complete, every side log replayed, every store performed, and what its clusters hold can go home. -/
def State.launchOver (s : State) (l : Launch) : Bool :=
  let cs := s.ctxOf l.id
  cs.all (fun c => c.idle && c.mem.outs.isEmpty && c.mem.slog.isEmpty && c.mem.mq.isEmpty && c.ports.isEmpty &&
    c.wait.crev.isNone && !c.st.dump) &&
  (l.pool.queue.isEmpty || !cs.any (fun c => c.phase == .waiting)) &&
  l.clusters.all (fun cl => (s.findCluster cl).lines.all s.lineReach) &&
  !(s.core :: s.cores).any (fun (k : Core) => k.cards.any (fun (c : Card) => c.launch == l.id)) &&
  !l.state.isStopped

/-- The STATUS and CAUSE of a launch that has ended. -/
def Launch.verdict (l : Launch) : Nat × Nat :=
  match l.state with
  | .aborting cause _ => (1, cause)
  | .running => if l.pool.slots.any (fun (x : PoolSlot) => x.parked) then (1, 0x13) else (0, 0)
  | .stopped _ => (0, 0)

/-- Whether a launch stopped whole can never claim a rectangle again (R306, R407). -/
def State.unfit (s : State) (l : Launch) : Bool :=
  l.state.isStopped && !s.holdsClusters l && !s.claimable l.stream l.lrec

/-- LAUNCH_END (R322); a stopped launch that no longer fits in its partition's healthy clusters ends FAILED with CAUSE 0x16
(R407). -/
def execLaunchEnd (id : Nat) (s : State) : Out :=
  match s.launchOf id with
  | none => .next s
  | some l =>
    if s.power.phase != .on then .next s
    else if s.unfit l then .next (s.endLaunch l 1 0x16)
    else if s.launchOver l then
      let (st, c) := l.verdict
      .next (s.endLaunch l st c)
    else .next s

/-! ### GRAPH (R308) -/

/-- The bytes of a node record after the patches that name it. -/
def State.patchNode (s : State) (patches : List (Nat × Nat × Nat × Nat)) (map node r : Nat) : Nat :=
  patches.foldl (fun r (p : Nat × Nat × Nat × Nat) =>
    if p.1 = node ∧ p.2.1 + p.2.2.1 ≤ 128 then
      natSetField r (8 * p.2.1) (8 * p.2.2.1) (s.homeNum map p.2.2.2 p.2.2.1)
    else r) r

/-- The graph of an image: nodes patched, edges. (DEDUCED, log 34.) -/
def State.readGraph (s : State) (asid : Nat) (map patch : Nat) : List GNode × List (Nat × Nat) × List (Nat × Nat) :=
  let (nn, ne, np, nm) := Config.graphCounts (s.homeNum map 0 64)
  let nodes := min nn 4096
  let edges := min ne 16384
  let pOff := 64 + 128 * nn + 4 * ne
  let patches := (List.range np).map (fun k => Config.graphPatch (s.homeNum map (pOff + 8 * k) 8))
  ((List.range nodes).map (fun k =>
      let r := s.patchNode patches patch k (s.homeNum map (64 + 128 * k) 128)
      { num := k, lrec := { launchRec r with asid := asid, tag := BitVec.ofNat 64 k }
        bad := !(recBytes r 0 1 == 1 && launchRecOk r), state := .pending }),
   (List.range edges).map (fun k =>
      (s.homeNum map (64 + 128 * nn + 4 * k) 2, s.homeNum map (64 + 128 * nn + 4 * k + 2) 2)),
   (List.range nm).map (fun k => Config.graphPlan (s.homeNum map (pOff + 8 * np + 8 * k) 8)))

/-- The cause that refuses a GRAPH record, or 0. -/
def State.graphCause (s : State) (n asid image patch : Nat) : Nat :=
  let sp := s.spaceOf asid
  match (s.partOf n).asids.contains asid, sp.entry image, sp.entry patch with
  | true, some e, some p =>
    if e.kind != .code || p.kind != .memory then 2
    else if s.homeNum e.extmap 0 4 ≠ 0x4B564731 then 3
    else if (s.readGraph asid e.extmap p.extmap).2.2.all (fun (m : Nat × Nat) =>
        match sp.entry m.1 with
        | some b => decide (192 * m.2 ≤ b.length)
        | none => false) then 0
    else 2
  | false, _, _ => 2
  | true, none, _ => 2
  | true, some _, none => 2

/-- A GRAPH record is taken: refused, or its nodes are patched and wait for their predecessors. -/
def State.takeGraph (s : State) (n asid image patch : Nat) (tag : W64) : State :=
  let c := s.graphCause n asid image patch
  if c ≠ 0 then (s.refuseRecord n asid tag c).advance n
  else
    let map := fun k => (((s.spaceOf asid).entry k).getD default).extmap
    let (nodes, edges, _) := s.readGraph asid (map image) (map patch)
    let g : Graph := { id := s.nextId, stream := n, journal := s.ljNext, first := none, tag := tag, nodes := nodes, edges := edges }
    let s1 := s.ljPut 1 n asid tag 0 0 0
    ({ s1 with graphs := s1.graphs ++ [g], nextId := s1.nextId + 1 }.settleGraph g.id).advance n

/-- GRAPH (R308). -/
def execGraph (n : Nat) (s : State) : Out :=
  takeRecord n 2 (fun c t =>
    match c with
    | .graph a i p tag => t.takeGraph n a i p tag
    | .launch _ => t | .wait _ _ _ _ => t | .signal _ _ _ _ _ => t | .fence => t | .bad => t) s

/-- Whether every predecessor of a node has ended COMPLETE. -/
def Graph.nodeReady (g : Graph) (node : Nat) : Bool :=
  g.edges.all (fun (e : Nat × Nat) => e.2 != node ||
    g.nodes.any (fun (x : GNode) => x.num == e.1 && x.state == .ended 0 0))

/-- What the launch sequence finds for a node of a graph: a record that is no good is refused as its turn comes; none begins
while its TDI lets no launch run (R348, R400). -/
def State.planNode (s : State) (g : Graph) (x : GNode) : Plan :=
  if !s.tdiOpen g.stream || !s.ljFree then .wait
  else if x.bad then .refuse 5 else s.planLaunch g.stream 0 x.lrec

/-- GRAPH_NODE_START (R308): a pending node whose predecessors have ended COMPLETE goes through the launch sequence. -/
def execGraphNodeStart (id node : Nat) (s : State) : Out :=
  match s.graphs.find? (fun (g : Graph) => g.id == id) with
  | none => .next s
  | some g =>
    match g.nodes.find? (fun (x : GNode) => x.num == node && x.state == .pending) with
    | none => .next s
    | some x =>
      if g.nodeReady node && s.noHigher (s.streamOf g.stream).level && s.power.phase == .on then
        let t := if x.bad || !s.tdiOpen g.stream || !s.ljFree then s else s.touchRecord g.stream x.lrec
        match s.planNode g x with
        | .refuse c => .next (t.endNode id node 2 c none)
        | .start p row col =>
          let s1 := { t with graphs := s.graphs.map (fun (y : Graph) =>
            if y.id == id then
              { y with nodes := y.nodes.map (fun (z : GNode) => if z.num == node then { z with state := .running } else z) }
            else y) }
          .next (s1.startLaunch g.stream (some (id, node)) x.lrec p row col g.journal)
        | .wait => .next t
        | .stop _ => .next t
      else .next s

/-! ### Limits and the abort (R319, R320, R338) -/

/-- Whether a launch runs under its hang limit and a context has reached it (R320). (DEDUCED, log 88.) -/
def State.hung (s : State) (l : Launch) : Bool :=
  l.state.isRunning && l.lrec.hang != 0 &&
  (s.ctxOf l.id).any (fun c => c.phase == .running && decide (l.lrec.hang * 65536 ≤ c.st.hang))

/-- HANG_LIMIT (R320). -/
def execHangLimit (id : Nat) (s : State) : Out :=
  match s.launchOf id with
  | some l => .next (if s.hung l then s.abortLaunch id 0x11 else s)
  | none => .next s

/-- Whether a launch has passed its wall-time limit (R319). -/
def State.walled (s : State) (l : Launch) : Bool :=
  !l.state.isAborting && l.lrec.wall != 0 &&
  (match l.first with
   | some t => decide (t + 1024 * l.lrec.wall ≤ s.ticks)
   | none => false)

/-- WALL_LIMIT (R319). -/
def execWallLimit (id : Nat) (s : State) : Out :=
  match s.launchOf id with
  | some l => .next (if s.walled l then s.abortLaunch id 0x12 else s)
  | none => .next s

/-- The system done bit of a notice, in the contexts that it concerns, saved ones too (R321, R338, R340, R393).
(DEDUCED, log 61.) -/
def State.applyNotice (s : State) (n : Notice) : State :=
  match n with
  | .abort id => s.mapCtx (fun c => c.place.launch == id && c.phase != .vacant) (fun c => c.setDone 60)
  | .again id => s.mapCtx (fun c => c.place.launch == id && c.phase != .vacant) (fun c => c.setDone 60)
  | .pattern cl => s.mapCtx (fun c => c.place.cluster == cl && c.phase.occupied) (fun c => c.setDone 61)
  | .brown => s.mapCtx (fun c => c.phase != .vacant) (fun c => c.setDone 62)
  | .revoked a i e => s.notifyRevoked a i e

/-- The end of a cycle: launches that have reached a limit are aborted, and the system done bits are set (R319 to R321,
R338). -/
def State.endCycle (s : State) : State :=
  let on := s.power.phase == .on
  let s1 := (s.launches.filter (fun l => on && s.hung l)).foldl (fun s (l : Launch) => s.abortLaunch l.id 0x11) s
  let s2 := (s1.launches.filter (fun l => on && s1.walled l)).foldl (fun s (l : Launch) => s.abortLaunch l.id 0x12) s1
  { s2.notices.foldl State.applyNotice s2 with notices := [] }

/-- Whether the remaining contexts of an aborted launch are to be ended. -/
def State.abortDue (s : State) (l : Launch) : Bool :=
  (match l.state with
   | .aborting _ t => decide (t ≤ s.ticks)
   | .running => false
   | .stopped _ => false) &&
  (s.ctxOf l.id).any (fun c => c.phase == .running || c.phase == .waiting || c.phase == .stopped)

/-- The contexts end as by `halt` in handler mode (R330, R338): their record slots are freed; a group whose job one has
outstanding sees it FAULTED (R372), and the jobs of saved ones leave with their cards. -/
def State.endContexts (s : State) (id : Nat) (p : Ctx → Bool) : State :=
  let hit := fun (c : Ctx) => c.place.launch == id && p c &&
    (c.phase == .running || c.phase == .waiting || c.phase == .stopped)
  let freed := (s.allCtx.filter (fun c => hit c && c.phase != .waiting)).map (fun c => c.place.contSlot)
  let kept := s.allCtx.flatMap (fun c => if hit c then (c.saved.map (fun (v : Saved) => v.cards)).getD [] else [])
  let lost := fun (g : Group) => kept.any (fun (k : Card) => k.isJob g.entry.gid)
  let s1 := ((s.jobGroups id).filter (fun g => !lost g)).foldl State.memberFaulted s
  ((s1.dropJobs ((s.jobGroups id).filter lost)).mapCtx hit (fun c => { c.endCtx .ended with saved := none })).modPool id (fun q =>
    { q with slots := q.slots.filter (fun (x : PoolSlot) => !freed.contains x.slot) })

/-- ABORT_TIMEOUT (R338): TIMEOUT ticks after the fault or the limit, every remaining context is ended. -/
def execAbortTimeout (id : Nat) (s : State) : Out :=
  match s.launchOf id with
  | some l => .next (if s.abortDue l then s.endContexts id (fun _ => true) else s)
  | none => .next s

end Sys2Proof.Machine
end

