-- ==== Sys2Proof/Machine/Stop.lean ====
section
/-! DEFINITION. Stops and resumes: pre-emption, the save of a context at a bundle boundary, its restore, fatal faults
(R30, R177, R224, R258, R293, R332 to R337, R372, R378, R383, R384). -/

namespace Sys2Proof.Machine

open Sys2Proof

/-! ### Requests (R332, R333) -/

/-- A launch is asked to stop whole. -/
def State.stopLaunch (s : State) (id : Nat) (code : StopCode) : State :=
  s.modLaunch id (fun l => { l with state := .stopped code })

/-- PREEMPTION (R332): the LAUNCH at the head of a stream, which cannot claim its rectangle, stops the launches that must
give way. -/
def execPreemption (n : Nat) (s : State) : Out :=
  let level := (s.streamOf n).level
  match s.headCmd n with
  | some (.launch r) =>
    (match s.planHead n r with
     | .stop ids =>
       .next (if s.noHigher level then ids.foldl (fun s id => s.stopLaunch id .preempt) s else s)
     | .refuse _ => .next s
     | .wait => .next s
     | .start _ _ _ => .next s)
  | some (.graph _ _ _ _) => .next s
  | some (.wait _ _ _ _) => .next s
  | some (.signal _ _ _ _ _) => .next s
  | some .fence => .next s
  | some .bad => .next s
  | none => .next s

/-- Whether a context's launch is under an abort and holds a cluster of a region that is shed and not yet off (R407). -/
def State.regionLeaves (s : State) (c : Ctx) : Bool :=
  s.launches.any (fun (l : Launch) => l.id == c.place.launch && l.state.isAborting &&
    l.clusters.any (fun n => s.regions.any (fun (r : Region) => r.num == clusterRegion n && r.shed && !r.off)))

/-- Whether a stop of a kind has been requested of a context: its launch is stopped whole, its stack is being shed, or its region
is; in the
power-fail sequence, once phase 2 has begun, every context that is not yet saved stops with PWRF (R386). -/
def State.stopRequested (s : State) (c : Ctx) (code : StopCode) : Bool :=
  match s.power.phase with
  | .hib k => code == .pwrf && k == 2
  | .on =>
    (match s.launchOf c.place.launch with
     | some l => l.state == .stopped code
     | none => false) ||
    (code == .brown && (s.power.shedding == some (clusterStack c.place.cluster) || s.regionLeaves c))
  | .off => false
  | .restart _ => false

/-! ### Before the save (R30, R177, R333, R383) -/

/-- Whether an access cannot perform before the save, where `l` cannot (R383): it is held, or it is a store or atomic that
R265 holds behind a load, or one that cannot is ordered before it. (DEDUCED, log 102.) -/
def State.stuck (s : State) (l : List Access) (x : Access) : Bool :=
  let before := l.filter (fun y => decide (y.seq < x.seq))
  x.hold || (!x.isLoad && s.ctx.waitsId x) || s.accNonResident x || (x.isSpawn && s.poolHolds) ||
  before.any (fun y => y.op.isFence) ||
  (if x.op.isFence then
    (x.rel.isSome && (!before.isEmpty || s.cardsPending x.seq || !s.clus.lines.all s.lineReach)) ||
      (x.acq.isSome && before.any x.keepsBack)
   else before.any (fun y => y.overlaps x))

/-- The accesses that cannot perform before the save: the side log, and what of the outstanding ones waits for them. -/
def State.staying (s : State) : List Access :=
  s.ctx.mem.outs.foldl (fun l x => if s.stuck l x then l ++ [x] else l) s.ctx.mem.slog

/-- Whether an access is ordered before one that must perform. -/
def Ctx.goesBefore (c : Ctx) (x z : Access) : Bool :=
  decide (x.seq < z.seq) &&
  (x.op.isFence || x.overlaps z || (z.op.isFence && (z.rel.isSome || z.keepsBack x)) ||
    x.id.any (fun k => natBit (z.addrTaint ||| z.dataTaint).toNat k && (idAt c k).held))

/-- The accesses that must perform before the save: every store and atomic that can, and what is ordered before one. -/
def State.leaving (s : State) : List Access :=
  (s.ctx.mem.outs.filter (fun x => !s.staying.any (fun y => y.seq == x.seq))).foldr (fun x l =>
    if (!x.isLoad && !x.op.isFence) || l.any (s.ctx.goesBefore x) then x :: l else l) []

/-- Whether an outstanding access must perform before the save completes. -/
def State.mustPerform (s : State) (x : Access) : Bool := s.leaving.any (fun y => y.seq == x.seq)

/-- The bytes of a context's save area are in reach: their home is not shed, and their extents are in HBM or find a frame
(R3, R394). -/
def State.saveReach (s : State) (p : Place) : Bool :=
  match s.launchOf p.launch with
  | none => true
  | some l =>
    match s.saveEntry l with
    | none => true
    | some e => !s.homeShed e (saveBase p) 1048576 && s.roomFor e (saveBase p) 1048576

/-- Whether what a frozen context has issued has run to its end, so that its dump is written (R337). -/
def State.dumpReady (s : State) : Bool :=
  let c := s.ctx
  c.st.dump && c.mem.outs.isEmpty && c.mem.slog.isEmpty && c.mem.mq.isEmpty && c.wait.crev.isNone &&
  !s.core.cards.any (fun k => k.of c) && s.saveReach c.place

/-- Whether the current context may be saved: the M queue has drained, a `crev` that has issued has completed, every access
that must perform has, no fatal dump is owed while the module is on, and the save area is in reach. -/
def State.savable (s : State) : Bool :=
  s.ctx.mem.mq.isEmpty && s.ctx.wait.crev.isNone && !s.ctx.mem.outs.any s.mustPerform &&
  !(s.ctx.st.dump && s.power.phase == .on) && s.saveReach s.ctx.place

/-- In-flight results other than loads are completed and saved as full, translate handles among them (R30): the context
comes back once the extents that it pins are resident (R242); a `yield` wait ends (R105). (DEDUCED, log 114.) -/
def State.settleResults (s : State) : State :=
  ((List.range s.ctx.mem.pend.length).foldl (fun (s : State) _ => s.arrive 0) s).onCtx (fun c =>
    { c.fillXlats (fun _ => true) with wait := { c.wait with yield := 0 } })

/-- The extents that a context pins and that are not resident (R242). -/
def State.pinsOut (s : State) (c : Ctx) : List (Nat × Nat) :=
  (c.mem.pins.toList.filterMap id).filterMap (fun (p : Pin) => if s.extentHolds p.map p.ext then some (p.map, p.ext) else none)

/-- A context of the list becomes the current one, with its core and cluster. -/
def State.switchTo (s : State) (c : Ctx) : State :=
  let back := if s.ctx.phase == .vacant then [] else [s.ctx]
  { s with ctx := c, others := back ++ s.others.filter (fun (x : Ctx) => !x.sameAs c) }.focus c.place.cluster c.place.core

/-! ### What peers see (R372, R378, R395) -/

/-- The step of a card that is a job of a group. -/
def Card.jobStep (c : Card) (gid : Nat) : Option Nat :=
  match c.kind with
  | .coll g _ _ step _ => if g = gid then some step else none
  | .copy _ => none
  | .fill => none
  | .mcast _ _ => none

/-- The step that a stopped context's member state shows for a group: of its outstanding job, or of the last completed
one when the package has none outstanding. -/
def State.pausedStep (s : State) (g : Group) (cards : List Card) : Option Nat :=
  match cards.findSome? (fun (c : Card) => c.jobStep g.entry.gid) with
  | some n => some n
  | none => if s.coll.any (fun (j : CollJob) => j.gid == g.entry.gid) then none else some (g.lastStep.getD 0)

/-- A state of this package's member of a group, held here and told to its peers (R372). -/
def State.tellState (s : State) (g : Group) (st : MState) : State :=
  (s.modGroup g.entry.gid (fun x => x.setMember x.entry.rank st s.ticks)).sendFabric
    [.memberState g.entry.gid g.entry.rank st]

/-- A stopped context's groups report PAUSED(n). (DEDUCED, log 41.) -/
def State.tellPaused (s : State) (asid : Nat) (cards : List Card) : State :=
  (s.groupsOf asid).foldl (fun (s : State) g =>
    match s.pausedStep g cards with
    | some n => s.tellState g (.paused n)
    | none => s) s

/-- The received map of a job: source rank and segment (R378). -/
def CollJob.map (j : CollJob) : List (Nat × Nat) := j.recv.map (·.1)

/-- The job of a group among a resumed context's cards: RESUME goes to every rank with the received map, and the job waits
for every member's answer (R378, R401). -/
def State.rejoin (s : State) (g : Group) (step : Nat) : State :=
  let map := ((s.coll.find? (fun (j : CollJob) => j.gid == g.entry.gid)).map CollJob.map).getD []
  { s with coll := s.coll.map (fun (j : CollJob) =>
      if j.gid == g.entry.gid then { j with awaits := (List.range g.entry.g).filter (fun r => r != g.entry.rank) }
      else j) }.sendFabric [.resume g.entry.gid g.entry.rank step map]

/-- Whether a context of an ASID stands stopped. -/
def State.stoppedIn (s : State) (asid : Nat) : Bool :=
  s.allCtx.any (fun (c : Ctx) => c.place.asid == asid && (match c.phase with
    | .stopped => true
    | .vacant => false | .running => false | .waiting => false | .ended => false | .frozen => false))

/-- A resumed context's groups: one whose job it holds rejoins and is ACTIVE; one whose job another context holds keeps that
one's state; one with none outstanding is ACTIVE once no context of the ASID stands stopped. (DEDUCED, log 41.) -/
def State.tellResumed (s : State) (asid : Nat) (cards : List Card) : State :=
  (s.groupsOf asid).foldl (fun (s : State) g =>
    match cards.findSome? (fun (c : Card) => c.jobStep g.entry.gid) with
    | some step => (s.rejoin g step).tellState g .active
    | none =>
      if s.coll.any (fun (j : CollJob) => j.gid == g.entry.gid) || s.stoppedIn asid then s else s.tellState g .active) s

/-! ### CONTEXT_STOP -/

/-- Whether a card is a context's, or that of an earlier continuation of its slot. -/
def Card.leftBy (k : Card) (c : Ctx) : Bool := k.slot % 2 == c.place.slot && k.launch == c.place.launch

/-- What a stop keeps of the current context's core. -/
def State.savedPart (s : State) (code : StopCode) : Saved :=
  let c := s.ctx
  { code := code, phase := c.phase, cluster := c.place.cluster
    cards := (s.core.cards.filter (fun k => k.leftBy c)).map (fun (k : Card) => { k with started := false, held := false })
    tiles := (setBits 32 c.place.zown.toNat).map (fun z =>
      let t := vget s.core.tiles z ⟨0, true, 0, none⟩
      (z, t.full, t.taint))
    banks := s.core.la.filter (fun (x : Host.Cell) => c.place.own.getLsbD (x.1 / bankBytes))
    grist := 0, dark := false }

/-- What the copy engine withheld of the current context's cards performs: they stop at a sector boundary (R258). -/
def State.flushCards (s : State) : State :=
  (List.range s.core.cards.length).foldl (fun s k =>
    match s.card k with
    | some c => if c.leftBy s.ctx then s.flushCard k else s
    | none => s) s

/-- The current context is saved: what its cluster holds is written back, so that its stores are seen where it resumes
(R7); its save area is written when it holds state; its cards leave the core with it (R258, R334).
(DEDUCED, log 21.) -/
def State.saveContext (s : State) (code : StopCode) : State :=
  let s0 := s.settleResults.flushCards.writeBackReach
  let sv := s0.savedPart code
  let s1 := match s0.ctx.phase with
    | .running => s0.writeSave s0.ctx s0.core code.num false
    | .waiting => s0 | .ended => s0 | .frozen => s0 | .vacant => s0 | .stopped => s0
  let s2 := { s1 with core := { s1.core with cards := s1.core.cards.filter (fun k => !k.leftBy s1.ctx) } }
  ((s2.onCtx (fun c => { c with phase := .stopped, saved := some sv, bubblesLeft := 0 })).tellPaused
    s2.ctx.place.asid sv.cards).unlock

/-- Whether a context is resident, with or without bundles to issue. -/
def Phase.resident : Phase → Bool
  | .running => true | .waiting => true | .ended => true | .frozen => true | .vacant => false | .stopped => false

/-- CONTEXT_STOP (R333): the current context, asked to stop, is saved at its bundle boundary once it has drained. A
context of a launch under an abort ends instead, a frozen one too (R338). (DEDUCED, log 40.) -/
def execContextStop (code : StopCode) (s : State) : Out :=
  let c := s.ctx
  if c.phase.resident && s.stopRequested c code && s.savable then
    let aborting := (s.curLaunch.map (fun (l : Launch) => l.state.isAborting)).getD false
    if aborting && (c.phase == .running || c.phase == .waiting || c.phase == .frozen) then
      .next (((if c.st.dump then s.writeDump else s).endContexts c.place.launch (fun x => x.sameAs c)).onCtx (fun x => { x.endCtx .ended with saved := none }))
    else .next (s.saveContext code)
  else .next s

/-! ### CONTEXT_RESUME (R224, R269, R336) -/

/-- The losses of regions of its window that a context has suffered since its stop (R159, R336): each one on another core,
else one for each time that another ASID took one or one lost power. -/
def gristLost (c : Ctx) (sv : Saved) (k : Core) : Nat :=
  if sv.cluster ≠ k.cluster then c.place.regions.length else sv.grist

/-- Scratchpad bytes outside the live regions keep their value at the stop or read as zero, a free choice for each
(R224). (DEDUCED, log 22.) -/
def keptCells (d : Nat) (l : List Host.Cell) : List Host.Cell :=
  ((l.zip (List.range l.length)).filter (fun (x : Host.Cell × Nat) => Config.freeBool (d + x.2))).map (·.1)

/-- The tags of a region of the save area go back with it, tested while a sweep is active (R342). -/
def State.restoreRange (s : State) (asid map src o n : Nat) : State :=
  (List.range (n / 16)).foldl (fun s g =>
    if s.memTag map (src + 16 * g) then
      { s with core := s.core.laWriteCap (o + 16 * g) (s.enter asid (s.memReadCap map (src + 16 * g))) }
    else s) { s with core := s.core.laWrite o (s.memRead map src n) }

/-- Tiles and scratchpad of a context restored into the current core from its save area. -/
def State.restoreCore (s : State) (l : Launch) (c : Ctx) (sv : Saved) : State :=
  let s0 := s.prepareCore c.place
  let k := s0.core
  let (d, n) := (s.draws, sv.banks.length)
  let own := fun (o : Nat) => c.place.own.getLsbD (o / bankBytes)
  let la := (keptCells d sv.banks).foldl (fun m (x : Host.Cell) => Memory.set m x.1 x.2)
    (k.la.filter (fun (x : Host.Cell) => !own x.1))
  let k1 := { k with la := la, laTags := k.laTags.filter (fun g => !own (16 * g)) }
  let s1 := { s0 with core := k1, draws := d + n }
  match s1.saveEntry l with
  | none => s1
  | some e =>
    let b := saveBase c.place
    let tiles := sv.tiles.foldl (fun (v : Vector Tile 32) (t : Nat × Bool × Taint) =>
      vset v t.1 { val := BitVec.ofNat 32768 (s1.homeNum e.extmap (b + 0x1F000 + 4096 * t.1) 4096), full := t.2.1,
                   taint := t.2.2, asid := some c.place.asid }) k1.tiles
    let p := s1.bundleNumber c.place c.pc (c.place.segBlocks * 63) 0 0
    (liveRegions l.img p).foldl (fun s r => s.restoreRange c.place.asid e.extmap (b + 0x3F000 + r.1) r.1 r.2)
      { s1 with core := { k1 with tiles := tiles } }

/-- A saturating step of a 16-bit count. -/
def sat16 (n : Nat) : Nat := min 65535 (n + 1)

/-- A footprint in a core of one cluster, in the core of the same number of another one (R258). -/
def Footprint.move (f : Footprint) (old new : Nat) : Footprint :=
  { f with at_ := match f.at_ with
    | .buf o i => .buf o i
    | .array c n => if c = old then .array new n else .array c n
    | .grist c n => if c = old then .grist new n else .grist c n }

/-- A card put back after a stop: its edges are derived again where it stands now (R258), its capabilities are tested while a
sweep is active (R342). -/
def State.putBack (s : State) (asid old new : Nat) (k : Card) : Card :=
  let k1 := k.mapCaps (s.enter asid)
  { k1 with reads := k1.reads.map (fun f => f.move old new), writes := k1.writes.map (fun f => f.move old new) }

/-- A saved context comes back at its position of a cluster (R336), once the dirty bytes left where it stood have gone home
(R261). -/
def State.resumeAt (s : State) (l : Launch) (c : Ctx) (sv : Saved) (cl : Nat) : State :=
  (s.atCore sv.cluster c.place.core State.writeBackReach).atCore cl c.place.core (fun s =>
    let alone := !(s.residents [] cl c.place.core).any (fun d => d.phase.occupied && d.place.slot != c.place.slot)
    let lost := min 65535 (c.place.gLost + gristLost c sv s.core)
    let st := { c.st with
      hibs := if sv.dark then sat16 c.st.hibs else c.st.hibs
      sheds := match sv.code with
        | .brown => sat16 c.st.sheds
        | .preempt => c.st.sheds
        | .pwrf => c.st.sheds }
    let place := { c.place with cluster := cl, prim := alone, gLost := lost }
    let back := ({ c with phase := sv.phase, saved := none, st := st, place := place }.atClock s.clus.clock).mapCaps
      (s.enter c.place.asid)
    let s1 := match sv.phase with
      | .running => s.restoreCore l { c with place := place } sv
      | .waiting => s.prepareCore place
      | .ended => s | .frozen => s | .vacant => s | .stopped => s
    let here := fun (x : Ctx) => x.phase.isStopped && x.sameAs c
    ({ s1 with
      core := { s1.core with cards := s1.core.cards ++ sv.cards.map (s.putBack c.place.asid sv.cluster cl) }
      ctx := if here s1.ctx then back else s1.ctx
      others := s1.others.map (fun x => if here x then back else x) }).tellResumed c.place.asid sv.cards)

/-- Whether stopped contexts may come back now: the module is on, or in step 7 of its restart, and the partition's keys are
LIVE (R359, R399). -/
def State.mayResume (s : State) (l : Launch) : Bool :=
  (s.power.phase == .on || s.power.phase == .restart 7) && s.keysOpen l.stream

/-- A launch stopped whole, all its contexts saved, claims a rectangle again (R332): its row, column and clusters; those of a
restart do in launch-table order (R399). -/
def State.reclaim (s : State) (l : Launch) : Option Launch :=
  if !s.holdsClusters l && s.noHigher l.level && !s.claimsFirst (s.power.pending.takeWhile (fun id => id != l.id)) then
    (s.resumeClaim l).map (fun p =>
      { l with row := p.1, col := p.2, clusters := rectClusters p.1 p.2 l.lrec.rows l.lrec.cols, state := .running })
  else none

/-- The saved context of a launch at a position. -/
def State.savedAt (s : State) (id clord core slot : Nat) : Option (Ctx × Saved) :=
  match (s.stoppedOf id).find? (fun c => c.place.clord == clord && c.place.core == core && c.place.slot == slot) with
  | some c => c.saved.map (fun sv => (c, sv))
  | none => none

/-- Whether what a stop left behind can follow a context: its save area is in reach (R394), the extents that it pins are
resident (R242), and the dirty bytes of the cluster that it stood in can reach their homes (R261). -/
def State.followed (s : State) (c : Ctx) (sv : Saved) : Bool :=
  s.saveReach c.place && (s.pinsOut c).isEmpty && (s.findCluster sv.cluster).lines.all s.lineReach

/-- Whether the saved context may come back now: never one of a launch under an abort (R338), and not before what a stop left
behind can follow it. -/
def State.resumable (s : State) (c : Ctx) : Bool :=
  match s.launchOf c.place.launch with
  | some l =>
    s.mayResume l && !l.state.isAborting && c.saved.any (s.followed c) &&
    (if l.state.isStopped then (s.reclaim l).isSome
     else !(s.findCluster ((l.clusters[c.place.clord]?).getD c.place.cluster)).shed)
  | none => false

/-- CONTEXT_RESUME (R336): the saved context at a position comes back; the first one of a launch stopped whole claims its
rectangle and locks its tables; one that a shed stopped comes back in place once its stack has returned (R397). -/
def execContextResume (id clord core slot : Nat) (s : State) : Out :=
  match s.launchOf id, s.savedAt id clord core slot with
  | some l, some (c, sv) =>
    if s.mayResume l && !l.state.isAborting && s.followed c sv then
      if l.state.isStopped then
        match s.reclaim l with
        | none => .next s
        | some l1 =>
          let s1 := ((s.modLaunch id (fun _ => l1)).lockTables l.lrec.asid l1.clusters).mapCtx
            (fun x => x.place.launch == id && x.phase.isStopped)
            (fun x => { x with place := { x.place with cluster := (l1.clusters[x.place.clord]?).getD 0 } })
          .next (s1.resumeAt l1 c sv ((l1.clusters[clord]?).getD 0))
      else
        let cl := (l.clusters[clord]?).getD c.place.cluster
        if (s.findCluster cl).shed then .next s else .next (s.resumeAt l c sv cl)
    else .next s
  | some _, none => .next s
  | none, _ => .next s

/-! ### FATAL_FAULT (R328, R337) -/

/-- FATAL_FAULT (R337): the pending fault of the current context is taken where taking it is fatal: in handler mode, or
without a handler. -/
def execFatalFault (s : State) : Out :=
  if s.ctx.phase.isRunning && (s.ctx.handler || s.ctx.place.handler.isNone) then execAsyncFaultTaken s else .next s

end Sys2Proof.Machine
end

