-- ==== Sys2Proof/Machine/Collective.lean ====
section
/-! DEFINITION. Collective jobs: staging, exchange of segments, completion and faults; the start of a card, `kcan` and the
stop of a multicast destination (R248, R250, R251, R371 to R382, R420). A job exchanges its members' own contributions
directly, in segments of as many elements as fit in a flit's 192 bytes, at least one; R375 leaves the exchange open. -/

namespace Sys2Proof

def MState.isPaused : MState → Bool
  | .paused _ => true | .active => false | .missing => false | .faulted => false

end Sys2Proof

namespace Sys2Proof.Machine

open Sys2Proof

/-! ### Segments -/

/-- Elements in a segment. (DEDUCED, log 46.) -/
def segElems (es : Nat) : Nat := max 1 (192 / es)

/-- Segments of a job of `e` elements. -/
def segCount (es e : Nat) : Nat := ceilDiv e (segElems es)

/-- The elements of one segment of a list. -/
def segOf (es k : Nat) (l : List Nat) : List Nat := (l.drop (k * segElems es)).take (segElems es)

/-- What a job's card declares: operation, kind, its group and the field KIND names. -/
structure JobSpec where
  gid : Nat
  op : CollOp
  kind : CollKind
  step : Nat
  root : Nat

def Card.job (c : Card) : Option JobSpec :=
  match c.kind with
  | .coll gid op kind step root => some ⟨gid, op, kind, step, root⟩
  | .copy _ => none
  | .fill => none
  | .mcast _ _ => none

def Card.es (c : Card) (j : JobSpec) : Nat := collEs j.kind c.card.stype

/-- Elements of the card's source. -/
def Card.elems (c : Card) (j : JobSpec) : Nat := c.card.rbytes / c.es j

/-- The declaration of a card's job. -/
def Card.decl (c : Card) (j : JobSpec) : CollDecl :=
  { step := j.step, op := j.op, kind := j.kind, elem := c.card.w6.toNat % 16, count := c.elems j, root := j.root }

/-- Where the live card of a group's job is: its core and its place in the table. A card of a stopped context has left its
core. -/
def State.jobAt (s : State) (gid : Nat) : Option (Core × Nat × Card) :=
  (s.core :: s.cores).findSome? (fun (k : Core) =>
    ((List.range k.cards.length).zip k.cards).findSome? (fun (p : Nat × Card) =>
      if p.2.isJob gid then some (k, p.1, p.2) else none))

def State.collOf (s : State) (gid : Nat) : Option CollJob := s.coll.find? (fun (j : CollJob) => j.gid == gid)

def State.modColl (s : State) (gid : Nat) (f : CollJob → CollJob) : State :=
  { s with coll := s.coll.map (fun (j : CollJob) => if j.gid == gid then f j else j) }

/-- A segment is added once (R378). -/
def CollJob.add (j : CollJob) (rank seg : Nat) (vals : List Nat) : CollJob :=
  if j.map.contains (rank, seg) then j else { j with recv := j.recv ++ [((rank, seg), vals)] }

/-- The elements of a rank, in order, those of a segment that is not here missing. -/
def CollJob.source (j : CollJob) (es e rank : Nat) : List (Option Nat) :=
  (List.range (segCount es e)).flatMap (fun k =>
    match j.recv.find? (fun (x : (Nat × Nat) × List Nat) => x.1 == (rank, k)) with
    | some x => x.2.map some
    | none => List.replicate (segOf es k (List.replicate e 0)).length none)

/-! ### Sending (R378, R420) -/

/-- This member's segments that a member lacks leave for it. -/
def State.sendSegments (s : State) (g : Group) (c : Card) (j : JobSpec) (dest : Nat) (lacks : Nat → Bool) : State :=
  let es := c.es j
  match s.collOf j.gid with
  | none => s
  | some x =>
    let segs := (List.range (segCount es (c.elems j))).filter (fun k => lacks k && x.map.contains (g.entry.rank, k))
    let msgs := segs.filterMap (fun k =>
      (x.recv.find? (fun (y : (Nat × Nat) × List Nat) => y.1 == (g.entry.rank, k))).map (fun y =>
        Msg.segment j.gid g.entry.rank dest k (c.decl j) y.2))
    (s.modColl j.gid (fun x => { x with sent := (x.sent ++ segs.map (fun k => (dest, k))).eraseDups })).sendFabric msgs

/-- A job's start sends its segments to every other member; one that is PAUSED in the job of this step accepts none, and its
segments stay unsent (R420). -/
def State.sendAll (s : State) (g : Group) (c : Card) (j : JobSpec) : State :=
  ((List.range g.entry.g).filter (fun r => r != g.entry.rank && g.stateOf r != .paused j.step)).foldl
    (fun (s : State) r => s.sendSegments g c j r (fun _ => true)) s

/-! ### Results (R375) -/

/-- The wide sum of one element of one member. -/
def collIn (kind : CollKind) (ty x : Nat) : Nat :=
  match kind with
  | .fp =>
    let ws64 := ty == 11
    let (i, st, _) := wsContrib ws64 (opVal ty 0 x)
    wsAddInc ws64 0 i st
  | .ws32 => x
  | .ws64 => x

def collWs64 (kind : CollKind) (ty : Nat) : Bool :=
  match kind with
  | .fp => ty == 11
  | .ws32 => false
  | .ws64 => true

/-- The sum over the members (R55): F modulo its range and the OR of the status bytes. OVF is set when the exact total
lies outside the range, and stays as it was when no partial sum in any order can leave the range; where the order decides
it is `free`. (DEDUCED, log 47.) -/
def collSum (ws64 : Bool) (free : Bool) (l : List Nat) : Nat :=
  let fs := l.map (wsF ws64)
  let lim : Int := ((2 ^ (wsBits ws64 - 1) : Nat) : Int)
  let within : Int → Bool := fun z => decide (-lim ≤ z) && decide (z < lim)
  let sum : List Int → Int := fun l => l.foldl (· + ·) 0
  let ovf := if within (sum (fs.filter (0 < ·))) && within (sum (fs.filter (· < 0))) then false
    else if within (sum fs) then free else true
  wsPack ws64 (sum fs) (l.foldl (fun st x => st ||| wsStatus ws64 x) (if ovf then 8 else 0))

/-- `fin`: rounding for elements, the image itself for wide sums. -/
def collFin (kind : CollKind) (ty rnd x : Nat) : Nat × BitVec 5 :=
  match kind with
  | .fp =>
    (match ty with
     | 8 => wsRound false .h (cardRm rnd) x
     | 9 => wsRound false .b (cardRm rnd) x
     | 10 => wsRound false .s (cardRm rnd) x
     | _ => wsRound true .d (cardRm rnd) x)
  | .ws32 => (x, 0)
  | .ws64 => (x, 0)

/-- The output elements of a job at a rank, with their flags, from the members' elements; an output element is missing
while one that it needs is. `d` numbers the free values. -/
def collOutput (j : JobSpec) (ty rnd rank g d : Nat) (src : List (List (Option Nat))) : List (Option (Nat × BitVec 5)) :=
  let e := ((src.head?).map List.length).getD 0
  let sums := fun (lo n : Nat) => (List.range n).map (fun k =>
    (src.mapM (fun (x : List (Option Nat)) => (x[lo + k]?).getD none)).map (fun l =>
      collFin j.kind ty rnd (collSum (collWs64 j.kind ty) (Config.freeBool (d + k)) (l.map (collIn j.kind ty)))))
  let moved := fun (l : List (Option Nat)) => l.map (fun (x : Option Nat) => x.map (fun v => (v, (0 : BitVec 5))))
  match j.op with
  | .ar => sums 0 e
  | .rs => sums (rank * (e / g)) (e / g)
  | .ag => moved src.flatten
  | .bc => moved ((src[j.root]?).getD [])

/-- The output elements of a live job that the contributions here give so far. -/
def State.collElems (s : State) (g : Group) (c : Card) (j : JobSpec) : List (Option (Nat × BitVec 5)) :=
  match s.collOf j.gid with
  | none => []
  | some x => collOutput j c.card.stype c.card.rnd g.entry.rank g.entry.g x.free
      ((List.range g.entry.g).map (x.source (c.es j) (c.elems j)))

/-- The output of a job whose contributions are all here: its bytes and flags. -/
def State.collResult (s : State) (g : Group) (c : Card) (j : JobSpec) : Option (List Byte × BitVec 5) :=
  if (s.collOf j.gid).isNone then none
  else
    ((s.collElems g c j).mapM id).map (fun l =>
      (l.flatMap (fun (x : Nat × BitVec 5) => natToBytes (c.es j) x.1), l.foldl (fun f x => f ||| x.2) 0))

/-! ### Faults (R379) -/

/-- After a fault each sector of DST holds its old bytes or its final ones: a free choice for each whose final bytes are
known here. (DEDUCED, log 48.) -/
def State.faultWrite (s : State) (e : BufEntry) (a : Nat) (bs : List (Option Byte)) : State :=
  let lo := a / sectorBytes
  let hi := (a + bs.length + sectorBytes - 1) / sectorBytes
  let s1 := (List.range (hi - lo)).foldl (fun (s : State) k =>
    let from_ := max a ((lo + k) * sectorBytes) - a
    let to_ := min (a + bs.length) ((lo + k + 1) * sectorBytes) - a
    match Config.freeBool (s.draws + k), ((bs.drop from_).take (to_ - from_)).mapM id with
    | true, some part =>
      let (l, o) := e.loc s.core.num (a + from_)
      (match l with
       | .mem map => (s.homeReady map o part.length).devWrite l o part
       | .loc _ => s.devWrite l o part)
    | true, none => s
    | false, _ => s) s
  { s1 with draws := s1.draws + (hi - lo) }

/-- The live job of a group faults with a cause (R250, R379): FOFF 0. Of a fault of its own the others are told, whose jobs of
that step fault; this member's context runs on, ACTIVE (R372). -/
def State.faultJob (s : State) (gid cause : Nat) (own : Bool) : State :=
  match s.groupOf gid, s.jobAt gid with
  | some g, some (k, i, c) =>
    let s1 := s.atCore k.cluster k.num (fun s =>
      let s0 := match c.job, c.dstEnt with
        | some j, some e =>
          let bs := (s.collElems g c j).flatMap (fun (x : Option (Nat × BitVec 5)) =>
            match x with
            | some (v, _) => (natToBytes (c.es j) v).map some
            | none => List.replicate (c.es j) none)
          if c.started && !(s.collOf gid).any CollJob.written && !s.rangeHeld e c.card.dst.cursor bs.length then
            s.faultWrite e c.card.dst.cursor bs
          else s
        | some _, none => s
        | none, _ => s
      s0.finishCard i cause 0 0)
    let s2 := { s1 with coll := s1.coll.filter (fun (x : CollJob) => x.gid != gid) }
    match own, c.job with
    | true, some j => s2.sendFabric [.jobFault gid g.entry.rank j.step]
    | true, none => s2
    | false, _ => s2
  | some _, none => s
  | none, _ => s

/-- Whether a member has been MISSING beyond WAITLIM. -/
def State.missingLong (s : State) (g : Group) (rank : Nat) : Bool :=
  match g.members.find? (fun (m : Member) => m.rank == rank) with
  | some m => m.st == .missing && g.entry.waitlim != 0 && decide (m.since + g.entry.waitlim * 2 ^ 20 < s.ticks)
  | none => false

/-- The highest-ranked event that ends a live job now: a mismatch, a fault of a member, this package's own among them, whose
job cannot complete, a peer lost, a step behind a member that has not reported this step written. (DEDUCED, log 49.) -/
def State.jobCause (s : State) (gid : Nat) : Option Nat :=
  match s.groupOf gid, s.jobAt gid, s.collOf gid with
  | some g, some (_, _, c), some x =>
    (match c.job with
     | none => none
     | some j =>
       let d := c.decl j
       let ranks := List.range g.entry.g
       if x.decls.any (fun (y : Nat × CollDecl) => y.2.step == d.step && y.2 != d) then some 0x15
       else if x.fault || ranks.any (fun r => g.stateOf r == .faulted) then some 0x13
       else if ranks.any (fun r => s.missingLong g r) then some 0x12
       else if x.steps.any (fun (y : Nat × Nat) => decide (d.step < y.2) && !x.reports.contains y.1) then some 0x14
       else none)
  | some _, some _, none => none
  | some _, none, _ => none
  | none, _, _ => none

/-- COLL_JOB_FAULT (R379). -/
def execCollJobFault (gid cause : Nat) (s : State) : Out :=
  .next (if s.jobCause gid = some cause then s.faultJob gid cause false else s)

/-- WAITLIM_EXPIRE (R379). -/
def execWaitlimExpire (gid rank : Nat) (s : State) : Out :=
  moduleOnly (fun s =>
    match s.groupOf gid with
    | some g => if s.missingLong g rank && s.jobCause gid == some 0x12 then s.faultJob gid 0x12 false else s
    | none => s) s

/-! ### The start of a card (R248, R250, R375) -/

/-- A job stages its source at its start, once: the elements become its own segments and leave for the members. A port
fault or an uncorrectable sector of the source faults it. -/
def State.stageJob (s : State) (c : Card) (j : JobSpec) : State :=
  match s.groupOf j.gid, s.collOf j.gid with
  | some g, some x =>
    if x.map.any (fun (p : Nat × Nat) => p.1 == g.entry.rank) then s
    else
      let (l, a) := c.srcEnt.loc s.core.num c.card.src.cursor
      let s0 := s.flushSrc c
      if !s0.portOk c.srcEnt l a c.card.rbytes then s0.faultJob j.gid 0x07 true
      else if s0.rangePoisoned l a c.card.rbytes then (s0.detectAt c (s0.badSpan l a c.card.rbytes)).faultJob j.gid 0x11 true
      else
        let es := c.es j
        let n := bytesToNat (s0.devRead l a c.card.rbytes)
        let own := (List.range (c.elems j)).map (fun e => natField n (8 * es * e) (8 * es))
        let s1 := s0.modColl j.gid (fun x =>
          (List.range (segCount es own.length)).foldl (fun (x : CollJob) k => x.add g.entry.rank k (segOf es k own)) x)
        s1.sendAll g c j
  | some _, none => s
  | none, _ => s

/-- CARD_START (R248, R250): a card whose footprint is not resident is held and starts once it is; a job stages its
source. -/
def execCardStart (k : Nat) (s : State) : Out :=
  if s.cardReady k then
    match s.card k with
    | none => .next s
    | some c =>
      if s.cardHeld c then .next (s.modCard k (fun c => { c with held := true }))
      else
        let s1 := s.modCard k (fun c => { c with held := false, started := true })
        match c.job with
        | some j => .next (s1.stageJob { c with started := true } j)
        | none => .next s1
  else .next s

/-! ### Segments and members (R372, R378, R420) -/

/-- This package's member of a group answers a peer with its state (R372). -/
def State.answerState (s : State) (g : Group) : State :=
  s.send [.memberState g.entry.gid g.entry.rank (g.stateOf g.entry.rank)]

/-- The step of a group's outstanding job, of a live or a saved card. -/
def State.jobStep (s : State) (gid : Nat) : Option Nat :=
  ((s.core :: s.cores).flatMap (fun (k : Core) => k.cards) ++
    s.allCtx.flatMap (fun (c : Ctx) => (c.saved.map (fun (v : Saved) => v.cards)).getD [])).findSome? (fun (c : Card) =>
      c.jobStep gid)

/-- A member announces a step above that of the outstanding job, or of a job to come (R379). -/
def State.announce (s : State) (g : Group) (rank step : Nat) : State :=
  let gid := g.entry.gid
  match s.jobStep gid with
  | some n =>
    if n < step then
      s.modColl gid (fun x => { x with steps := x.steps.filter (fun p => p.1 != rank) ++ [(rank, step)] })
    else s
  | none => s.modGroup gid (fun x => { x with ahead := x.ahead.filter (fun p => p.1 != rank) ++ [(rank, step)] })

/-- A segment that comes before this package's job of its step is kept for it: its sender has a job of that step again. -/
def State.keepEarly (s : State) (g : Group) (rank seg : Nat) (decl : CollDecl) (vals : List Nat) : State :=
  s.modGroup g.entry.gid (fun x => { x with
    early := if x.early.any (fun y => y.1 == (rank, seg) && y.2.1 == decl) then x.early
      else x.early ++ [((rank, seg), decl, vals)]
    failed := x.failed.filter (fun p => p != (rank, decl.step)) })

/-- COLL_SEGMENT_RECEIVE (R378, R420): a segment for the outstanding job is added once; one that comes before its job is
kept for it; a stopped member answers PAUSED to one of its job's step and does not accept it. -/
def execCollSegmentReceive (gid rank seg : Nat) (decl : CollDecl) (vals : List Nat) (s : State) : Out :=
  moduleOnly (fun s =>
    match s.groupOf gid with
    | none => s
    | some g =>
      if g.entry.g ≤ rank ∨ rank = g.entry.rank then s
      else
        match s.collOf gid, s.jobAt gid with
        | none, _ => (s.keepEarly g rank seg decl vals).announce g rank decl.step
        | some _, none =>
          if s.jobStep gid = some decl.step then s.answerState g
          else (s.keepEarly g rank seg decl vals).announce g rank decl.step
        | some _, some (_, _, c) =>
          (match c.job with
           | none => s
           | some j =>
             if decl.step < j.step then s
             else if j.step < decl.step then (s.keepEarly g rank seg decl vals).announce g rank decl.step
             else
               let s1 := s.modColl gid (fun x => { x with
                 decls := x.decls.filter (fun (y : Nat × CollDecl) => y.1 != rank) ++ [(rank, decl)] })
               if decl = c.decl j ∧ seg < segCount (c.es j) (c.elems j) ∧
                   vals.length = (segOf (c.es j) seg (List.replicate (c.elems j) 0)).length then
                 s1.modColl gid (fun x => x.add rank seg vals)
               else s1)) s

/-- Whether this package's context of a group is still to be restored after a hibernation: it answers once it is (R401). -/
def State.restoringIn (s : State) (asid : Nat) : Bool :=
  s.allCtx.any (fun (c : Ctx) => c.place.asid == asid && c.saved.any (fun (v : Saved) => v.dark))

/-- The phase of a job's exchange: before its source is staged, while segments are exchanged, once DST is written (R420). -/
def CollJob.phase (x : CollJob) (rank : Nat) : Nat :=
  if x.written then 2 else if x.map.any (fun p => p.1 == rank) then 1 else 0

/-- A member has answered a RESUME of this one (R401). -/
def State.answered (s : State) (gid rank : Nat) : State :=
  s.modColl gid (fun x => { x with awaits := x.awaits.filter (fun r => r != rank) })

/-- The segments of the live job of a step that a member lacks leave for it. -/
def State.resend (s : State) (g : Group) (rank step : Nat) (lacks : Nat → Bool) : State :=
  match s.jobAt g.entry.gid with
  | some (_, _, c) =>
    (match c.job with
     | some j => if j.step = step then s.sendSegments g c j rank lacks else s
     | none => s)
  | none => s

/-- RESUME (R378, R401, R420): a member resumes with a step and its received map; this member, unless its own context is still
to be restored, answers with its state and, for the live job of that step, its own map and phase, and sends the segments
that the other lacks. -/
def execResumeMember (gid rank step : Nat) (map : List (Nat × Nat)) (s : State) : Out :=
  moduleOnly (fun s =>
    match s.groupOf gid with
    | none => s
    | some g =>
      if g.entry.g ≤ rank ∨ rank = g.entry.rank then s
      else
        let s0 := (g.moduleOf rank).foldl State.heard (s.modGroup gid (fun x => x.setMember rank .active s.ticks))
        let s1 := (s0.answered gid rank).announce g rank step
        if s1.restoringIn g.entry.asid then s1
        else
          let s2 := s1.answerState g
          match s2.collOf gid, s2.jobAt gid with
          | some x, some (_, _, c) =>
            if (c.job.map (fun j => j.step)) = some step then
              (s2.send [.rejoined gid g.entry.rank rank step x.map (x.phase g.entry.rank)]).resend g rank step
                (fun k => !map.contains (g.entry.rank, k))
            else s2
          | some _, none => s2
          | none, _ => s2) s

/-- A member's state is held here; one that is PAUSED in the outstanding job's step has not accepted what was under way to
it, which is unsent again; to one that is ACTIVE what is unsent leaves (R372, R420). -/
def State.holdState (s : State) (g : Group) (rank : Nat) (st : MState) : State :=
  let gid := g.entry.gid
  let step := (s.jobStep gid).getD 0
  let s1 := ((s.modGroup gid (fun x => x.setMember rank st s.ticks)).answered gid rank).modColl gid (fun x =>
    { x with
      fault := x.fault || st == .faulted
      sent := if st == .paused step then x.sent.filter (fun p => p.1 != rank) else x.sent })
  if st == .active then
    s1.resend g rank step (fun k => !(s1.collOf gid).any (fun x => x.sent.contains (rank, k)))
  else s1

/-- What a peer says of a member takes effect: a state is held here, a question is answered, a written DST counts in the
completion round of the job of its step, a fault ends it, and an answer to RESUME brings what the other lacks; a report
that comes before this package's job of its step is kept for it. -/
def State.memberSays (s : State) (g : Group) (rank : Nat) (m : MemberMsg) : State :=
  let gid := g.entry.gid
  let later := fun (step : Nat) => match s.jobStep gid with
    | some n => decide (n < step)
    | none => g.lastStep.all (fun n => decide (n < step))
  match m with
  | .state st => s.holdState g rank st
  | .ask => if s.restoringIn g.entry.asid then s else s.answerState g
  | .written step =>
    if s.jobStep gid = some step then s.modColl gid (fun x => { x with reports := (x.reports ++ [rank]).eraseDups })
    else if later step then s.modGroup gid (fun x => { x with wrote := (x.wrote ++ [(rank, step)]).eraseDups })
    else s
  | .jobFault step =>
    if s.jobStep gid = some step then s.modColl gid (fun x => { x with fault := true })
    else if later step then s.modGroup gid (fun x => { x with
      wrote := x.wrote.filter (fun p => p != (rank, step)), failed := (x.failed ++ [(rank, step)]).eraseDups })
    else s
  | .rejoined step map _ => (s.answered gid rank).resend g rank step (fun k => !map.contains (g.entry.rank, k))

/-- MEMBER_STATE_REPORT (R372, R376): a peer's link engine reports; no member reports itself MISSING. -/
def execMemberStateReport (gid rank : Nat) (m : MemberMsg) (s : State) : Out :=
  moduleOnly (fun s =>
    match s.groupOf gid with
    | some g => if rank < g.entry.g ∧ rank ≠ g.entry.rank ∧ m ≠ .state .missing then
        (g.moduleOf rank).foldl State.heard (s.memberSays g rank m) else s
    | none => s) s

/-- MEMBER_MISSING (R372): a member has not answered within 20 µs. -/
def execMemberMissing (gid rank : Nat) (s : State) : Out :=
  moduleOnly (fun s =>
    match s.groupOf gid with
    | some g => if rank < g.entry.g ∧ rank ≠ g.entry.rank ∧ g.stateOf rank ≠ .missing then
        (s.modGroup gid (fun x => x.setMember rank .missing s.ticks)).lose (g.moduleOf rank) else s
    | none => s) s

/-! ### Completion (R376) -/

/-- Whether this member may write its DST: every other member is ACTIVE and, after a stop, has answered (R401), every
contribution is here, and no event ends the job. -/
def State.jobWrites (s : State) (gid : Nat) : Bool :=
  match s.groupOf gid, s.jobAt gid with
  | some g, some (_, _, c) =>
    c.started && !(s.collOf gid).any CollJob.written && (s.collOf gid).all (fun x => x.awaits.isEmpty) &&
    (List.range g.entry.g).all (fun r => r == g.entry.rank || g.stateOf r == .active) && (s.jobCause gid).isNone &&
    (match c.job, c.dstEnt with
     | some j, some e => (s.collResult g c j).isSome && !s.rangeHeld e c.card.dst.cursor (collOut j.op c.card.rbytes g.entry.g)
     | some _, none => false
     | none, _ => false)
  | some _, none => false
  | none, _ => false

/-- Whether the completion round has ended: this member has written its DST, and every other one has reported so and is
ACTIVE. -/
def State.jobDone (s : State) (gid : Nat) : Bool :=
  match s.groupOf gid, s.jobAt gid, s.collOf gid with
  | some g, some _, some x =>
    x.written && x.awaits.isEmpty && (s.jobCause gid).isNone &&
    (List.range g.entry.g).all (fun r => r == g.entry.rank || (x.reports.contains r && g.stateOf r == .active))
  | some _, some _, none => false
  | some _, none, _ => false
  | none, _, _ => false

/-- The output is written at its home, and this member reports so. -/
def State.writeJob (s : State) (g : Group) (c : Card) (j : JobSpec) (e : BufEntry) (bs : List Byte) : State :=
  let (l, a) := e.loc s.core.num c.card.dst.cursor
  if !s.portOk e l a bs.length then s.faultJob j.gid 0x07 true
  else
    let s1 := match l with
      | .mem map => (s.homeReady map a bs.length).devWrite l a bs
      | .loc _ => s.devWrite l a bs
    (s1.modColl j.gid (fun x => { x with written := true })).sendFabric [.written j.gid g.entry.rank j.step]

/-- The job ends with its flags: its done bit is set, the group's last completed step moves, and its state is no longer
held. -/
def State.endJob (s : State) (g : Group) (i : Nat) (j : JobSpec) (fl : BitVec 5) : State :=
  let s1 := s.finishCard i 0 fl 0
  { s1 with coll := s1.coll.filter (fun (x : CollJob) => x.gid != j.gid) }.modGroup g.entry.gid
    (fun x => { x with lastStep := some j.step })

/-- COLL_JOB_COMPLETE (R376): DST is written and reported; once every member has reported, the done bit is set. -/
def execCollJobComplete (gid : Nat) (s : State) : Out :=
  match s.groupOf gid, s.jobAt gid with
  | some g, some (k, i, c) =>
    if s.jobWrites gid || s.jobDone gid then
      .next (s.atCore k.cluster k.num (fun s =>
        match c.job, c.dstEnt with
        | some j, some e =>
          (match s.collResult g c j with
           | some (bs, fl) =>
             let s1 := if s.jobWrites gid then s.writeJob g c j e bs else s
             if s1.jobDone gid then s1.endJob g i j fl else s1
           | none => s)
        | some _, none => s
        | none, _ => s))
    else .next s
  | some _, none => .next s
  | none, _ => .next s

/-! ### `kcan` and stopped destinations (R251, R382) -/

/-- A card that is cancelled stops at a sector boundary of its write order that nothing here fixes; one that has not
started, or is held, moves no further. (DESIGN CHOICE, log 24.) -/
def State.cancelCard (s : State) (k : Nat) (c : Card) : State :=
  let (d, s1) := s.draw
  s1.runCard k (some (if c.started && !s.cardHeld c then Config.freeNat d % c.sectors c.row else 0, 16))

/-- `kcan` (R251, R379): the card faults with CAUSE 0x10, a job with that of a higher-ranked event where there is one. -/
def execKcan (db : BitVec 6) (s : State) : Out :=
  match s.cardOfDone db.toNat with
  | none => .next s
  | some k =>
    match s.card k with
    | none => .next s
    | some c =>
      match c.kind with
      | .coll gid _ _ _ _ => .next (s.faultJob gid ((s.jobCause gid).getD 0x10) true)
      | .copy _ => .next (s.cancelCard k c)
      | .fill => .next (s.cancelCard k c)
      | .mcast _ _ => .next (s.cancelCard k c)

/-- Whether the holder of an extent of a range has been away for longer than 2^20 x 256 reference ticks (R382). -/
def State.rangeMissing (s : State) (e : BufEntry) (a n : Nat) : Bool :=
  !e.isLocal && (extentsOf a n).any (fun x =>
    match s.extent e.extmap x with
    | some y => y.state == .remote &&
        s.away.any (fun (p : Nat × Nat) => p.1 == y.peer && decide (p.2 + 2 ^ 28 < s.ticks))
    | none => false)

/-- The cause at which destination `i` of a running multicast stops now (R382): a port fault or an uncorrectable sector of
its next sector, or a holder that has been MISSING too long. -/
def State.destCause (s : State) (c : Card) (i : Nat) : Nat :=
  match c.ranges[i + 1]? with
  | none => 0
  | some r =>
    if s.cardHeld c then 0
    else if s.rangeMissing r.1 r.2.1 r.2.2 then 0x12
    else if s.destHeld c i then 0
    else s.chunkCause c (c.destAt i) c.row (c.movedAt i)

/-- KMC_DEST_STOP (R382): a destination of a running multicast stops at the sector boundary that it has reached; its written
sectors stay. -/
def execKmcDestStop (k dest cause : Nat) (s : State) : Out :=
  match s.card k with
  | none => .next s
  | some c =>
    match c.kind with
    | .mcast _ _ =>
      if c.started && c.open_.contains dest && cause != 0 && s.destCause c dest == cause then
        let s1 := s.detectAt c (s.stopReads c (some (c.movedAt dest, cause)))
        .next ((s1.flushLate k dest).modCard k (fun c => { c with stops := c.stops ++ [(dest, cause)] }))
      else .next s
    | .copy _ => .next s
    | .fill => .next s
    | .coll _ _ _ _ _ => .next s

end Sys2Proof.Machine
end

