-- ==== Sys2Proof/Machine/Tenancy.lean ====
section
/-! DEFINITION. Partitions: TDISP, teardown, the key store, SPDM, locked items and write tokens, migration, buffer-space
entries (R199, R200, R318, R346 to R361, R400). -/

namespace Sys2Proof

/-! ### Locked items and tokens (R352, R354) -/

/-- The locked items numbered in the order of R352. -/
def LockedItem.num : LockedItem → Nat
  | .clusters => 0 | .asids => 1 | .deal => 2 | .key k => 3 + k.toNat | .retry => 7 | .sched => 8

/-- The numbers of a value, for its digest. -/
def LockedValue.nums : LockedValue → List Nat
  | .clusters l w => (if w then 1 else 0) :: l
  | .asids l => l
  | .deal l => l.flatMap (fun (x : Nat × Nat × Nat) => [x.1, x.2.1, x.2.2])
  | .key v => [v]
  | .retry n => [n]
  | .sched a b => [a, b]

/-- The item that a value is for; the four key slots share one form. -/
def LockedValue.fits (v : LockedValue) (i : LockedItem) : Bool :=
  match v, i with
  | .clusters _ _, .clusters => true | .asids _, .asids => true | .deal _, .deal => true | .key _, .key _ => true
  | .retry _, .retry => true | .sched _ _, .sched => true
  | .clusters _ _, _ => false | .asids _, _ => false | .deal _, _ => false | .key _, _ => false
  | .retry _, _ => false | .sched _ _, _ => false

/-- The fields of a token that its MAC covers. -/
def Token.fields (t : Token) : List Nat := [t.item, t.part, t.mgen, t.seq, t.vhash]

/-- The digest of a value as a token holds it. -/
def LockedValue.vhash (v : LockedValue) : Nat := Config.sha512 v.nums % 2 ^ 256

end Sys2Proof

namespace Sys2Proof.Machine

open Sys2Proof

/-! ### The key store (R350) -/

/-- What a waiting write changes: a space, a partition's items, a port's table. Writes of one target keep their order. -/
def Deferred.target : Deferred → Nat × Nat
  | .entry a _ _ => (0, a) | .direct n _ _ => (1, n) | .commit t _ => (1, t.part) | .deal c p _ => (2, c * 2 ^ 16 + p)

def Deferred.isCommit : Deferred → Bool
  | .commit _ _ => true | .entry _ _ _ => false | .direct _ _ _ => false | .deal _ _ _ => false

/-- The lowest FREE index. -/
def State.freeKey (s : State) : Option Nat :=
  ((List.range 4096).drop 1).find? (fun k => !s.keys.any (fun (x : KeyRec) => x.index == k))

/-- A fresh key bound to a partition: its index. (DEDUCED, log 14.) -/
def State.newKey (s : State) (part : Nat) : Option (Nat × State) :=
  s.freeKey.map (fun k => (k, { s with keys := s.keys ++ [⟨k, .live part, s.nextId⟩], nextId := s.nextId + 1 }))

/-- The partition that a key's state names. -/
def KeyState.part : KeyState → Option Nat
  | .live p => some p
  | .sealed p => some p
  | .held p => some p
  | .retired => none

/-- Keys are zeroised and their indices FREE again (R349, R359). -/
def State.dropKeys (s : State) (p : KeyState → Bool) : State :=
  { s with keys := s.keys.filter (fun (k : KeyRec) => !p k.st) }

/-- The keys of some state are RETIRED: zeroised, their indices FREE once no valid entry names them (R350, R359). -/
def State.retireKeys (s : State) (p : KeyState → Bool) : State :=
  { s with keys := s.keys.map (fun (k : KeyRec) => if p k.st then { k with st := .retired } else k) }

/-- Whether a valid entry of any space names a key. -/
def State.keyNamed (s : State) (index : Nat) : Bool :=
  s.spaces.any (fun sp => sp.entries.any (fun (p : Nat × BufEntry) => p.2.valid && p.2.key == index))

/-- The key of a buffer that is gone or has a new key is RETIRED; it is zeroised, and its index FREE, at the end of a cycle in
which no valid entry names it (R350). (DESIGN CHOICE, log 109.) -/
def State.dropKey (s : State) (index : Nat) : State :=
  { s with keys := s.keys.map (fun (k : KeyRec) => if k.index = index then { k with st := .retired } else k) }

/-! ### Partitions (R318, R346, R353) -/

/-- The partition that an ASID is assigned to. -/
def State.partOfAsid (s : State) (asid : Nat) : Option Nat :=
  (s.parts.find? (fun (p : Part) => p.asids.contains asid)).map (fun p => p.num)

/-- The partition's generation steps; its entries of the verified-image cache go (R313, R353). -/
def State.stepGen (s : State) (n : Nat) : State :=
  { s with verified := s.verified.filter (fun (v : Verified) => v.part != n) }.modPart n
    (fun p => { p with mgen := p.mgen + 1 })

/-- Clusters take the world of the partition they are assigned to (R346). -/
def State.setWorld (s : State) (n : Nat) : State :=
  let w := (s.partOf n).tdi.secure
  let f := fun (c : Cluster) => if c.part == n then { c with world := w } else c
  { s with clus := f s.clus, clusters := s.clusters.map f }

/-- The device addresses of the extent maps of a partition's buffers. -/
def State.partMaps (s : State) (asids : List Nat) : List Nat :=
  (s.spaces.flatMap (fun sp => sp.entries.map (·.2))).filterMap (fun (e : BufEntry) =>
    if e.valid && !e.isLocal && asids.contains e.owner then some e.extmap else none)

/-- WORLD of a partition's buffers, in their entries and in the frame records of their extents (R205, R346). -/
def State.setBufferWorld (s : State) (asids : List Nat) (w : Bool) : State :=
  let s1 := s.mapEntries (fun _ _ e => if asids.contains e.owner then { e with world := w } else e)
  { s1 with exts := s1.exts.map (fun (x : Extent) => if asids.contains x.owner then { x with world := w } else x) }

/-- Fresh keys for the owned buffers of a partition's spaces; none when the key store has no FREE index left.
(DESIGN CHOICE, log 15.) -/
def rekey (part : Nat) (asids : List Nat) : List (Nat × Nat) → State → Option State
  | [], s => some s
  | (a, i) :: r, s =>
    match (s.spaceOf a).entry i with
    | none => rekey part asids r s
    | some e =>
      if e.owner = a then
        match s.newKey part with
        | none => none
        | some (k, s1) =>
          rekey part asids r ((if e.key = 0 then s1 else s1.dropKey e.key).mapEntries
            (fun b j x => if e.same a i x b j then { x with key := k } else x))
      else rekey part asids r s

/-- Buffers of ASIDs that go back to partition 0: they get its world and its key; those of a secure partition are lost, as in
its teardown (R346). (DESIGN CHOICE, log 108.) -/
def State.freeBuffers (s : State) (asids : List Nat) (secure : Bool) : State :=
  let old := ((s.spaces.flatMap (fun sp => sp.entries.map (·.2))).filterMap (fun (e : BufEntry) =>
    if e.valid && asids.contains e.owner && e.key != 0 then some e.key else none)).eraseDups
  (old.foldl State.dropKey (s.setBufferWorld asids false)).mapEntries (fun _ _ e =>
    if asids.contains e.owner then { e with key := 0, valid := e.valid && !secure } else e)

/-- The valid entries of a partition's spaces: ASID and index. -/
def State.partEntries (s : State) (asids : List Nat) : List (Nat × Nat) :=
  (s.spaces.filter (fun sp => asids.contains sp.asid)).flatMap (fun sp =>
    sp.entries.filterMap (fun (p : Nat × BufEntry) => if p.2.valid then some (sp.asid, p.1) else none))

/-! ### Teardown (R349) -/

/-- The storage of cores that last belonged to ASIDs is zeroed with its tags. -/
def Core.scrubAsids (k : Core) (asids : List Nat) : Core :=
  let mine := fun (o : Option Nat) => match o with
    | some a => asids.contains a
    | none => false
  { k with
    tiles := vmap (fun (t : Tile) => if mine t.asid then { t with val := 0, taint := 0 } else t) k.tiles
    la := k.la.filter (fun (x : Host.Cell) => !mine (vget k.bankAsid (x.1 / bankBytes) none))
    laTags := k.laTags.filter (fun g => !mine (vget k.bankAsid (16 * g / bankBytes) none))
    grist := k.grist.filter (fun (x : Host.Cell) => !mine (vget k.gristAsid (x.1 % 262144 / 4096) none))
    l1 := k.l1 }

/-- Lines of buffers leave every cache without writeback: L1s, cluster caches, L2 slices and memory-side caches. -/
def State.dropLines (s : State) (maps : List Nat) : State :=
  let fk := fun (k : Core) => { k with l1 := k.l1.filter (fun (x : Line) => !maps.contains x.map) }
  let fc := fun (c : Cluster) => { c with lines := c.lines.filter (fun (x : Line) => !maps.contains x.map) }
  { s with
    core := fk s.core, cores := s.cores.map fk, clus := fc s.clus, clusters := s.clusters.map fc
    l2 := s.l2.filter (fun p => !maps.contains p.1), msc := s.msc.filter (fun p => !maps.contains p.1) }

/-- A record of a torn-down partition leaves without a completion entry; the journal closes its BEGIN entry. -/
def State.closeBegin (s : State) (journal stream asid : Nat) (tag : W64) : State :=
  if s.ljClosed journal then s else s.ljPut 3 stream asid tag 0 0 journal

/-- The cards of a launch are cancelled (R251): each stops at a sector boundary, what it has withheld performs. -/
def State.cancelCards (s : State) (id : Nat) : State :=
  (s.core :: s.cores).foldl (fun (s : State) (k : Core) => s.atCore k.cluster k.num (fun t =>
    (List.range t.core.cards.length).reverse.foldl (fun (t : State) i =>
      match t.card i with
      | some c => if c.launch == id && c.job.isNone then t.cancelCard i c else t
      | none => t) t)) s

/-- A launch of a torn-down partition leaves: its cards are cancelled, its contexts end as frozen (R349). -/
def State.abandon (s : State) (l : Launch) : State :=
  ((s.closeBegin l.journal l.stream l.lrec.asid l.lrec.tag).cancelCards l.id).dropLaunch l.id

/-- A launch sequence of a torn-down partition ends without an entry. -/
def State.abandonSeq (s : State) (n : Nat) : State :=
  match (s.streamOf n).begun with
  | some b =>
    (s.closeBegin b.1 n (recBytes b.2 2 2) (BitVec.ofNat 64 (recBytes b.2 80 8))).modStream n
      (fun st => { st with begun := none })
  | none => s

/-- The ASID of a graph's nodes. -/
def Graph.asid (g : Graph) : Nat := ((g.nodes.head?).map (fun (n : GNode) => n.lrec.asid)).getD 0

/-- The answer to a held host request that is never performed. -/
def HeldHost.refusal (h : HeldHost) : List Msg :=
  match h.data with
  | none => [.unsupported h.req.fn]
  | some _ => []

/-- The teardown of a partition, in the order of R349; the TDI's state is set after it. -/
def State.teardown (s : State) (n : Nat) : State :=
  let asids := (s.partOf n).asids
  let maps := s.partMaps asids
  let s1 := (s.abandonSeq n).modStream n (fun st => { st with enable := false, state := 3, waiting := false })
  let s1a := (s1.launches.filter (fun (l : Launch) => l.stream == n)).foldl State.abandon s1
  let s2 := (s1a.graphs.filter (fun (g : Graph) => g.stream == n)).foldl
    (fun (s : State) (g : Graph) => s.closeBegin g.journal n g.asid g.tag) s1a
  let s3 := { s2 with
    graphs := s2.graphs.filter (fun (g : Graph) => g.stream != n)
    heldHost := s2.heldHost.filter (fun (h : HeldHost) => h.req.fn != n)
    outbox := s2.outbox ++ (s2.heldHost.filter (fun (h : HeldHost) => h.req.fn == n)).flatMap HeldHost.refusal }
  let s4 := s3.dropLines maps
  let s5 := { s4 with core := s4.core.scrubAsids asids, cores := s4.cores.map (fun (k : Core) => k.scrubAsids asids) }
  let s6 := s5.mapEntries (fun a _ e => if asids.contains a || asids.contains e.owner then { e with valid := false } else e)
  (s6.dropKeys (fun k => k == KeyState.live n || k == KeyState.held n)).modPart n (fun p => { p with held := none, wrapKey := 0, attested := false })

/-- A TDI's state after a transition, with the worlds that follow from it. -/
def State.setTdi (s : State) (n : Nat) (t : TdiState) : State :=
  let s1 := (s.modPart n (fun p => { p with tdi := t })).setWorld n
  s1.setBufferWorld (s1.partOf n).asids t.secure

/-- A TDI in CONFIG_LOCKED or RUN moves to ERROR through its teardown (R348). -/
def State.failTdi (s : State) (n : Nat) : State :=
  if (s.partOf n).tdi.secure then (s.teardown n).setTdi n .error else s

/-! ### TDISP (R347, R348, R400) -/

/-- Functions 1..63 have a TDI; its messages come on the tenant's session. (DESIGN CHOICE, log 42.) -/
def State.tdiSession (s : State) (n : Nat) : Bool := decide (1 ≤ n) && decide (n < 64) && (s.partOf n).session

/-- A TDISP request that arrives on the session of a function's tenant; the host ports take none while the module hibernates
(R386). -/
def tdispRequest (n : Nat) (f : State → State) (s : State) : Out :=
  if !s.hostOpen then .next s
  else if s.tdiSession n then .next (f s) else .next (s.send [.tdispError n])

/-- GET_TDISP_VERSION (R347): version 1.0. -/
def execGetTdispVersion (n : Nat) (s : State) : Out := tdispRequest n (fun s => s.send [.tdispVersion n 0x10]) s

/-- GET_TDISP_CAPABILITIES (R347). -/
def execGetTdispCapabilities (n : Nat) (s : State) : Out := tdispRequest n (fun s => s.send [.tdispCaps n]) s

/-- The buffers bound to a TDI: ASID, index, LENGTH and KEY. -/
def State.boundBuffers (s : State) (n : Nat) : List (Nat × Nat × Nat × Nat) :=
  (s.partEntries (s.partOf n).asids).filterMap (fun (p : Nat × Nat) =>
    ((s.spaceOf p.1).entry p.2).map (fun e => (p.1, p.2, e.length, e.key)))

/-- The host windows of a function: port, host address and length (R362). -/
def State.windowsOf (s : State) (n : Nat) : List (Nat × Nat × Nat) :=
  (s.hdm.filter (fun (d : Hdm) => d.fn == n)).filterMap (fun (d : Hdm) =>
    ((s.spaceOf d.asid).entry d.index).map (fun e => (d.port, d.base, e.length)))

/-- GET_DEVICE_INTERFACE_REPORT (R347): the stream's registers, the host windows and the bound buffers. -/
def execGetDeviceInterfaceReport (n : Nat) (s : State) : Out :=
  tdispRequest n (fun s => s.send [.tdispReport n n (s.windowsOf n) (s.boundBuffers n)]) s

/-- GET_DEVICE_INTERFACE_STATE (R347, R360). -/
def execGetDeviceInterfaceState (n : Nat) (s : State) : Out :=
  tdispRequest n (fun s => s.send [.tdispState n (s.partOf n).tdi (s.partOf n).lost]) s

/-- The image-wrapping key that LOCK creates (R357) and fresh keys for every buffer; none where the key store is full. -/
def State.lockKeys (s : State) (n : Nat) : Option State :=
  match s.newKey n with
  | none => none
  | some (w, s1) =>
    rekey n (s.partOf n).asids (s.partEntries (s.partOf n).asids)
      (s1.modPart n (fun p => { p with wrapKey := w }))

/-- The image-wrapping key leaves only wrapped to the tenant, under its session's key (R357). -/
def State.exportImageKey (s : State) (n : Nat) : State :=
  let p := s.partOf n
  s.send ((s.keySerial p.wrapKey).toList.map (fun z => .imageKey n (Config.wrap p.sess z)))

/-- LOCK_INTERFACE_REQUEST (R348, R357): the locked items are frozen, so direct writes of them that wait are gone. -/
def execLockInterfaceRequest (n : Nat) (s : State) : Out :=
  tdispRequest n (fun s =>
    match (s.partOf n).tdi, s.lockKeys n with
    | .unlocked, some s1 =>
      let s2 := { s1 with deferred := s1.deferred.filter (fun d => d.target != (1, n) || d.isCommit) }
      (((s2.setTdi n .locked).stepGen n).send [.tdispOk n]).exportImageKey n
    | .unlocked, none => s.send [.tdispError n]
    | .locked, _ => s.send [.tdispError n]
    | .run, _ => s.send [.tdispError n]
    | .error, _ => s.send [.tdispError n]) s

/-- START_INTERFACE_REQUEST (R348, R400): the keys of a TDI held at a restart become LIVE. -/
def execStartInterfaceRequest (n : Nat) (s : State) : Out :=
  tdispRequest n (fun s =>
    match (s.partOf n).tdi with
    | .locked =>
      let s1 := { s with keys := s.keys.map (fun (k : KeyRec) => if k.st == KeyState.held n then { k with st := .live n } else k) }
      (((s1.modPart n (fun p => { p with held := none })).setTdi n .run).stepGen n).send [.tdispOk n]
    | .unlocked => s.send [.tdispError n]
    | .run => s.send [.tdispError n]
    | .error => s.send [.tdispError n]) s

/-- The launches of a TDI held at a restart end FAILED with CAUSE 0x14 (R400). -/
def State.failHeld (s : State) (n : Nat) : State :=
  if (s.partOf n).held.isSome then
    (s.launches.filter (fun (l : Launch) => l.stream == n)).foldl (fun s l => s.endLaunch l 1 0x14) s
  else s

/-- STOP_INTERFACE_REQUEST (R348, R349, R400). -/
def execStopInterfaceRequest (n : Nat) (s : State) : Out :=
  tdispRequest n (fun s =>
    match (s.partOf n).tdi with
    | .locked => (((s.failHeld n).teardown n).setTdi n .unlocked).send [.tdispOk n]
    | .run => (((s.failHeld n).teardown n).setTdi n .unlocked).send [.tdispOk n]
    | .error => (s.setTdi n .unlocked).send [.tdispOk n]
    | .unlocked => s.send [.tdispError n]) s

/-- TDI_ERROR (R348): an IDE failure, an integrity error or a refused write of a locked item, or the end of the session,
moves a TDI in CONFIG_LOCKED or RUN to ERROR. -/
def execTdiError (n : Nat) (why : TdiErr) (s : State) : Out :=
  if n = 0 ∨ 64 ≤ n then .next s
  else
    let s1 := match why with
      | .sessionEnd => s.modPart n (fun p => { p with session := false, keyEx := false, attested := false })
      | .ideFailure => s.modPart n (fun p => { p with ide := false })
      | .integrity => s
      | .lockedWrite => s
    .next (s1.failTdi n)

/-- REATTEST_WINDOW_EXPIRE (R400): a TDI held at a restart and not attested again within its window. -/
def execReattestWindowExpire (n : Nat) (s : State) : Out :=
  match (s.partOf n).held with
  | some t => .next (if t ≤ s.ticks then ((s.failHeld n).teardown n).setTdi n .unlocked else s)
  | none => .next s

/-! ### Locked items (R352) -/

/-- Partitions other than `n` that lose something a value names. -/
def State.losers (s : State) (n : Nat) (v : LockedValue) : List Nat :=
  match v with
  | .clusters l _ => ((l.map (fun c => (s.findCluster c).part)).filter (fun p => p != n)).eraseDups
  | .asids l => ((l.filterMap s.partOfAsid).filter (fun p => p != n)).eraseDups
  | .deal l =>
    ((l.filterMap (fun (x : Nat × Nat × Nat) =>
      (s.deal.find? (fun t => t.cls == x.1 && t.port == x.2.1)).bind (fun t => (t.slots[x.2.2]?).getD none))).filter
        (fun p => p != n)).eraseDups
  | .key _ => []
  | .retry _ => []
  | .sched _ _ => []

/-- Whether a change must wait: a launch holds a cluster whose assignment changes (R318), runs under an ASID whose
assignment changes (R346), or belongs to a partition whose deal table changes (R317). -/
def State.itemWaits (s : State) (n : Nat) (v : LockedValue) : Bool :=
  match v with
  | .clusters l _ =>
    (List.range 192).any (fun c => ((s.findCluster c).part == n) != l.contains c && !(s.holders [] c).isEmpty)
  | .asids l =>
    s.launches.any (fun (x : Launch) =>
      ((s.partOf n).asids.contains x.lrec.asid) != l.contains x.lrec.asid)
  | .deal _ => s.launches.any (fun (x : Launch) => s.holdsClusters x && (n :: s.losers n v).contains x.stream)
  | .key _ => false
  | .retry _ => false
  | .sched _ _ => false

/-- A deal table of a port, all slots free when not listed. -/
def State.dealTable (s : State) (cls port : Nat) : DealTable :=
  (s.deal.find? (fun t => t.cls == cls && t.port == port)).getD ⟨cls, port, List.replicate 64 none⟩

def State.putDeal (s : State) (t : DealTable) : State :=
  { s with deal := s.deal.filter (fun x => !(x.cls == t.cls && x.port == t.port)) ++ [t] }

/-- Tiles, banks and grist regions of a cluster that changes hands count as another ASID's: they are zeroed before they serve
again (R159, R161, R221, R318). -/
def Core.disown (k : Core) : Core :=
  { k with
    bankAsid := Vector.replicate 16 none, gristAsid := Vector.replicate 64 none
    tiles := vmap (fun (t : Tile) => { t with asid := none }) k.tiles }

/-- A cluster is assigned to a partition and takes its world (R318, R346). -/
def State.assignCluster (s : State) (c n : Nat) : State :=
  let f := fun (k : Core) => if k.cluster == c then k.disown else k
  { s with core := f s.core, cores := s.cores.map f }.putCluster c
    (fun x => { x with part := n, world := (s.partOf n).tdi.secure })

/-- The ASIDs of partition `n` become `l`: their buffers take the world of the partition that they join, and fresh keys
(R346); none where the key store is full. -/
def State.moveAsids (s : State) (n : Nat) (l : List Nat) : Option State :=
  let p := s.partOf n
  let gone := p.asids.filter (fun a => !l.contains a)
  let come := l.filter (fun a => !p.asids.contains a)
  let s1 := (s.freeBuffers gone p.tdi.secure).freeBuffers come false
  let s2 := { s1 with parts := s1.parts.map (fun (q : Part) =>
      if q.num == n then q else { q with asids := q.asids.filter (fun a => !l.contains a) }) }.modPart n
    (fun q => { q with asids := l })
  if n = 0 then some s2
  else (rekey n come (s2.partEntries come) s2).map (fun t => t.setBufferWorld come p.tdi.secure)

/-- Whether an item may take a value: a retry window of 1 to 3,600 s (R360), keys for the buffers of new ASIDs.
(DESIGN CHOICE, log 108.) -/
def State.itemOk (s : State) (n : Nat) (v : LockedValue) : Bool :=
  match v with
  | .retry t => decide (1 ≤ t) && decide (t ≤ 3600)
  | .asids l => (s.moveAsids n l).isSome
  | .clusters _ _ => true | .deal _ => true | .key _ => true | .sched _ _ => true

/-- A locked item takes a value. Clusters and ASIDs that the partition no longer has go back to the physical function. -/
def State.setItem (s : State) (n : Nat) (i : LockedItem) (v : LockedValue) : State :=
  match v with
  | .clusters l _ =>
    (List.range 192).foldl (fun s c =>
      let mine := (s.findCluster c).part == n
      if l.contains c && !mine then s.assignCluster c n
      else if mine && !l.contains c then s.assignCluster c 0
      else s) s
  | .asids l => (s.moveAsids n l).getD s
  | .deal l =>
    let s1 := { s with deal := s.deal.map (fun t => { t with slots := t.slots.map (fun x => if x = some n then none else x) }) }
    l.foldl (fun s (x : Nat × Nat × Nat) =>
      let t := s.dealTable x.1 x.2.1
      s.putDeal { t with slots := t.slots.set x.2.2 (some n) }) s1
  | .key k =>
    (match i with
     | .key j => s.modPart n (fun p => { p with keys := vset p.keys j.toNat k })
     | .clusters => s | .asids => s | .deal => s | .retry => s | .sched => s)
  | .retry t => s.modPart n (fun p => { p with retry := t })
  | .sched level weight =>
    s.modStream n (fun st => { st with level := level % 4, weight := max 1 (weight % 16) })

/-- A direct write of a locked item (R352), none while it must wait. It performs while the TDI is in CONFIG_UNLOCKED; in
CONFIG_LOCKED or RUN it is refused and the TDI moves to ERROR, and so does a secure TDI from which the write would take
something. -/
def State.tryDirect (s : State) (n : Nat) (i : LockedItem) (v : LockedValue) : Option State :=
  if 64 ≤ n ∨ !v.fits i then some s
  else if (s.partOf n).tdi.secure then some (s.failTdi n)
  else
    match (s.losers n v).find? (fun p => (s.partOf p).tdi.secure) with
    | some p => some (s.failTdi p)
    | none =>
      if (s.partOf n).tdi == .error || !s.itemOk n v then some s
      else if s.itemWaits n v then none
      else some (s.setItem n i v)

/-! ### Write tokens (R354, R355) -/

/-- VENDOR_DEFINED_REQUEST (R354): the device answers with a token for an item and a digest of its new value. -/
def execVendorDefinedRequest (n : Nat) (i : LockedItem) (vhash : Nat) (s : State) : Out :=
  if !s.hostOpen then .next s
  else if s.tdiSession n then
    let p := s.partOf n
    let t : Token := { item := i.num, part := n, mgen := p.mgen.toNat, seq := p.tokSeq + 1, vhash := vhash % 2 ^ 256, mac := 0 }
    let t1 := { t with mac := Config.tokenMac p.sess t.fields }
    .next ((s.modPart n (fun p => { p with tokSeq := p.tokSeq + 1 })).send [.token n t1])
  else .next (s.send [.unsupported n])

/-- The staged value of an item. -/
def State.stagedOf (s : State) (item : Nat) : Option (LockedItem × LockedValue) :=
  s.mgmt.staged.find? (fun (x : LockedItem × LockedValue) => x.1.num == item)

/-- The checks of a commit in order (R355): the CODE of the first that fails, 0 when all pass. Without a session there is no
token key, so no MAC verifies (R354). -/
def State.tokenCode (s : State) (t : Token) (staged : Option (LockedItem × LockedValue)) : Nat :=
  let p := s.partOf t.part
  if !p.session || t.mac != Config.tokenMac p.sess t.fields then 1
  else if t.part = 0 ∨ 64 ≤ t.part ∨ 9 ≤ t.item then 2
  else if t.mgen ≠ p.mgen.toNat then 3
  else if t.seq ≤ p.tokSeen then 4
  else
    match staged with
    | some (i, v) => if v.fits i && v.vhash == t.vhash then 0 else 5
    | none => 5

/-- The CODE of a commit with what the value itself must meet: one that would take something from another secure TDI is
refused as CODE 2, a value that the item cannot take as CODE 5. (DESIGN CHOICE, log 108.) -/
def State.commitCode (s : State) (t : Token) (staged : Option (LockedItem × LockedValue)) : Nat :=
  match s.tokenCode t staged, staged with
  | 0, some (_, v) =>
    if (s.losers t.part v).any (fun p => (s.partOf p).tdi.secure) then 2
    else if !s.itemOk t.part v then 5
    else 0
  | 0, none => 5
  | c + 1, _ => c + 1

/-- A commit under a token (R355), none while its change must wait: the item takes the value and the generation steps, or
the refusal is counted. -/
def State.tryCommit (s : State) (t : Token) (staged : Option (LockedItem × LockedValue)) : Option State :=
  match s.commitCode t staged, staged with
  | 0, some (i, v) =>
    if s.itemWaits t.part v then none
    else
      let s1 := ((s.setItem t.part i v).stepGen t.part).modPart t.part (fun p => { p with tokSeen := t.seq })
      some { s1 with mgmt := { s1.mgmt with tokCode := 0 } }
  | 0, none => some s
  | c + 1, _ =>
    some { s with mgmt := { s.mgmt with tokCode := c + 1, tokCount := min (2 ^ 32 - 1) (s.mgmt.tokCount + 1) } }

/-! ### Deal tables (R317) -/

/-- Partitions whose slots of a port differ between two tables. -/
def slotsChanged (a b : List (Option Nat)) : List Nat :=
  (((a.zip b).filter (fun (x : Option Nat × Option Nat) => x.1 != x.2)).flatMap (fun (x : Option Nat × Option Nat) =>
    x.1.toList ++ x.2.toList)).eraseDups

/-- A write of a deal table of one port (R317, R352), none while a launch of a partition that it changes runs; one that
changes the slots of a secure partition moves that TDI to ERROR, and one that changes those of a TDI in ERROR is refused. -/
def State.tryDeal (s : State) (cls port : Nat) (l : List (Option Nat)) : Option State :=
  if 5 ≤ cls ∨ l.length ≠ 64 then some s
  else
    let hit := slotsChanged (s.dealTable cls port).slots l
    match hit.find? (fun n => (s.partOf n).tdi.secure) with
    | some n => some (s.failTdi n)
    | none =>
      if hit.any (fun n => (s.partOf n).tdi == .error) then some s
      else if s.launches.any (fun (x : Launch) => s.holdsClusters x && hit.contains x.stream) then none
      else some (s.putDeal { cls := cls, port := port, slots := l })

/-! ### Buffer-space entries (R199, R200, R350) -/

/-- The storage of a buffer that no entry names any more is given back: its extents become absent. -/
def State.releaseStorage (s : State) (map : Nat) : State :=
  if (s.spaces.flatMap (fun sp => sp.entries.map (·.2))).any (fun (e : BufEntry) => e.valid && !e.isLocal && e.extmap == map) then s
  else
    let gone := fun (k : Nat) => k / 2 ^ 40 == map
    { s.dropLines [map] with
      exts := s.exts.filter (fun (x : Extent) => x.map != map)
      zeroing := s.zeroing.filter (fun (f : Frame) => f.map != map)
      mem := s.mem.filter (fun (x : Host.Cell) => !gone x.1)
      memTags := s.memTags.filter (fun g => !gone (16 * g))
      poison := s.poison.filter (fun k => !gone k) }

/-- An entry of a space replaced; the number of entries loaded (R201's SIZE) is the highest index ever written, plus one.
(DESIGN CHOICE, log 121.) -/
def Space.put (sp : Space) (index : Nat) (e : BufEntry) : Space :=
  let l := sp.entries.filter (fun (p : Nat × BufEntry) => p.1 != index) ++ [(index, e)]
  { sp with entries := l, size := max sp.size (index + 1) }

def State.putSpaceEntry (s : State) (asid index : Nat) (e : BufEntry) : State :=
  { s with spaces := s.spaces.filter (fun sp => sp.asid != asid) ++ [(s.spaceOf asid).put index e] }

/-- KEY, WORLD and, for a buffer shared in, the generation of an entry as the device sets them at creation (R203, R346,
R350): none where no key is FREE. -/
def State.finishEntry (s : State) (asid : Nat) (e : BufEntry) : Option (BufEntry × State) :=
  let part := (s.partOfAsid asid).getD 0
  let world := (s.partOf part).tdi.secure
  if !e.valid then some (e, s)
  else if e.shared then
    match s.entryOfMap e.extmap with
    | some o => some ({ e with key := o.key, world := o.world, gen := o.gen, gfloor := o.gfloor }, s)
    | none => some (e, s)
  else if part = 0 then some ({ e with key := 0, world := false }, s)
  else (s.newKey part).map (fun (k : Nat × State) => ({ e with key := k.1, world := world }, k.2))

/-- A write of an entry, none while a launch holds the space (R200); one that finds no key FREE is refused (R350). -/
def State.tryEntry (s : State) (asid index bits : Nat) : Option State :=
  if s.launches.any (fun (l : Launch) => l.lrec.asid == asid && s.holdsClusters l) then none
  else
    match s.finishEntry asid (BufEntry.ofBits bits) with
    | none => some s
    | some (e, s1) =>
      let s2 := s1.putSpaceEntry asid index e
      match (s.spaceOf asid).entry index with
      | none => some s2
      | some o =>
        let s3 := if o.shared || o.key = 0 then s2 else s2.dropKey o.key
        some (if o.isLocal then s3 else s3.releaseStorage o.extmap)

/-! ### Writes that wait -/

/-- A write performs, or none while it must wait. -/
def State.tryWrite (s : State) (d : Deferred) : Option State :=
  match d with
  | .entry a i b => s.tryEntry a i b
  | .direct n i v => s.tryDirect n i v
  | .commit t v => s.tryCommit t v
  | .deal c p l => s.tryDeal c p l

/-- A write performs now, or waits, behind those of the same target that wait already, and while the module hibernates (R387).
(DEDUCED, log 110.) -/
def State.submit (s : State) (d : Deferred) : State :=
  let wait := { s with deferred := s.deferred ++ [d] }
  if !s.hostOpen || s.deferred.any (fun x => x.target == d.target) then wait else (s.tryWrite d).getD wait

/-- The waiting writes are tried again in their order, and retired keys are zeroised (R350). -/
def State.settleWrites (s : State) : State :=
  let s1 := s.deferred.foldl State.submit { s with deferred := [] }
  { s1 with keys := s1.keys.filter (fun (k : KeyRec) => k.st != .retired || s1.keyNamed k.index) }

/-- LOCKED_ITEM_WRITE (R352). -/
def execLockedItemWrite (n : Nat) (i : LockedItem) (v : LockedValue) (s : State) : Out :=
  .next (if s.hostOpen then s.submit (.direct n i v) else s)

/-- CMD_CTL_WRITE (R301, R352): LEVEL and WEIGHT are locked items of the partition: a write that changes one is refused unless
its TDI is in CONFIG_UNLOCKED. (DEDUCED, log 39.) -/
def execCmdCtlWrite (n : Nat) (v : W64) (s : State) : Out :=
  let st := s.streamOf n
  if !s.hostOpen || decide (64 ≤ n) then .next s
  else if natField v.toNat 8 2 == st.level && max 1 (natField v.toNat 12 4) == st.weight then .next (s.ctlWrite n v.toNat)
  else if (s.partOf n).tdi.secure then .next (s.failTdi n)
  else if (s.partOf n).tdi == .error then .next s
  else .next (s.ctlWrite n v.toNat)

/-- TOK_GO (R355): the staged write commits under the staged token, or the refusal is counted; commits to one partition are
decided in order. -/
def execTokGo (s : State) : Out :=
  let t := s.mgmt.tokStage
  .next (if s.hostOpen then s.submit (.commit t (s.stagedOf t.item)) else s)

/-- BUFFER_SPACE_ENTRY_WRITE (R199, R200): the runtime writes an entry. -/
def execBufferSpaceEntryWrite (asid index bits : Nat) (s : State) : Out :=
  .next (if 4096 ≤ index ∨ !s.hostOpen then s else s.submit (.entry asid index bits))

/-! ### SPDM (R351) -/

/-- The measurement block of an index for a partition (R351). What blocks 1 and 3 hash, and how the items of block 4 are
laid out for its hash, are the model's. (DESIGN CHOICE, log 127.) -/
def State.measurement (s : State) (n k : Nat) : Nat :=
  let p := s.partOf n
  match k with
  | 1 => Config.sha512 [1]
  | 2 => s.mgmt.fwHash
  | 3 => Config.sha512 [3, s.mgmt.fwHash]
  | 4 => Config.sha512 ((if p.tdi.secure then 1 else 0) :: (List.range 192).filter (fun c => (s.findCluster c).part == n) ++
      p.asids ++ s.deal.flatMap (fun t => (ownedSlots t.slots n).flatMap (fun i => [t.cls, t.port, i])) ++ p.keys.toList ++
      [p.retry, (s.streamOf n).level, (s.streamOf n).weight])
  | 5 => p.mgen.toNat
  | 6 => Config.sha512 p.keys.toList
  | _ => 0

/-- What a request asks, as numbers: its code and its arguments. -/
def State.spdmArgs (s : State) (n : Nat) : SpdmReq → Nat × List Nat
  | .getVersion => (0x84, []) | .getCapabilities => (0xE1, []) | .negotiate => (0xE3, []) | .getDigests => (0x81, [])
  | .getCertificate => (0x82, [])
  | .challenge nonce => (0x83, [nonce])
  | .getMeasurements k nonce => (0xE0, [k, nonce, s.measurement n k])
  | .keyExchange share => (0xE4, [share])
  | .finish => (0xE5, []) | .ideKeys => (0xFE, []) | .heartbeat => (0xE8, []) | .endSession => (0xEC, [])

/-- What the responder says of itself: versions 1.2 and 1.3, its capabilities, its algorithms (R351). -/
def spdmFacts (n : Nat) : SpdmReq → List Msg
  | .getVersion => [.spdmVersions n [0x12, 0x13]]
  | .getCapabilities => [.spdmCaps n [.cert, .chal, .measSig, .keyEx, .encrypt, .mac, .hbeat]]
  | .negotiate => [.spdmAlgs n [.rsaPss4096Sha512, .sha512, .ecdheSecp384r1, .aes256Gcm]]
  | .getDigests => [] | .getCertificate => [] | .challenge _ => [] | .getMeasurements _ _ => [] | .keyExchange _ => []
  | .finish => [] | .ideKeys => [] | .heartbeat => [] | .endSession => []

/-- What a request changes: FINISH after KEY_EXCHANGE opens a session with keys of its own; in a session the tenant reads
measurements and sets the keys of its IDE stream (R362); the session's end moves a secure TDI to ERROR (R348). None where
the responder answers with an error. -/
def State.spdmEffect (s : State) (n : Nat) (r : SpdmReq) : Option State :=
  let p := s.partOf n
  match r with
  | .keyExchange _ => some (s.modPart n (fun p => { p with keyEx := true }))
  | .finish =>
    if p.keyEx then
      some ({ s with nextId := s.nextId + 1 }.modPart n (fun p =>
        { p with session := true, keyEx := false, attested := false, sess := s.nextId, tokSeq := 0, tokSeen := 0 }))
    else none
  | .getMeasurements _ _ => some (if p.session then s.modPart n (fun p => { p with attested := true }) else s)
  | .ideKeys => if p.session then some (s.modPart n (fun p => { p with ide := true })) else none
  | .heartbeat => if p.session then some s else none
  | .endSession =>
    if p.session then
      some ((s.modPart n (fun p => { p with session := false, keyEx := false, attested := false })).failTdi n)
    else none
  | .getVersion => some s | .getCapabilities => some s | .negotiate => some s | .getDigests => some s
  | .getCertificate => some s | .challenge _ => some s

/-- SPDM_REQUEST (R351): the device answers. -/
def execSpdmRequest (n : Nat) (r : SpdmReq) (s : State) : Out :=
  if 64 ≤ n ∨ !s.hostOpen then .next s
  else
    match s.spdmEffect n r with
    | none => .next (s.send [.spdmError n])
    | some s1 =>
      let (code, args) := s.spdmArgs n r
      .next (s1.send (.spdm n code (Config.spdmPayload n code args) :: spdmFacts n r))

/-! ### Migration (R359 to R361) -/

/-- Reference ticks in a second (R9). -/
def ticksPerSecond : Nat := 100000000

/-- The buffers that the key at an index encrypts: ASID and index. -/
def State.keyBuffers (s : State) (n index : Nat) : List (Nat × Nat) :=
  (s.partEntries (s.partOf n).asids).filter (fun (p : Nat × Nat) =>
    match (s.spaceOf p.1).entry p.2 with
    | some e => e.owner == p.1 && e.key == index
    | none => false)

/-- The blobs of a TDI's sealed keys, wrapped under the key of its migration's session (R359). -/
def State.sealedKeys (s : State) (n : Nat) : List WrappedKey :=
  (s.keys.filter (fun (k : KeyRec) => k.st == KeyState.sealed n)).map (fun (k : KeyRec) =>
    ⟨k.index, Config.wrap (Config.migrKey (s.partOf n).migSess) k.serial, s.keyBuffers n k.index⟩)

/-- What a confirmation signs: the wrapped blobs and the TDI's identity. -/
def migrDigest (n : Nat) (l : List WrappedKey) : Nat := Config.sha512 (n :: l.map (fun k => k.blob))

/-- The digest that confirms a TDI's running migration. -/
def State.migrDigestOf (s : State) (n : Nat) : Nat := migrDigest n (s.sealedKeys n)

/-- The contents of a partition's buffers, which leave with the keys. -/
def State.migrContents (s : State) (n : Nat) : List (Nat × Nat × Nat × Byte) :=
  (s.partEntries (s.partOf n).asids).flatMap (fun (p : Nat × Nat) =>
    match (s.spaceOf p.1).entry p.2 with
    | some e =>
      if e.owner == p.1 && !e.isLocal then
        (s.mem.filter (fun (x : Host.Cell) => x.1 / 2 ^ 40 == e.extmap)).map (fun x => (p.1, p.2, x.1 % 2 ^ 40, x.2))
      else []
    | none => [])

/-- The end of a migration's window: the sealed keys are zeroised, the TDI moves to ERROR and is reported lost (R360). -/
def State.endMigration (s : State) (n : Nat) : State :=
  (((s.dropKeys (fun k => k == KeyState.sealed n)).teardown n).setTdi n .error).modPart n
    (fun p => { p with migr := none, lost := true, lates := p.lates ++ [s.migrDigestOf n] })

/-- MIGRATION_SEND (R359, R361): the partition's launches are stopped as for a pre-emption; once they are saved, a session
with the other module, in which each has verified the certificate of the other, gives the wrapping key, the partition's keys
are sealed and sent wrapped with the buffers' contents, and the retry window begins. A retry within the window sends the
same blobs again. (DESIGN CHOICE, log 111.) -/
def execMigrationSend (n : Nat) (s : State) : Out :=
  if !s.hostOpen then .next s
  else
  match (s.partOf n).migr with
  | some t => .next (if t ≤ s.ticks then s.endMigration n else s.send [.migrKeys n (s.sealedKeys n)])
  | none =>
    if !(s.partOf n).tdi.secure then .next s
    else
      let mine := s.launches.filter (fun (l : Launch) => l.stream == n)
      if mine.any (fun (l : Launch) => s.holdsClusters l) then
        .next ((mine.filter (fun (l : Launch) => l.state.isRunning)).foldl (fun s l => s.stopLaunch l.id .preempt) s)
      else if !Config.peerAuth s.nextId then .next { s with nextId := s.nextId + 1 }
      else
        let s1 := { s with
          keys := s.keys.map (fun (k : KeyRec) => if k.st == KeyState.live n then { k with st := .sealed n } else k)
          nextId := s.nextId + 1 }
        let s2 := s1.modPart n (fun p => { p with migr := some (s.ticks + p.retry * ticksPerSecond), migSess := s.nextId })
        .next (s2.send [.migrKeys n (s2.sealedKeys n), .migrData n (s2.migrContents n)])

/-- Whether a confirmation verifies for blobs whose window has ended. -/
def State.lateConfirm (s : State) (n sig : Nat) : Bool :=
  (s.partOf n).lates.any (fun d => Config.sigOk Config.peerKey d sig)

/-- MIGRATION_CONFIRM (R361): a valid one within the window zeroises the sealed keys; a valid one that comes after the window
is answered with an error; a second one, and an invalid one, have no effect. -/
def execMigrationConfirm (n sig : Nat) (s : State) : Out :=
  if !s.hostOpen then .next s
  else
    let s1 := match (s.partOf n).migr with
      | some t => if t ≤ s.ticks then s.endMigration n else s
      | none => s
    if (s1.partOf n).migr.isSome && Config.sigOk Config.peerKey (s1.migrDigestOf n) sig then
      .next ((s1.retireKeys (fun k => k == KeyState.sealed n)).modPart n (fun p => { p with migr := none }))
    else if s1.lateConfirm n sig then .next (s1.send [.migrLate n])
    else .next s1

/-- RETRY_WINDOW_EXPIRE (R360). -/
def execRetryWindowExpire (n : Nat) (s : State) : Out :=
  match (s.partOf n).migr with
  | some t => .next (if t ≤ s.ticks then s.endMigration n else s)
  | none => .next s

/-- A key imported at the index it had, or at a FREE one, and bound to its buffers; `z` is the key that its blob unwraps to.
The one that encrypts no buffer is the image-wrapping key (R357). -/
def State.importKey (s : State) (n : Nat) (k : WrappedKey) (z : Nat) : State :=
  let index := if k.index = 0 ∨ s.keys.any (fun (x : KeyRec) => x.index == k.index) then s.freeKey else some k.index
  match index with
  | none => s
  | some i =>
    let s1 := { s with keys := s.keys ++ [⟨i, .live n, z⟩] }
    if k.bufs.isEmpty then (s1.dropKey (s1.partOf n).wrapKey).modPart n (fun p => { p with wrapKey := i })
    else
      (k.bufs.filter (fun (b : Nat × Nat) => (s.partOf n).asids.contains b.1)).foldl (fun (s : State) (b : Nat × Nat) =>
        match (s.spaceOf b.1).entry b.2 with
        | some e =>
          if e.owner = b.1 then
            (if e.key = 0 ∨ e.key = i then s else s.dropKey e.key).mapEntries (fun a j x =>
              if e.same b.1 b.2 x a j then { x with key := i } else x)
          else s
        | none => s) s1

/-- The keys that blobs unwrap to under the key of the destination's session; none where one does not. -/
def unwrapKeys (sess : Nat) (l : List WrappedKey) : Option (List (WrappedKey × Nat)) :=
  l.mapM (fun k => (Config.unwrap (Config.migrKey sess) k.blob).map (fun z => (k, z)))

/-- A byte of a buffer that comes with a migration, at its home. -/
def State.importByte (s : State) (n : Nat) (x : Nat × Nat × Nat × Byte) : State :=
  match (s.spaceOf x.1).entry x.2.1 with
  | some e =>
    if (s.partOf n).asids.contains x.1 && !e.isLocal && decide (x.2.2.1 < e.length) then
      (s.touchExtent e (x.2.2.1 / extentBytes)).memWrite e.extmap x.2.2.1 [x.2.2.2]
    else s
  | none => s

/-- MIGRATION_IMPORT (R359, R361): at the destination, in a session with the source in which each has verified the other's
certificate, keys that unwrap become LIVE once its own TDI has been attested by the tenant and locked, and it confirms; the
source's error answer moves the TDI to ERROR and zeroises them. (DESIGN CHOICE, log 111.) -/
def execMigrationImport (n : Nat) (inp : MigrIn) (s : State) : Out :=
  if !s.hostOpen then .next s
  else
    match inp with
    | .keys l data =>
      let s0 := { s with nextId := s.nextId + 1 }
      if (s.partOf n).tdi == .locked && (s.partOf n).attested && Config.peerAuth s.nextId then
        match unwrapKeys s.nextId l with
        | none => .next s0
        | some ks =>
          let s1 := data.foldl (fun (s : State) x => s.importByte n x)
            (ks.foldl (fun s (k : WrappedKey × Nat) => s.importKey n k.1 k.2) s0)
          .next (s1.send [.migrConfirm n (Config.sign (migrDigest n l))])
      else .next s
    | .late => .next (s.failTdi n)

end Sys2Proof.Machine
end

