-- ==== Sys2Proof/Machine/Errors.lean ====
section
/-! DEFINITION. Power regions and patterns, refresh, errors, scrubbing, the error journal's commands and live firmware
updates (R31, R408 to R417). -/

namespace Sys2Proof

/-- Whether a location of a source lies in a physical range. -/
def PhysRange.holds (r : PhysRange) (src : JSrc) (loc : Nat) : Bool :=
  let (dev, frame) := Config.frameOf (Config.rowOf loc)
  r.scm == (src == .scm) && r.dev == dev && decide (r.first ≤ frame) && decide (frame < r.first + r.count)

end Sys2Proof

namespace Sys2Proof.Machine

open Sys2Proof

/-! ### Regions and patterns (R408, R409) -/

def State.regionOf (s : State) (n : Nat) : Region := (s.regions.find? (fun (r : Region) => r.num == n)).getD (Region.blank n)

/-- Change region `n`, one of 48. -/
def State.modRegion (s : State) (n : Nat) (f : Region → Region) : State :=
  if n < 48 then { s with regions := s.regions.filter (fun (r : Region) => r.num != n) ++ [f (s.regionOf n)] } else s

/-- The weight of a temperature. -/
def heatWeight (t : Int) : Nat := if t < 75 then 0 else 2 ^ min 12 ((t - 75) / 5).toNat

/-- The slot target of a damage integral. With DSTEP = 0 the spec states no target: `free` stands for it.
(DESIGN CHOICE, log 51.) -/
def slotTarget (m : Mgmt) (d free : Nat) : Nat :=
  if d < m.dthr then 16
  else if m.dstep = 0 then 1 + free % 16
  else max 1 (16 - ceilDiv (d - m.dthr) m.dstep)

/-- One sample of a region. -/
def Region.sample (r : Region) (m : Mgmt) (t : Int) (free : Nat) : Region :=
  let d := min (2 ^ 32 - 1) (r.d + heatWeight t - m.dleak)
  let target := slotTarget m d free
  if target < r.slots then { r with d := d, slots := r.slots - 1, since := r.since + 1 }
  else if r.slots < target ∧ 99 ≤ r.since then { r with d := d, slots := r.slots + 1, since := 0 }
  else { r with d := d, since := r.since + 1 }

/-- An event that the outgoing image serves abandons the update; the old slot stays active (R417). (DEDUCED, log 52.) -/
def State.abandonUpdate (s : State) : State := { s with mgmt := { s.mgmt with update := false, fwNew := none } }

/-- A region takes the sample of a period; one that changes its SLOTS is a thermal event, which abandons a live update
(R409, R417). (DEDUCED, log 52.) -/
def State.takeSample (s : State) (region period : Nat) (temp : Int) : State :=
  let (d, s1) := s.draw
  let s2 := s1.modRegion region (fun r => { r.sample s.mgmt temp (Config.freeNat d) with sampled := period + 1 })
  if (s2.regionOf region).slots = (s.regionOf region).slots then s2 else s2.abandonUpdate

/-- THERMAL_SAMPLE (R409): once in each period of 1,000 reference ticks. -/
def execThermalSample (region : Nat) (temp : Int) (s : State) : Out :=
  .next (if (s.regionOf region).sampled * 1000 ≤ s.ticks then s.takeSample region (s.ticks / 1000) temp else s)

/-- A period of 1,000 reference ticks ends: every region that has not been sampled in it is, at a temperature that the spec
leaves open (R409). (DESIGN CHOICE, log 129.) -/
def State.samplesDue (s : State) : State :=
  if s.ticks % 1000 = 0 ∧ 0 < s.ticks then
    let period := s.ticks / 1000 - 1
    (List.range 48).foldl (fun (s : State) n =>
      if (s.regionOf n).sampled ≤ period then s.takeSample n period (Config.temperature n period) else s) s
  else s

/-- The pattern of `k` enabled slots (R408). -/
def slotPattern (k : Nat) : BitVec 16 :=
  BitVec.ofNat 16 (ofElems 1 ((List.range 16).map (fun n => if n * k / 16 < (n + 1) * k / 16 then 1 else 0)))

/-- The slot count of a cluster: the least of its region's slots, the power cap and 16, and at least one (R3, R408). -/
def State.slotsFor (s : State) (cluster : Nat) : Nat :=
  max 1 (min 16 (min (s.regionOf (clusterRegion cluster)).slots s.mgmt.pcap))

/-- The enabled slots of a pattern. -/
def patternSlots (p : BitVec 16) : Nat := (setBits 16 p.toNat).length

/-- PATTERN_CHANGE (R321, R408): at a 16-cycle boundary a cluster takes the pattern of its slot count; a decrease sets d61
in its contexts at the end of the cycle. -/
def execPatternChange (cluster k : Nat) (s : State) : Out :=
  let old := patternSlots (s.findCluster cluster).pattern
  if s.cycle % 16 = 0 ∧ k = s.slotsFor cluster ∧ cluster < 192 then
    let s1 := s.putCluster cluster (fun c => { c with pattern := slotPattern k })
    .next (if k < old then s1.note (.pattern cluster) else s1)
  else .next s

/-- DROOP_CAP_CHANGE (R31): the cap of the current core becomes 16, 12 or 8. -/
def execDroopCapChange (cap : Nat) (s : State) : Out :=
  .next (if cap ∈ [8, 12, 16] then { s with core := { s.core with cap := cap } } else s)

/-! ### HBM refresh (R411) -/

/-- The refresh interval of a bank at a temperature, in cycles: 3.9 µs, halved above 85 °C and again above 95 °C. -/
def refreshInterval (t : Int) : Nat := if 95 < t then 1560 else if 85 < t then 3120 else 6240

/-- HBM_REFRESH (R411): a bank whose interval has passed is refreshed. -/
def execHbmRefresh (bank : Nat) (temp : Int) (s : State) : Out :=
  let due := match s.refreshed.find? (fun (x : Nat × Nat) => x.1 == bank) with
    | some x => decide (x.2 + refreshInterval temp ≤ s.cycle)
    | none => true
  .next (if due then { s with refreshed := s.refreshed.filter (fun (x : Nat × Nat) => x.1 != bank) ++ [(bank, s.cycle)] }
    else s)

/-- FRAME_ZERO_COMPLETE (R411): every row of an allocated frame holds zeros and has rejoined refresh. -/
def execFrameZeroComplete (stack frame : Nat) (s : State) : Out :=
  .next (match s.zeroing.find? (fun (f : Frame) => f.stack == stack && f.num == frame && !f.clean) with
    | some f => s.cleanFrame f
    | none => s)

/-! ### Corrections and detections (R413 to R415) -/

/-- CORRECTED_ERROR (R413, R415): the correction is journalled; the sixteenth of a row of memory within 2^30 ticks retires
the row. (DEDUCED, log 53.) -/
def execCorrectedError (src : JSrc) (loc synd : Nat) (s : State) : Out :=
  let s1 := s.jCorrect src loc synd
  if !s.hasUnit src then .next s
  else if src == .hbm || src == .scm then
    let row := Config.rowOf loc
    let l := s1.corrections.filter (fun (x : RowFix) => decide (s.ticks < x.at_ + 2 ^ 30)) ++
      [(RowFix.mk (src == .scm) row s.ticks)]
    let s2 := { s1 with corrections := l }
    .next (if 16 ≤ (l.filter (fun (x : RowFix) => x.scm == (src == .scm) && x.row == row)).length then s2.retireRow src loc
      else s2)
  else .next s1

/-- JOURNAL_ENTRY_TIMEOUT (R413): the open entry closes 2^24 ticks after its FIRST. -/
def execJournalEntryTimeout (s : State) : Out :=
  moduleOnly (fun s =>
    match s.journal.openEntry with
    | some e => if e.first + 2 ^ 24 ≤ s.ticks then { s with journal := s.journal.close } else s
    | none => s) s

/-- The scrub passes under way over a location remember it as an exception (R416). -/
def State.noteException (s : State) (src : JSrc) (loc : Nat) : State :=
  { s with scrubs := s.scrubs.map (fun (x : ScrubReq) => if x.range.holds src loc then { x with exc := x.exc ++ [loc] } else x) }

/-- A sector that ECC cannot correct; whether the patrol scrub still reaches it in its present pass is free (R415).
(DESIGN CHOICE, log 130.) -/
def State.spoil (s : State) (map off : Nat) : State :=
  let o := off / sectorBytes * sectorBytes
  let k := memKey map o
  let (d, s0) := s.draw
  let s1 := if s.poison.contains k then s0 else
    { s0 with poison := s0.poison ++ [k], patrol := if Config.freeBool d then s0.patrol ++ [k] else s0.patrol }
  let (src, loc) := s.locationOf map o
  s1.noteException src loc

/-- UNCORRECTABLE_ERROR (R414): a sector becomes uncorrectable, and the reader named meets it: an access of the current
context or a card of its core that may run, racking, or the patrol scrub; a host meets it at its read. -/
def execUncorrectableError (map off : Nat) (reader : UncReader) (s : State) : Out :=
  let s1 := s.spoil map off
  match reader with
  | .access k =>
    (match s1.ctx.mem.outs[k]? with
     | some x => .next (if s1.canPerform x then s1.performOut x else s1)
     | none => .next s1)
  | .card k => execCardComplete k s1
  | .host => .next s1
  | .racking => .next (s1.detect map (off / sectorBytes * sectorBytes))
  | .scrub => .next (s1.detect map (off / sectorBytes * sectorBytes))

/-! ### Patrol scrub (R415) -/

/-- Ticks of a complete pass: SCRUBT hours, seven times that for SCM (R415). -/
def State.passLength (s : State) (scm : Bool) : Nat := (if scm then 7 else 1) * s.mgmt.scrubt * 3600 * ticksPerSecond

/-- Where the sector under a key of memory lies. -/
def State.keyLocation (s : State) (k : Nat) : JSrc × Nat := s.locationOf (k / 2 ^ 40) (k % 2 ^ 40)

/-- Whether requests of a partition may wait at a memory port: an access of a context of its launches is outstanding or in
a side log, or a card of one moves. -/
def State.requestsWait (s : State) (n : Nat) : Bool :=
  let mine := fun id => s.launches.any (fun (l : Launch) => l.id == id && l.stream == n)
  s.allCtx.any (fun c => mine c.place.launch && !(c.mem.outs.isEmpty && c.mem.slog.isEmpty)) ||
  (s.core :: s.cores).any (fun (k : Core) => k.cards.any (fun c => c.started && mine c.launch))

/-- Whether a slot of a deal table is left to the device's own accesses: free, or of a partition with no request waiting
(R345). -/
def State.slotIdle (s : State) (x : Option Nat) : Bool :=
  match x with
  | none => true
  | some n => !s.requestsWait n

/-- The port of HBM at which a sector is read: a group of 8 pseudo-channels of its stack (R317), none for SCM.
(DESIGN CHOICE, log 130.) -/
def State.patrolPort (s : State) (k : Nat) : Option Nat :=
  let b := (s.entryOfMap (k / 2 ^ 40)).getD default
  if (s.keyLocation k).1 == .scm then none else some (stackOf b (k % 2 ^ 40) * 16 + pchOf b (k % 2 ^ 40) / 8)

/-- Whether the patrol scrub may read a sector now: in a slot of its port, 4 cycles long, that is left to it (R317, R345). -/
def State.patrolMay (s : State) (k : Nat) : Bool :=
  match s.patrolPort k with
  | none => true
  | some p => s.slotIdle (((s.dealTable 2 p).slots[s.cycle / 4 % 64]?).getD none)

/-- Whether the port of a sector has had slots for the patrol scrub. -/
def State.patrolCould (s : State) (k : Nat) : Bool :=
  match s.patrolPort k with
  | none => true
  | some p => (s.dealTable 2 p).slots.any s.slotIdle

/-- The patrol scrub reads a sector that it cannot correct: an entry of TYPE 2, and its row is retired (R414, R415). -/
def State.patrolRead (s : State) (k : Nat) : State :=
  let (src, loc) := s.keyLocation k
  (({ s with patrol := s.patrol.filter (· != k) }.jEvent 2 src loc 0).retireRow src loc).noteException src loc

/-- SCRUB_PASS (R415): patrol scrub reads a sector, once in a pass; one that it cannot correct is detected and its row
retired. A sector it corrects is journalled by CORRECTED_ERROR. -/
def execScrubPass (map off loc : Nat) (s : State) : Out :=
  let k := memKey map (off / sectorBytes * sectorBytes)
  .next (if s.poison.contains k && s.patrol.contains k && (s.keyLocation k).2 == loc && s.patrolMay k then s.patrolRead k else s)

/-- A pass of the patrol scrub over HBM or SCM ends and the next begins: what it has not read yet it has read by now, where
its port left it a slot (R415). (DESIGN CHOICE, log 130.) -/
def State.patrolEnd (s : State) (scm : Bool) : State :=
  if s.ticks % s.passLength scm = 0 ∧ 0 < s.ticks then
    let mine := fun (s : State) (k : Nat) => ((s.keyLocation k).1 == .scm) == scm
    let s1 := (s.patrol.filter (mine s)).foldl (fun (s : State) k =>
      if s.poison.contains k && s.patrolCould k then s.patrolRead k else s) s
    { s1 with patrol := s1.patrol.filter (fun k => !mine s1 k) ++ s1.poison.filter (mine s1) }
  else s

/-! ### Commands of the error journal (R412, R413, R416) -/

/-- The closed head: the index of the last closed entry, none before the first. -/
def Journal.headIndex (j : Journal) : Option Nat := (j.entries.getLast?).map (fun (e : JEntry) => e.index)

/-- EJHEAD (R412). -/
def execEjhead (s : State) : Out :=
  moduleOnly (fun s =>
    let i := s.journal.headIndex
    let h := s.journal.head
    { s with journal := { s.journal with heads := s.journal.heads ++ i.toList } }.send
      [.ejhead i h s.ticks (Config.sign (Config.sha512 (i.toList ++ [h, s.ticks])))]) s

/-- JOURNAL_TRIM (R413): entries below an index whose head has been read go; an entry of TYPE 11 holds the first index
kept. -/
def execJournalTrim (index : Nat) (s : State) : Out :=
  moduleOnly (fun s =>
    if s.journal.heads.contains index then
      { s with journal := { s.journal with
          entries := s.journal.entries.filter (fun (e : JEntry) => decide (index ≤ e.index))
          first := max s.journal.first index } }.jEvent 11 .controller (max s.journal.first index) 0
    else s) s

/-- Ticks of a complete pass over a range. -/
def State.passTicks (s : State) (r : PhysRange) : Nat := s.passLength r.scm

/-- The exceptions of a range: retired rows (1) and uncorrectable sectors (2), with their locations. -/
def State.exceptions (s : State) (q : ScrubReq) : List (Nat × Nat) :=
  (s.retired.filter (fun (r : RetRow) => q.range.holds (if r.scm then .scm else .hbm) r.loc)).map (fun (r : RetRow) => (1, r.loc)) ++
  q.exc.eraseDups.map (fun l => (2, l))

/-- The bytes of a scrub receipt before its signature (R416). RANGE holds the device in 4 bytes (a stack, or 8 and above for
SCM), the first frame in 4 and the count in 8. (DESIGN CHOICE, log 54.) -/
def receiptBytes (r : PhysRange) (start stop jidx : Nat) (exc : List (Nat × Nat)) : List Byte :=
  natToBytes 4 0x4B565231 ++ natToBytes 1 (if exc.isEmpty then 1 else 0) ++ natToBytes 3 0 ++
  natToBytes 4 (if r.scm then 8 + r.dev else r.dev) ++ natToBytes 4 r.first ++ natToBytes 8 r.count ++
  natToBytes 8 start ++ natToBytes 8 stop ++ natToBytes 8 jidx ++ natToBytes 4 exc.length ++ natToBytes 12 0 ++
  exc.flatMap (fun (x : Nat × Nat) => natToBytes 8 x.1 ++ natToBytes 8 x.2)

/-- A pass ends: an entry of TYPE 10 and the receipt. -/
def State.finishScrub (s : State) (q : ScrubReq) : State :=
  let s1 := { s with scrubs := s.scrubs.filter (fun (x : ScrubReq) => x != q) }.jEvent 10 .controller
    (Config.logicLoc 10 [q.range.dev, q.range.first, q.range.count]) 0
  let exc := s.exceptions q
  let jidx := (s1.journal.headIndex).getD 0
  s1.send [.scrubReceipt q.range exc.isEmpty q.start s.ticks jidx exc
    (Config.sign (Config.sha512 ((receiptBytes q.range q.start s.ticks jidx exc).map BitVec.toNat)))]

/-- The sectors of a range that are uncorrectable now. -/
def State.spoiledIn (s : State) (r : PhysRange) : List Nat :=
  s.poison.filterMap (fun k =>
    let (src, loc) := s.locationOf (k / 2 ^ 40) (k % 2 ^ 40)
    if r.holds src loc then some loc else none)

/-- SCRUBRCPT (R416): the request starts to wait for a complete pass; once the pass has ended the receipt is returned.
(DESIGN CHOICE, log 54.) -/
def execScrubrcpt (range : PhysRange) (s : State) : Out :=
  moduleOnly (fun s =>
    match s.scrubs.find? (fun (q : ScrubReq) => q.range == range) with
    | some q => if q.start + s.passTicks range ≤ s.ticks then s.finishScrub q else s
    | none => { s with scrubs := s.scrubs ++ [{ range := range, start := s.ticks, exc := s.spoiledIn range }] }) s

/-! ### Live firmware updates (R417) -/

/-- Ticks within which the new image must issue its first heartbeat: 500 ms. -/
def heartbeatTicks : Nat := 50000000

/-- Steps 2 to 4 of an update, on the image in the inactive slot and what its request gave: the signature under the
firmware key, the digest, the hand-over under a VERSION that the image accepts; 500 ms for its first heartbeat begin. -/
def State.startUpdate (s : State) : State :=
  let m := s.mgmt
  let (expected, sig, version) := m.fwGiven
  if s.power.phase == .on && m.fwNew.isNone && Config.sigOk Config.fwKey m.fwOther sig && m.fwOther == expected &&
      Config.versionOk m.fwOther version then
    { s with mgmt := { m with update := true, fwVersion := version, fwNew := some (m.fwOther, s.ticks) } }
  else s

/-- FW_UPDATE (R417 steps 1 to 4): the image is written into the inactive slot; one whose signature, digest and VERSION pass
takes the state over. -/
def execFwUpdate (hash expected : Nat) (sig : Nat) (version : Nat) (s : State) : Out :=
  moduleOnly (fun s =>
    if s.power.phase == .on && s.mgmt.fwNew.isNone then
      State.startUpdate { s with mgmt := { s.mgmt with fwOther := hash, fwGiven := (expected, sig, version) } }
    else s) s

/-- A write of mgmt.fw, a module's (R1): bit 0 set runs the update of the image in the inactive slot, bit 0 clear abandons
the update under way (R418 names the field and gives it no values). (DESIGN CHOICE, log 68.) -/
def State.writeFw (s : State) (v : Nat) : State :=
  match s.code with
  | .vpm9p => s
  | .vpm9mh => if natBit v 0 then s.startUpdate else s.abandonUpdate

/-- FW_HEARTBEAT (R417 step 5): the new image becomes active and every partition's measurement generation steps. -/
def execFwHeartbeat (s : State) : Out :=
  moduleOnly (fun s =>
    match s.mgmt.fwNew with
    | some (h, t) =>
      if s.ticks < t + heartbeatTicks then
        let s1 := { s with mgmt := { s.mgmt with
          update := false, fwNew := none, fwSlot := !s.mgmt.fwSlot, fwHash := h, fwOther := s.mgmt.fwHash } }
        ((List.range 64).foldl (fun (s : State) n => s.stepGen n) s1).jEvent 7 .controller (Config.logicLoc 10 []) 0
      else s
    | none => s) s

/-- FW_HEARTBEAT_TIMEOUT (R417 step 5): the old slot is active again. -/
def execFwHeartbeatTimeout (s : State) : Out :=
  moduleOnly (fun s =>
    match s.mgmt.fwNew with
    | some (_, t) => if t + heartbeatTicks ≤ s.ticks then s.abandonUpdate.jEvent 8 .controller (Config.logicLoc 10 []) 0 else s
    | none => s) s

end Sys2Proof.Machine
end

