-- ==== Sys2Proof/Machine/Fabric.lean ====
section
/-! DEFINITION. Host requests into host windows, the Waras links, memory requests of peers, PAUSED and RESUMED
(R280, R281, R362 to R370, R386, R394, R395). -/

namespace Sys2Proof.Machine

open Sys2Proof

/-! ### Host requests (R280, R363, R395) -/

/-- The answer to a request that is not accepted: Unsupported Request to a read, nothing to a write. -/
def HeldHost.turnAway (h : HeldHost) (s : State) : State := s.send h.refusal

/-- The host window that a request falls in (R362): its decoder, the valid memory buffer that it maps, and the request's
offset there. -/
def State.windowAt (s : State) (r : HostReq) : Option (Hdm × BufEntry × Nat) :=
  s.hdm.findSome? (fun (d : Hdm) =>
    match (s.spaceOf d.asid).entry d.index with
    | some e =>
      if d.port == r.port && e.kind == .memory && decide (d.base ≤ r.addr) &&
          decide (r.addr + r.len ≤ d.base + e.length) then
        some (d, e, r.addr - d.base)
      else none
    | none => none)

/-- The buffer of a request. -/
def State.windowEntry (s : State) (r : HostReq) : Option BufEntry := (s.windowAt r).map (fun x => x.2.1)

/-- The offset of a request in its buffer. -/
def State.windowOff (s : State) (r : HostReq) : Nat := ((s.windowAt r).map (fun x => x.2.2)).getD 0

/-- Whether a request to a buffer is accepted: to a secure one only on the owning TDI's IDE stream, whose keys are set, with
the T bit, while that TDI is in RUN; to another one in a window of its own function, onto a buffer of that function's
partition (R362). -/
def State.hostAccepts (s : State) (r : HostReq) (e : BufEntry) : Bool :=
  if e.world then
    r.ide && (s.partOf r.fn).ide && r.tbit && s.partOfAsid e.owner == some r.fn && (s.partOf r.fn).tdi == .run
  else (s.windowAt r).any (fun x => x.1.fn == r.fn && (s.partOf x.1.fn).asids.contains x.1.asid)

/-- A request to a secure buffer that is not accepted is counted, and the owning TDI in RUN moves to ERROR. -/
def State.hostRefuse (s : State) (h : HeldHost) (e : BufEntry) : State :=
  let n := (s.partOfAsid e.owner).getD 0
  let s1 := (h.turnAway s).modPart n (fun p => { p with refusals := p.refusals + 1 })
  if (s1.partOf n).tdi == .run then s1.failTdi n else s1

/-- An accepted request performs at the buffer's home: a read answers with the bytes there, or poisoned; a write clears the
tags that it overlaps, and one over CXL.mem is answered once it has performed (R280). (DEDUCED, log 58.) -/
def State.hostPerform (s : State) (h : HeldHost) (e : BufEntry) : State :=
  let r := h.req
  let off := s.windowOff r
  let s1 := s.touchRange e off r.len
  match h.data with
  | none =>
    (match s1.poisonIn e.extmap off r.len with
     | [] => s1.send [.hostData r.fn (s1.memRead e.extmap off r.len)]
     | l => (l.foldl (fun (s : State) o => s.detect e.extmap o) s1).send [.poisoned r.fn])
  | some bs =>
    let s2 := s1.memWrite e.extmap off (bs.take r.len)
    match r.order with
    | .pcie _ _ => s2
    | .cxlMem => s2.send [.hostDone r.fn]

/-- Whether one posted write keeps its place behind another (R280): both of one port and traffic class, neither with
Relaxed Ordering. -/
def behindReq (r x : HostReq) : Bool :=
  match r.order, x.order with
  | .pcie c false, .pcie d false => r.port == x.port && c == d
  | .pcie _ true, .pcie _ _ => false
  | .pcie _ false, .pcie _ true => false
  | .pcie _ _, .cxlMem => false
  | .cxlMem, .pcie _ _ => false
  | .cxlMem, .cxlMem => false

/-- Whether a write waits behind a held write (R280). (DEDUCED, log 57.) -/
def State.writeWaits (s : State) (r : HostReq) : Bool :=
  s.heldHost.any (fun (x : HeldHost) => x.data.isSome && behindReq r x.req)

/-- Whether a request is held: its home is shed or does not answer, or it is a write behind a held write (R280). -/
def State.hostHolds (s : State) (h : HeldHost) (e : BufEntry) : Bool :=
  s.engineHeld e (s.windowOff h.req) h.req.len || (h.data.isSome && s.writeWaits h.req)

/-- A host request arrives on one of the two ports; one to a buffer whose key is not LIVE reaches nothing (R350). -/
def State.hostRequest (s : State) (h : HeldHost) : State :=
  if !s.hostOpen then h.turnAway s
  else
    match s.windowEntry h.req with
    | none => h.turnAway s
    | some e =>
      if !s.hostAccepts h.req e then (if e.world then s.hostRefuse h e else h.turnAway s)
      else if (s.keySerial e.key).isNone then h.turnAway s
      else if s.hostHolds h e then { s with heldHost := s.heldHost ++ [h] }
      else s.hostPerform h e

/-- HOST_READ (R363, R364). -/
def execHostRead (r : HostReq) (s : State) : Out := .next (s.hostRequest { req := r, data := none })

/-- HOST_WRITE (R280, R363). -/
def execHostWrite (r : HostReq) (data : List Byte) (s : State) : Out := .next (s.hostRequest { req := r, data := some data })

/-- The held requests are tried again in their order. -/
def State.drainHost (s : State) : State :=
  s.heldHost.foldl (fun (s : State) (h : HeldHost) => s.hostRequest h) { s with heldHost := [] }

/-- At PWRF held reads complete with Unsupported Request and held writes are dropped. -/
def State.dropHeld (s : State) : State := { s with heldHost := [] }.send (s.heldHost.flatMap HeldHost.refusal)

/-! ### Links (R365, R367, R415) -/

def State.linkOf (s : State) (n : Nat) : Link := (s.links.find? (fun (l : Link) => l.num == n)).getD (Link.blank n)

/-- Change link `n`, one of 16. -/
def State.modLink (s : State) (n : Nat) (f : Link → Link) : State :=
  if n < 16 then { s with links := s.links.filter (fun (l : Link) => l.num != n) ++ [f (s.linkOf n)] } else s

/-- The modules that hold extents of this one. -/
def State.holdersAway (s : State) : List Nat :=
  s.exts.filterMap (fun (e : Extent) => if e.state == .remote then some e.peer else none)

/-- Whether a module is a MISSING member of a group of this one (R372). -/
def State.memberMissing (s : State) (peer : Nat) : Bool :=
  s.groups.any (fun (g : Group) => g.entry.valid && (List.range g.entry.g).any (fun r =>
    (g.entry.members[r]?) == some peer && g.stateOf r == .missing))

/-- Which holders answer in a new tick: one that does not is away from then on, one that does is in reach again, unless it is
a MISSING member, and what engines held for it is tried again (R369, R382). (DEDUCED, log 60.) -/
def State.watchHolders (s : State) : State :=
  let reach := fun (p : Nat) => s.links.any (fun (l : Link) => l.up) && Config.peerUp p s.ticks
  let back := s.away.filter (fun p => s.holdersAway.contains p.1 && reach p.1 && !s.memberMissing p.1)
  let s1 := { s with away := s.away.filter (fun p => !back.contains p) }.lose (s.holdersAway.filter (fun p => !reach p))
  if back.isEmpty then s1 else s1.drainHost

/-- A link is taken down: its LINKUP bit clears; with the last one every holder is out of reach. -/
def State.linkFails (s : State) (n : Nat) : State :=
  let s1 := s.modLink n (fun l => { l with up := false, replays := 0 })
  if s1.links.any (fun (l : Link) => l.up) then s1 else s1.lose s1.holdersAway

/-- LINK_DOWN (R367). -/
def execLinkDown (n : Nat) (s : State) : Out := moduleOnly (fun s => s.linkFails n) s

/-- The fabric manager's assignment when the domain is formed: this module's number and the number of modules (R365).
(DESIGN CHOICE, log 106.) -/
def State.joinDomain (s : State) (dom : Option (Nat × Nat)) : State :=
  match dom with
  | some (m, d) => if m < d ∧ d ≤ 64 then { s with module := m, dsize := d } else s
  | none => s

/-- LINK_UP (R365, R369): the link is trained, and with it the domain may be formed; the holders are in reach again, but for
modules that are MISSING, and engines' requests that waited for a holder are tried again. -/
def execLinkUp (x : LinkTrain) (s : State) : Out :=
  moduleOnly (fun s =>
    { (s.joinDomain x.dom).modLink x.num (fun l => { l with up := true, replays := 0 }) with
      away := s.away.filter (fun p => s.memberMissing p.1) }.drainHost) s

/-- FLIT_CRC_ERROR (R367): a replay from the first bad flit; the failure of a sixteenth replay in a row of one flit takes
the link down. -/
def execFlitCrcError (n seq : Nat) (s : State) : Out :=
  moduleOnly (fun s =>
    let l := s.linkOf n
    if l.seq = seq ∧ 16 ≤ l.replays then s.linkFails n
    else
      (s.modLink n (fun l => { l with seq := seq, replays := if l.seq = seq then l.replays + 1 else 1 })).send
        [.replay n seq]) s

/-- LINK_LANE_LOST (R415): REPLACE and an entry of TYPE 9. -/
def execLinkLaneLost (n lane : Nat) (s : State) : Out :=
  moduleOnly (fun s =>
    if 16 ≤ n ∨ 8 ≤ lane ∨ (s.linkOf n).lost.contains lane then s
    else
      let s1 := s.modLink n (fun l => { l with lost := l.lost ++ [lane] })
      { s1 with mgmt := { s1.mgmt with replace := true } }.jEvent 9 .link (Config.logicLoc 7 [n, lane]) 0) s

/-! ### Requests of peers to homes here (R281, R368 to R370, R395) -/

/-- Bytes that a request touches. -/
def peerLen : PeerOp → Nat
  | .read n => n
  | .write d _ => d.length
  | .add z _ => z
  | .swap z _ => z
  | .cas z _ _ => z

/-- Granules of a write packet at their home: data and tags (R197, R342, R370). -/
def State.peerWrite (s : State) (e : BufEntry) (off : Nat) (data : List Byte) (tags : List Bool) : State :=
  let s1 := s.memWrite e.extmap off data
  ((List.range tags.length).zip tags).foldl (fun (s : State) (t : Nat × Bool) =>
    if t.2 && (off + 16 * t.1) % 16 == 0 && decide (16 * (t.1 + 1) ≤ data.length) then
      let v := s.memReadCap e.extmap (off + 16 * t.1)
      s.setTag e.extmap (off + 16 * t.1) (s.enter e.owner { v with tag := true }).tag
    else s) s1

/-- An atomic at its home: the old value goes back. -/
def State.peerAtomic (s : State) (r : PeerReq) (e : BufEntry) (size : Nat) (f : Nat → Option Nat) : State :=
  let old := s.memRead e.extmap r.off size
  let s1 := match f (bytesToNat old) with
    | some v => s.memWrite e.extmap r.off (natToBytes size v)
    | none => s
  s1.send [.peerData r.src old []]

/-- The tags of the granules of a range. -/
def State.rangeTags (s : State) (map a n : Nat) : List Bool := (List.range (n / 16)).map (fun g => s.memTag map (a + 16 * g))

/-- What a request that its home serves does. -/
def State.peerPerform (s : State) (r : PeerReq) (e : BufEntry) : State :=
  match r.op with
  | .read n => s.send [.peerData r.src (s.memRead e.extmap r.off n) (s.rangeTags e.extmap r.off n)]
  | .write d t => (s.peerWrite e r.off d t).send [.peerAck r.src]
  | .add z v => s.peerAtomic r e z (fun m => some ((m + v) % 2 ^ (8 * z)))
  | .swap z v => s.peerAtomic r e z (fun _ => some (v % 2 ^ (8 * z)))
  | .cas z old new => s.peerAtomic r e z (fun m => if m = old % 2 ^ (8 * z) then some (new % 2 ^ (8 * z)) else none)

/-- Whether a request reads. -/
def peerReads (r : PeerReq) : Bool :=
  match r.op with
  | .read _ => true | .write _ _ => false | .add _ _ => true | .swap _ _ => true | .cas _ _ _ => true

/-- A request to a shed home, or one that arrives while the module hibernates, is answered PAUSED (R386, R395); a module
without power does not answer. -/
def State.answersPaused (s : State) (e : BufEntry) (a n : Nat) : Bool :=
  s.homeShed e a n ||
  (match s.power.phase with
   | .hib _ => true
   | .on => false
   | .off => false
   | .restart _ => false)

/-- PEER_MEMORY_REQUEST (R205, R281, R370): the port check of the home, then the access. (DEDUCED, log 59.) -/
def execPeerMemoryRequest (r : PeerReq) (s : State) : Out :=
  moduleOnly (fun s0 =>
    let s := s0.heard r.src
    match (s.spaceOf r.asid).entry r.index with
    | none => if s.power.phase == .off then s else s.send [.peerFault r.src]
    | some e =>
      let n := peerLen r.op
      if s.power.phase == .off then s
      else if s.answersPaused e r.off n then
        { s with pausedTo := (s.pausedTo ++ [r.src]).eraseDups }.send [.peerPaused r.src]
      else
        let s1 := s.touchRange e r.off n
        if e.kind != .memory || decide (e.length < r.off + n) || e.world != r.world || !s1.portOkMem e r.off n then
          s.send [.peerFault r.src]
        else if peerReads r && !(s1.poisonIn e.extmap r.off n).isEmpty then
          ((s1.poisonIn e.extmap r.off n).foldl (fun (s : State) o => s.detect e.extmap o) s1).send [.peerFault r.src]
        else s1.peerPerform r e) s

/-! ### PAUSED and RESUMED from peers (R369, R395) -/

/-- The extents of an access that a peer holds. -/
def State.heldByPeer (s : State) (x : Access) (peer : Nat) : List (Nat × Nat) :=
  match x.loc with
  | .mem map => (x.pieces.flatMap (fun (p : Piece) => extentsOf p.addr x.size)).eraseDups.filterMap (fun e =>
      match s.extent map e with
      | some y => if y.state == .remote && y.peer == peer then some (map, e) else none
      | none => none)
  | .loc _ => []

/-- The extents of a card that a peer holds. -/
def State.cardByPeer (s : State) (c : Card) (peer : Nat) : List (Nat × Nat) :=
  (c.ranges.flatMap (fun (r : BufEntry × Nat × Nat) =>
    if r.1.isLocal then [] else (extentsOf r.2.1 r.2.2).map (fun e => (r.1.extmap, e)))).eraseDups.filter (fun p =>
      match s.extent p.1 p.2 with
      | some y => y.state == .remote && y.peer == peer
      | none => false)

/-- PAUSED_RESPONSE (R369, R395): a request of access `k` of the current context, or past those of a card of its core, was
answered PAUSED; it is held as an access to a non-resident extent: one that returns a value holds the context, another one
retires into the side log, a card is held. -/
def execPausedResponse (peer k : Nat) (s : State) : Out :=
  moduleOnly (fun s =>
    match s.ctx.mem.outs[k]? with
    | none =>
      (match s.card (k - s.ctx.mem.outs.length) with
       | some c => { s with pausedBy := (s.pausedBy ++ s.cardByPeer c peer).eraseDups }
       | none => s)
    | some x =>
      let l := s.heldByPeer x peer
      if l.isEmpty then s
      else
        let s1 := { s with pausedBy := (s.pausedBy ++ l).eraseDups }
        if x.op.returns then
          s1.onCtx (fun c => { c with mem := { c.mem with outs := c.mem.outs.map (fun y => if y.seq = x.seq then { y with hold := true } else y) } })
        else if x.op.isFence || decide (32 ≤ s.ctx.mem.slog.length) then s1
        else
          s1.onCtx (fun c => { c with mem := { c.mem with
            outs := c.mem.outs.filter (fun y => y.seq != x.seq), slog := c.mem.slog ++ [s1.intoLog x] } })) s

/-- RESUMED (R395): the peer's stack has returned; what was held for it is sent again. -/
def execResumed (peer : Nat) (s : State) : Out :=
  moduleOnly (fun s =>
    { s.heard peer with pausedBy := s.pausedBy.filter (fun (p : Nat × Nat) =>
        match s.extent p.1 p.2 with
        | some y => y.peer != peer
        | none => false) }.drainHost) s

end Sys2Proof.Machine
end

