-- ==== Sys2Proof/Machine/Manifest.lean ====
section
/-! DEFINITION. The sealed manifest's bytes: its header, its tables, its digest and its signature (R391, R392). -/

namespace Sys2Proof.Machine

open Sys2Proof

/-! ### Words of the tables -/

def flag (b : Bool) : Nat := if b then 1 else 0

/-- Bytes filled up with zeros to `n`. -/
def padTo (n : Nat) (l : List Byte) : List Byte := l ++ List.replicate (n - l.length) 0

def BufKind.num : BufKind → Nat
  | .memory => 0 | .local => 1 | .code => 2 | .reserved => 3

/-- The 256 bits of a buffer-space entry (R199). -/
def BufEntry.toBits (e : BufEntry) : Nat :=
  e.length + e.kind.num * 2 ^ 40 + flag e.valid * 2 ^ 42 + flag e.shared * 2 ^ 43 + flag e.world * 2 ^ 44 + e.rack * 2 ^ 45 +
    e.key * 2 ^ 48 + e.owner * 2 ^ 64 + e.gen * 2 ^ 80 + e.stackSet * 2 ^ 92 + e.pch * 2 ^ 100 + e.stride * 2 ^ 107 +
    (if e.kind == .local then e.home * 2 ^ 128 + e.loff * 2 ^ 132 else e.extmap * 2 ^ 128) + e.gfloor * 2 ^ 192

/-- The bytes of a LAUNCH record (R304). -/
def LaunchRec.bytes (r : LaunchRec) : List Byte :=
  padTo 128 ([1, BitVec.ofNat 8 (flag r.anchor + flag r.meld * 2 + flag r.preempt * 4)] ++
    ([(2, r.asid), (1, r.rows), (1, r.cols), (1, r.row0), (1, r.col0), (2, r.cores), (2, r.image), (2, r.pool), (2, r.poolsz),
      (2, r.frame), (2, r.save), (4, r.framesz), (2, r.arg), (6, r.argPerms), (8, r.argCur), (8, r.argBase), (8, r.argLen),
      (8, r.s1.toNat), (4, r.hang), (4, r.wall), (8, r.timeout), (8, r.tag.toNat)] : List (Nat × Nat)).flatMap
        (fun x => natToBytes x.1 x.2))

/-- The 512 bits of an entry of the group table (R371). -/
def GroupEntry.bits (e : GroupEntry) : Nat :=
  flag e.valid + e.gid * 2 + e.g * 2 ^ 7 + e.rank * 2 ^ 14 + e.asid * 2 ^ 20 + e.key * 2 ^ 36 + e.waitlim * 2 ^ 48 +
    ofElems 6 e.members * 2 ^ 64

/-! ### The tables -/

/-- The owned memory and code buffers of every space: ASID, index, entry. -/
def ownedIn (spaces : List Space) : List (Nat × Nat × BufEntry) :=
  spaces.flatMap (fun sp => sp.entries.filterMap (fun (p : Nat × BufEntry) =>
    if p.2.valid && !p.2.isLocal && p.2.owner == sp.asid then some (sp.asid, p.1, p.2) else none))

/-- A partition's locked items in item order and its measurement generation: the widths of the items are the model's.
(DESIGN CHOICE, log 64.) -/
def Manifest.items (m : Manifest) (p : Part) : List Byte :=
  let owned := m.assign.filter (fun (a : Nat × Nat) => a.2 == p.num)
  let st := (m.streams.find? (fun (x : Stream) => x.num == p.num)).getD (Stream.blank p.num)
  let deal := m.deal.flatMap (fun (t : DealTable) =>
    ((List.range t.slots.length).filter (fun i => (t.slots[i]?).getD none == some p.num)).map (fun i => (t.cls, t.port, i)))
  natToBytes 24 (owned.foldl (fun n a => n ||| 2 ^ a.1) 0) ++ natToBytes 1 (flag p.tdi.secure) ++
  natToBytes 2 p.asids.length ++ p.asids.flatMap (natToBytes 2) ++
  natToBytes 2 deal.length ++ deal.flatMap (fun d => natToBytes 1 d.1 ++ natToBytes 1 d.2.1 ++ natToBytes 1 d.2.2) ++
  p.keys.toList.flatMap (natToBytes 512) ++ natToBytes 2 p.retry ++ natToBytes 1 st.level ++ natToBytes 1 st.weight ++
  natToBytes 4 p.mgen.toNat

/-- The configuration table: the registers of 64 streams, what each partition holds locked, the cluster assignments, the
deal tables, the group table. -/
def Manifest.configTable (m : Manifest) : List Byte :=
  (List.range 64).flatMap (fun n =>
    let st := (m.streams.find? (fun (x : Stream) => x.num == n)).getD (Stream.blank n)
    (List.range 8).flatMap (fun k => natToBytes 8 (st.readReg (8 * k)))) ++
  (List.range 64).flatMap (fun n => m.items ((m.parts.find? (fun (p : Part) => p.num == n)).getD (Part.blank n))) ++
  (List.range 192).flatMap (fun c => natToBytes 1 (((m.assign.find? (fun (a : Nat × Nat) => a.1 == c)).map (·.2)).getD 0)) ++
  m.deal.flatMap (fun (t : DealTable) => t.slots.flatMap (fun x => natToBytes 1 (x.getD 0xFF))) ++
  (List.range 64).flatMap (fun k =>
    natToBytes 64 (((m.groups.find? (fun (g : Group) => g.entry.gid == k)).map (fun g => g.entry.bits)).getD 0))

/-- The region table: each buffer's entry, whether it is lost, how many of its extents are racked. -/
def Manifest.regionTable (m : Manifest) : List (List Byte) :=
  (ownedIn m.spaces).map (fun b =>
    let racked := ((m.racked.find? (fun (x : Nat × Nat) => x.1 == b.2.2.extmap)).map (·.2)).getD 0
    padTo 64 (natToBytes 32 b.2.2.toBits ++ natToBytes 4 (flag (m.lost.contains b.2.2.extmap)) ++ natToBytes 4 racked))

/-- The collective job outstanding among saved cards: its group and its step. -/
def collCard (l : List Card) : Option (Nat × Nat) :=
  l.findSome? (fun (c : Card) =>
    match c.kind with
    | .coll gid _ _ step _ => some (gid, step)
    | .copy _ => none
    | .fill => none
    | .mcast _ _ => none)

/-- The context table: launch entry, position, STOP, save area, sy.bundles, sy.step, the outstanding `kcoll`. -/
def Manifest.ctxTable (m : Manifest) : List (List Byte) :=
  m.ctxs.map (fun (c : Ctx) =>
    let n := ((List.range m.launches.length).find? (fun k =>
      ((m.launches[k]?).map (fun (l : Launch) => l.id)) == some c.place.launch)).getD 0
    let job := c.saved.bind (fun (v : Saved) => collCard v.cards)
    padTo 64 (natToBytes 4 n ++ natToBytes 1 c.place.clord ++ natToBytes 1 c.place.core ++ natToBytes 1 c.place.slot ++
      natToBytes 1 ((c.saved.map (fun (v : Saved) => v.code.num)).getD 0) ++ natToBytes 8 (saveBase c.place) ++
      natToBytes 8 c.st.bundles.toNat ++ natToBytes 4 c.st.step.toNat ++ natToBytes 1 (flag c.st.stepValid) ++
      natToBytes 1 ((job.map (·.1)).getD 0xFF) ++ natToBytes 4 ((job.map (·.2)).getD 0)))

/-- STATE of a launch in its table: running, or stopped by pre-emption and waiting. -/
def Launch.tableState (l : Launch) : Nat := if l.state == .stopped .preempt then 1 else 0

/-- The launch table: launches in the order of their starts, then those in their launch sequences, of STATE 2. -/
def Manifest.launchTable (m : Manifest) : List (List Byte) :=
  m.launches.map (fun (l : Launch) =>
    padTo 160 (l.lrec.bytes ++ natToBytes 1 l.stream ++ natToBytes 1 l.tableState ++ natToBytes 1 l.row ++ natToBytes 1 l.col ++
      natToBytes 4 l.journal)) ++
  m.streams.filterMap (fun (st : Stream) => st.begun.map (fun b =>
    padTo 160 (natToBytes 128 b.2 ++ natToBytes 1 st.num ++ natToBytes 1 2 ++ natToBytes 2 0 ++ natToBytes 4 b.1)))

/-- The keys that enter the key table: index, state, partition, key. -/
def KeyRec.tableRow (k : KeyRec) : Option (Nat × Nat × Nat × Nat) :=
  match k.st with
  | .live n => some (k.index, 0, n, k.serial)
  | .held n => some (k.index, 0, n, k.serial)
  | .sealed n => some (k.index, 1, n, k.serial)
  | .retired => none

/-- The key table, each key wrapped under the seal key of this SEQ (R392); key 0, partition 0's own, is LIVE at all times
(R350). -/
def Manifest.keyTable (m : Manifest) : List (List Byte) :=
  ((0, 0, 0, Config.deviceKey) :: m.keys.filterMap KeyRec.tableRow).map (fun k =>
    let left := if k.2.1 = 1 then ((m.windows.find? (fun (w : Nat × Nat) => w.1 == k.2.2.1)).map (·.2)).getD 0 else 0
    padTo 64 (natToBytes 2 k.1 ++ natToBytes 1 k.2.1 ++ natToBytes 1 k.2.2.1 ++ natToBytes 8 left ++
      natToBytes 40 (Config.wrap (Config.sealKey m.seq) k.2.2.2)))

/-- The group table of the manifest. -/
def Manifest.groupTable (m : Manifest) : List (List Byte) := m.groups.map (fun (g : Group) => natToBytes 64 g.entry.bits)

/-- The tables in the order of their offsets. -/
def Manifest.tables (m : Manifest) : List (List Byte) :=
  [m.configTable, m.regionTable.flatten, m.ctxTable.flatten, m.launchTable.flatten, m.keyTable.flatten, m.groupTable.flatten]

/-! ### The header, the digest, the signature -/

/-- Where each table begins, from the manifest's start: the first after the header and the signature. -/
def tableOffsets (at_ : Nat) : List (List Byte) → List Nat
  | [] => []
  | t :: r => at_ :: tableOffsets (at_ + t.length) r

/-- Bytes 127:0 of the header. -/
def Manifest.header (m : Manifest) : List Byte :=
  padTo 64 (natToBytes 4 0x4B564D31 ++ natToBytes 2 1 ++ natToBytes 1 m.reason ++ natToBytes 1 (flag m.partialRack) ++
    natToBytes 8 m.seq ++ natToBytes 8 m.ticks ++ natToBytes 8 m.reserve ++ natToBytes 4 m.regionTable.length ++
    natToBytes 4 m.ctxs.length ++ natToBytes 4 m.launchTable.length ++ natToBytes 4 m.keyTable.length ++
    natToBytes 4 m.groups.length ++ natToBytes 4 m.jhead) ++
  padTo 64 ((tableOffsets 768 m.tables).flatMap (natToBytes 8))

/-- DIGEST: SHA-512 over bytes 127:0 of the header followed by every table. -/
def Manifest.digestOf (m : Manifest) : Nat := Config.sha512 ((m.header ++ m.tables.flatten).map BitVec.toNat)

/-- The manifest with its digest and the device's signature of it. -/
def Manifest.signed (m : Manifest) : Manifest := { m with digest := m.digestOf, sig := Config.sign m.digestOf }

/-- The bytes of a manifest in its slot: header, signature, tables. -/
def Manifest.bytes (m : Manifest) : List Byte :=
  m.header ++ padTo 128 (natToBytes 64 m.digest) ++ natToBytes 512 m.sig ++ m.tables.flatten

/-- Whether a manifest verifies: its signature is the device's own of its digest, and the digest matches. -/
def Manifest.verifies (m : Manifest) : Bool := m.sig == Config.sign m.digest && m.digest == m.digestOf

end Sys2Proof.Machine
end

