-- ==== Sys2Proof/Machine/Power.lean ====
section
/-! DEFINITION. Loss of supply: regulator phases, brown-out shedding, the power-fail sequence, racking, the sealed
manifest, the thermal cut and the restart (R2, R385 to R405, R407, R410). -/

namespace Sys2Proof.Machine

open Sys2Proof

/-! ### Stacks (R393 to R397) -/

/-- Change every listed cluster of a stack; a blank one is listed first. -/
def State.onStack (s : State) (k : Nat) (f : Cluster → Cluster) : State :=
  ((List.range 192).filter (fun n => clusterStack n == k)).foldl (fun (s : State) n => s.putCluster n f) s

/-- The next stack of SHEDORDER that is not shed. -/
def State.nextShed (s : State) : Option Nat := s.mgmt.shedOrder.find? (fun k => !s.power.shed.contains k)

/-- The shed of the next stack begins: it leaves every claim, and its contexts issue no further bundle (R394).
(DEDUCED, log 62.) -/
def State.startShed (s : State) : State :=
  match s.nextShed with
  | some k => { s with power := { s.power with shedding := some k } }.onStack k (fun c => { c with shed := true })
  | none => s

/-- BROWN (R393): d62 is set, returns stop, and the next stack is shed. One raised while BROWN stands with no shed in progress,
every stack of SHEDORDER being shed, is a new one: the bus has recovered since. -/
def execBrown (s : State) : Out :=
  moduleOnly (fun s =>
    if s.power.phase == .on && (!s.power.brown || s.power.shedding.isNone) then
      let s1 := { s with power := { s.power with brown := true, returning := false } }.abandonUpdate.note .brown
      if s1.power.shedding.isNone then s1.startShed else s1
    else s) s

/-- Whether no context of a stack is left to save. -/
def State.stackSaved (s : State) (k : Nat) : Bool :=
  s.allCtx.all (fun c => clusterStack c.place.cluster != k || !c.phase.resident)

/-- A core whose compute die has lost power: the grist keeps its contents on a shed stack; the cards of contexts that have
ended stay for the return. -/
def Core.dark (k : Core) (keepGrist : Bool) : Core :=
  let b := { Core.blank k.cluster k.num with
    cards := k.cards.map (fun (c : Card) => { c with started := false, held := false }) }
  if keepGrist then { b with grist := k.grist, gristAsid := k.gristAsid } else b

/-- The clusters of a test lose power: their caches are written back and their cores go dark. Dirty bytes whose home is out of
reach are held, as accesses to it are, and go home when it is in reach again. (DEDUCED, log 62.) -/
def State.clustersOff (s : State) (p : Nat → Bool) (keepGrist : Bool) : State :=
  let s1 := ((s.clus :: s.clusters).filter (fun (c : Cluster) => p c.num)).foldl
    (fun (s : State) (c : Cluster) => s.atCore c.num 0 State.writeBackReach) s
  let f := fun (x : Core) => if p x.cluster then x.dark keepGrist else x
  let g := fun (c : Cluster) => if p c.num then { c with lines := c.lines.filter (fun x => !x.dirty.isEmpty) } else c
  { s1 with core := f s1.core, cores := s1.cores.map f, clus := g s1.clus, clusters := s1.clusters.map g }

/-- Steps 3 to 5 of a shed: the caches of a stack are written back, its compute die is off. -/
def State.stackOff (s : State) (k : Nat) : State := s.clustersOff (fun n => clusterStack n == k) true

/-! ### Regions (R407) -/

/-- A region that has lost two phases is shed: launches that hold one of its clusters are stopped whole, contexts of one under
an abort end as they are asked to stop (R338), and its clusters are unhealthy. -/
def State.shedRegion (s : State) (n : Nat) : State :=
  let cls := (List.range 192).filter (fun c => clusterRegion c == n)
  let hit := s.launches.filter (fun (l : Launch) => l.state.isRunning && l.clusters.any (fun c => cls.contains c))
  let s1 := hit.foldl (fun (s : State) (l : Launch) => s.stopLaunch l.id .brown) s
  let s2 := cls.foldl (fun (s : State) c => s.putCluster c (fun x => { x with healthy := false })) s1
  ({ s2 with mgmt := { s2.mgmt with replace := true } }.modRegion n (fun r => { r with shed := true })).jEvent 5 .regulator
    (Config.logicLoc 8 [n]) 0

/-- Whether nothing runs in a region: no context stands there, and no card. -/
def State.regionIdle (s : State) (n : Nat) : Bool :=
  s.allCtx.all (fun c => clusterRegion c.place.cluster != n || !c.phase.occupied) &&
  (s.core :: s.cores).all (fun (k : Core) => clusterRegion k.cluster != n || k.cards.isEmpty)

/-- The power of a shed region goes off once nothing runs there (R407). -/
def State.regionOff (s : State) (n : Nat) : State :=
  if s.regionIdle n then
    (s.clustersOff (fun c => clusterRegion c == n) false).modRegion n (fun r => { r with off := true })
  else s

/-- Regions due to be shed and powered off, outside a shed and outside the power-fail sequence. -/
def State.settleRegions (s : State) : State :=
  if s.power.phase == .on && s.power.shedding.isNone then
    let s1 := (s.regions.filter (fun (r : Region) => decide (2 ≤ r.lost) && !r.shed)).foldl
      (fun (s : State) (r : Region) => s.shedRegion r.num) s
    (s1.regions.filter (fun (r : Region) => r.shed && !r.off)).foldl (fun (s : State) (r : Region) => s.regionOff r.num) s1
  else s

/-- PHASE_LOSS (R407): REPLACE, PHLOST and an entry of TYPE 4; a second loss in a region sheds it, after the shed or the
power-fail sequence in progress. -/
def execPhaseLoss (region : Nat) (s : State) : Out :=
  if 48 ≤ region then .next s
  else
    let m := { s.mgmt with replace := true, phlost := min 127 (s.mgmt.phlost + 1) }
    let s1 := ({ s with mgmt := m }.modRegion region (fun r => { r with lost := r.lost + 1 })).jEvent 4 .regulator
      (Config.logicLoc 8 [region]) 0
    .next s1.settleRegions

/-! ### The course of a brown-out (R393 to R398) -/

/-- SHED_COMPLETE (R393, R394): the stack is off; while the bus is below VBROWN the next stack is shed. -/
def execShedComplete (below : Bool) (s : State) : Out :=
  moduleOnly (fun s =>
    match s.power.shedding with
    | none => s
    | some k =>
      if s.stackSaved k then
        let s1 := s.stackOff k
        let s2 := { s1 with power := { s1.power with shed := s1.power.shed ++ [k], shedding := none, brown := below } }
        (if below then (s2.note .brown).startShed else s2).settleRegions
      else s) s

/-- STACK_RETURN (R395, R397): the bus has stayed at or above VRET, so BROWN is clear; the stack shed last returns; what
was held for it is sent again. -/
def execStackReturn (s : State) : Out :=
  moduleOnly (fun s =>
    match s.power.shed.getLast? with
    | none => s
    | some k =>
      if s.power.phase == .on && s.power.shedding.isNone then
        let s1 := { s with power := { s.power with shed := s.power.shed.dropLast, returning := true, brown := false } }.onStack k
          (fun c => { c with shed := false })
        ({ s1 with pausedTo := [] }.send (s.pausedTo.map Msg.peerResumed)).drainHost
      else s) s

/-! ### The power-fail sequence (R386, R387) -/

/-- The buffers, by extent map, that every launch names as IMAGE, POOL, FRAME or SAVE are racked as class 0 (R388); FRAME is
ignored where FRAMESZ = 0 (R305). -/
def State.firstRacked (s : State) : List Nat :=
  (s.launches.filter (fun (l : Launch) => s.holdsClusters l)).flatMap (fun (l : Launch) =>
    ([l.lrec.image, l.lrec.pool, l.lrec.save] ++ (if l.lrec.framesz = 0 then [] else [l.lrec.frame])).filterMap (fun i =>
      ((s.spaceOf l.lrec.asid).entry i).map (fun e => e.extmap)))

/-- Phase 1 (R386): the streams and the ports stop, and the stop request goes to every core; what must perform before the
saves performs (R383, R387). -/
def State.startHib (s : State) (reason reserve : Nat) : State :=
  let s1 := s.abandonUpdate.dropHeld
  let p := { s1.power with
    phase := .hib 1, brown := false, shedding := none, returning := false, raised := s1.ticks, reason := reason
    reserve := reserve, rackFirst := s1.firstRacked }
  let live := fun (l : Launch) => (s1.ctxOf l.id).any (fun c => c.phase.resident || c.phase.isStopped)
  { s1 with
    power := p
    launches := s1.launches.map (fun (l : Launch) =>
      if l.state.isRunning && live l then { l with state := .stopped .pwrf } else l) }

/-- Whether every context may be saved: nothing is left that must perform before the saves, and phase 1 ends (R387).
(DEDUCED, log 103.) -/
def State.hibDrained (s : State) : Bool := s.allCtx.all (fun c => !c.phase.resident || (s.switchTo c).savable)

/-- Whether every context has been saved. -/
def State.allSaved (s : State) : Bool := s.allCtx.all (fun c => !c.phase.resident)

/-! ### Racking (R388 to R390) -/

/-- The hibernation class of an owned buffer. -/
def State.rackClass (s : State) (e : BufEntry) : Nat := if s.power.rackFirst.contains e.extmap then 0 else e.rack

/-- Insertion of a keyed item in a rising list. -/
def insertKey (k : Nat) (v : Nat × Nat) : List (Nat × Nat × Nat) → List (Nat × Nat × Nat)
  | [] => [(k, v)]
  | x :: r => if k ≤ x.1 then (k, v) :: x :: r else x :: insertKey k v r

/-- The extents resident in HBM in racking order: by class, owner, index and extent. -/
def State.rackOrder (s : State) : List (Nat × Nat) :=
  let all := (ownedIn s.spaces).flatMap (fun (b : Nat × Nat × BufEntry) =>
    (s.exts.filter (fun (x : Extent) => x.map == b.2.2.extmap && x.state == .hbm)).map (fun (x : Extent) =>
      (((s.rackClass b.2.2 * 65536 + b.1) * 4096 + b.2.1) * 2 ^ 24 + x.ext, (x.map, x.ext))))
  (all.foldl (fun l x => insertKey x.1 x.2 l) []).map (·.2)

/-- The first `n` extents of the order move to SCM frames, while one is free. -/
def State.rack (s : State) (n : Nat) : State :=
  (s.rackOrder.take n).foldl (fun (s : State) (p : Nat × Nat) =>
    match s.freeInScm with
    | some f => s.modExtent p.1 p.2 (fun x => { x with state := .scm, mig := false, frame := f })
    | none => s) s

/-- The buffers, by extent map, that are lost: some extent is left in HBM. -/
def State.lostMaps (s : State) : List Nat :=
  ((s.exts.filter (fun (x : Extent) => x.state == .hbm)).map (fun (x : Extent) => x.map)).eraseDups

/-! ### The manifest (R391, R392) -/

/-- Ticks left of each running migration's window. -/
def State.windowsLeft (s : State) : List (Nat × Nat) :=
  s.parts.filterMap (fun (p : Part) => p.migr.map (fun t => (p.num, t - s.ticks)))

/-- What the manifest of the module says as it stands after racking, not yet signed. (DESIGN CHOICE, log 64.) -/
def State.manifest (s : State) : Manifest :=
  let lost := s.lostMaps
  let keep := fun (map : Nat) => !lost.contains map
  let inScm := fun (map : Nat) => (s.exts.filter (fun (x : Extent) => x.map == map && x.state == .scm)).length
  { seq := s.power.counter + 1, reason := s.power.reason, partialRack := !lost.isEmpty, ticks := s.power.raised
    reserve := s.power.reserve, jhead := s.ljNext, streams := s.streams, parts := s.parts
    assign := ((s.clus :: s.clusters).filter (fun (c : Cluster) => c.part != 0)).map (fun (c : Cluster) => (c.num, c.part))
    deal := s.deal, groups := s.groups, spaces := s.spaces, lost := lost
    racked := ((s.exts.map (fun (x : Extent) => x.map)).eraseDups).map (fun map => (map, inScm map))
    mem := s.mem.filter (fun (x : Host.Cell) => keep (x.1 / 2 ^ 40))
    memTags := s.memTags.filter (fun g => keep (16 * g / 2 ^ 40))
    poison := s.poison.filter (fun k => keep (k / 2 ^ 40))
    exts := s.exts.filter (fun (x : Extent) => keep x.map)
    ctxs := s.allCtx.filter (fun c => c.phase.isStopped), launches := s.launches, graphs := s.graphs
    jobs := (s.core :: s.cores).flatMap (fun (k : Core) => k.cards.map (fun (c : Card) => (k.cluster, k.num, c)))
    coll := s.coll, keys := s.keys, windows := s.windowsLeft, digest := 0, sig := 0 }

/-- The manifest, signed, goes into the slot that does not hold the most recent one. -/
def Power.seal (p : Power) (m : Manifest) : Power :=
  let at_ := fun (o : Option Manifest) => (o.map (fun (x : Manifest) => (x.seq, x.ticks))).getD (0, 0)
  let (a, b) := (at_ p.slotA, at_ p.slotB)
  if b.1 < a.1 ∨ (b.1 = a.1 ∧ b.2 < a.2) then { p with slotB := some m.signed } else { p with slotA := some m.signed }

/-- The valid manifest: its signature verifies, its digest matches, and its SEQ is the counter plus one. Of two, one sealed
before a thermal cut, whose restart never came to its end, the later one. -/
def Power.valid (p : Power) : Option Manifest :=
  match (p.slotA.toList ++ p.slotB.toList).filter (fun (m : Manifest) => m.verifies && m.seq == p.counter + 1) with
  | [] => none
  | [m] => some m
  | m :: x :: _ => some (if m.ticks < x.ticks then x else m)

/-! ### Without power (R2, R386, R410) -/

/-- On a VPM9-P a loss of power ends the window of every migration: the TDI is in ERROR and reported lost (R360). -/
def State.lostMigrations (s : State) : List Part :=
  (s.parts.filter (fun (p : Part) => p.migr.isSome || p.lost)).map (fun (p : Part) =>
    { Part.blank p.num with
      tdi := .error, lost := true
      lates := if p.migr.isSome then p.lates ++ [s.migrDigestOf p.num] else p.lates })

/-- What is left without power: the journals, the manifest slots, the counter, the firmware slots, the status that lasts, the
settings of the input monitor (R385), retired rows, lost phases and lanes, and the host's own memory. (DEDUCED, log 65.) -/
def State.dark (s : State) : State :=
  let m := s.mgmt
  { State.reset with
    code := s.code, module := s.module, dsize := s.dsize, hostMem := s.hostMem, retired := s.retired
    journal := s.journal, ljournal := s.ljournal, agenda := s.agenda, outbox := s.outbox, cycle := s.cycle
    draws := s.draws, nextId := s.nextId
    parts := match s.code with
      | .vpm9p => s.lostMigrations
      | .vpm9mh => []
    links := s.links.map (fun (l : Link) => { l with up := false, replays := 0 })
    regions := s.regions.map (fun (r : Region) => { Region.blank r.num with lost := r.lost, shed := r.shed, off := r.shed })
    mgmt := { Mgmt.reset with
      replace := m.replace, phlost := m.phlost, hbmless := m.hbmless, ejdrop := m.ejdrop, cutCause := m.cutCause
      cutStack := m.cutStack, fwSlot := m.fwSlot, fwHash := m.fwHash, fwOther := m.fwOther, vbrown := m.vbrown, vret := m.vret
      shedOrder := m.shedOrder, eseal := m.eseal, erestart := m.erestart }
    power := { Power.reset with
      phase := .off, counter := s.power.counter, slotA := s.power.slotA, slotB := s.power.slotB, cut := s.power.cut } }

/-- Every card stops at a sector boundary (R258, R386). -/
def State.flushAll (s : State) : State :=
  (s.core :: s.cores).foldl (fun (s : State) (k : Core) => s.atCore k.cluster k.num (fun t =>
    (List.range t.core.cards.length).foldl State.flushCard t)) s

/-- Phases 3 to 6: writeback, racking of the first `n` extents, the open journal entry closed, the seal, the cut. -/
def State.finishHib (s : State) (n : Nat) : State :=
  let s1 := (s.clus :: s.clusters).foldl (fun (s : State) (c : Cluster) => s.atCore c.num 0 State.writeBackAll) s.flushAll
  let s2 := s1.rack n
  let s3 := { s2 with journal := s2.journal.close }
  { s3 with power := s3.power.seal s3.manifest }.dark

/-- How many extents racking moves when nothing stops it: none when the gauge is at ESEAL or below at PWRF (R390). -/
def State.rackAll (s : State) : Nat := if s.power.reserve ≤ s.mgmt.eseal * 1000 then 0 else s.exts.length

/-- What a restart still waits for (R399): launches that have neither resumed nor ended, launch sequences that have not
ended. -/
def State.restartLeft (s : State) : Bool :=
  s.power.pending.any (fun id => s.launches.any (fun (l : Launch) => l.id == id && l.state.isStopped)) ||
  s.power.seqs.any (fun x => (s.streamOf x.1).begun.any (fun b => b.1 == x.2))

/-- Step 8: the counter advances once every launch of the manifest has resumed or ended. -/
def State.settleRestart (s : State) : State :=
  match s.power.phase, s.power.valid with
  | .on, some m =>
    if s.restartLeft then s
    else { s with power := { s.power with counter := m.seq, pending := [], seqs := [] } }
  | .on, none => s
  | .hib _, _ => s
  | .off, _ => s
  | .restart _, _ => s

/-- Whether the module is in steps 1 to 7 of a restart (R399, R402). (DEDUCED, log 67.) -/
def State.restarting (s : State) : Bool :=
  match s.power.phase with
  | .restart _ => true
  | .on => !s.power.cut && s.restartLeft
  | .hib _ => false
  | .off => false

/-- PWRF (R386, R402): hibernation starts; its phase 2 begins once nothing is left to perform, and once every context is saved
the phases that follow run to the cut. During a restart the module powers off instead. -/
def execPwrf (reserve : Nat) (s : State) : Out :=
  moduleOnly (fun s0 =>
    let s := s0.settleRestart
    if s.restarting then s.dark
    else
      match s.power.phase with
      | .on => s.startHib 0x21 reserve
      | .hib k =>
        if k = 1 then if s.hibDrained then { s with power := { s.power with phase := .hib 2 } } else s
        else if s.allSaved then s.finishHib s.rackAll else s
      | .off => s
      | .restart _ => s) s

/-- RACKING_STOP (R390): the gauge falls to ESEAL after `done` extents. -/
def execRackingStop (done : Nat) (s : State) : Out :=
  moduleOnly (fun s =>
    match s.power.phase with
    | .hib k => if k != 1 && s.allSaved then s.finishHib (min done s.rackAll) else s
    | .on => s
    | .off => s
    | .restart _ => s) s

/-- BROWNOUT_ESCALATE (R398). -/
def execBrownoutEscalate (reserve : Nat) (s : State) : Out :=
  moduleOnly (fun s0 =>
    let s := s0.settleRestart
    if s.power.phase == .on && (s.power.brown || s.power.shedding.isSome || !s.power.shed.isEmpty) then
      if s.restarting then s.dark else s.startHib 0x22 reserve
    else s) s

/-- POWER_LOSS (R2, R390): supply is lost without a sealed manifest. -/
def execPowerLoss (s : State) : Out := .next s.dark

/-- THERMAL_CUT (R410, R413): all volatile state is lost and the cause is latched; STACK is the lowest stack of one cut. The
board sensor is the module's, and so are its reserve and its input, whose causes mgmt.cutcause names (R418).
(DESIGN CHOICE, log 131.) -/
def execThermalCut (sensor : CutSensor) (s : State) : Out :=
  let (f, s0) := s.draw
  let d := { s0.dark with
    power := { s0.dark.power with cut := true }, journal := s.journal.afterCut s.ticks (Config.freeNat f) }
  match sensor with
  | .junction k =>
    let first := !s.mgmt.cutCause.getLsbD 0 || s.power.phase != .off
    .next { d with mgmt := { d.mgmt with
      cutCause := d.mgmt.cutCause ||| 1, cutStack := if first then k % 8 else min (k % 8) d.mgmt.cutStack } }
  | .board => moduleOnly (fun _ => { d with mgmt := { d.mgmt with cutCause := d.mgmt.cutCause ||| 2 } }) s
  | .reserve => moduleOnly (fun _ => { d with mgmt := { d.mgmt with cutCause := d.mgmt.cutCause ||| 4 } }) s
  | .overvoltage => moduleOnly (fun _ => { d with mgmt := { d.mgmt with cutCause := d.mgmt.cutCause ||| 8 } }) s

/-! ### Restart (R399 to R402, R404) -/

/-- The clusters of the regions that have lost two phases stay unhealthy (R407). -/
def State.unhealthyRegions (s : State) : State :=
  ((s.regions.filter (fun (r : Region) => r.shed)).flatMap (fun (r : Region) =>
    (List.range 192).filter (fun c => clusterRegion c == r.num))).foldl
      (fun (s : State) c => s.putCluster c (fun x => { x with healthy := false })) s

/-- POWER_UP (R399 step 1, R410, R413): a staged journal entry closes; the latched cause of a cut is journalled; regions
that are off stay off. A VPM9-P has nothing to restore and reports the cut (R2). -/
def execPowerUp (s : State) : Out :=
  if s.power.phase == .off then
    let p := { s.power with upAt := s.ticks }
    let s0 := s.unhealthyRegions
    let s1 := match s.code with
      | .vpm9p => { s0 with power := { p with phase := .on, cut := false } }
      | .vpm9mh => { s0 with journal := s.journal.close, power := { p with phase := .restart 2 } }
    .next (if s.power.cut then
        s1.jEvent 6 .thermal (Config.logicLoc 9 [s.mgmt.cutStack]) s.mgmt.cutCause.toNat
      else s1)
  else .next s

/-- Step 5: a TDI that was in CONFIG_LOCKED or RUN is held in CONFIG_LOCKED; running migrations keep what was left of their
windows, which count the restart's powered ticks; sessions are gone. -/
def State.restorePart (s : State) (m : Manifest) (p : Part) : Part :=
  let secure := p.tdi == .locked || p.tdi == .run
  { p with
    tdi := if secure then .locked else p.tdi, session := false, keyEx := false, ide := false, attested := false
    mgen := p.mgen + 1
    held := if secure then some (s.ticks + p.retry * ticksPerSecond) else none
    migr := (m.windows.find? (fun (w : Nat × Nat) => w.1 == p.num)).map (fun w => s.power.upAt + w.2) }

/-- The key of a held TDI stays wrapped. -/
def holdKey (parts : List Part) (k : KeyRec) : KeyRec :=
  match k.st with
  | .live n => if parts.any (fun (p : Part) => p.num == n && p.held.isSome) then { k with st := .held n } else k
  | .sealed _ => k
  | .held _ => k
  | .retired => k

/-- Every partition, listed or not. -/
def allParts (l : List Part) : List Part :=
  (List.range 64).map (fun n => (l.find? (fun (p : Part) => p.num == n)).getD (Part.blank n))

/-- Steps 4 to 6: the configuration, the keys, the buffers; every capability in them is tested as it enters (R342). -/
def State.restoreTables (s : State) (m : Manifest) : State :=
  let parts := (allParts m.parts).map (fun p => s.restorePart m p)
  let worldOf := fun (n : Nat) => parts.any (fun (p : Part) => p.num == n && p.tdi.secure)
  let valid := fun (e : BufEntry) => e.isLocal || !m.lost.contains e.extmap
  let s1 := { s with
    streams := m.streams.map (fun (x : Stream) => { x with enable := false, restored := true, credit := 0 })
    parts := parts, deal := m.deal, keys := m.keys.map (holdKey parts), coll := m.coll
    groups := m.groups.map (fun (g : Group) => { g with members := g.members.filter (fun x => x.rank == g.entry.rank) })
    spaces := m.spaces.map (fun (sp : Space) => { sp with entries := sp.entries.map (fun (p : Nat × BufEntry) =>
      (p.1, { p.2 with valid := p.2.valid && valid p.2 })) })
    mem := m.mem, memTags := m.memTags, poison := m.poison, exts := m.exts }
  let s2 := { s1 with memTags := s1.memTags.filter (fun k => !s1.staleKey k) }
  m.assign.foldl (fun (s : State) (a : Nat × Nat) =>
    s.putCluster a.1 (fun c => { c with part := a.2, world := worldOf a.2 })) s2

/-- Step 7: launches, graphs and saved contexts come back, their capabilities tested (R342); what the grist held is gone. A
launch whose space holds a lost buffer ends FAILED with CAUSE 0x14; launch sequences run again from step 1. -/
def State.restoreLaunches (s : State) (m : Manifest) : State :=
  let ctxs := m.ctxs.map (fun (c : Ctx) =>
    { c with saved := c.saved.map (fun (v : Saved) => { v with grist := v.grist + c.place.regions.length, dark := true }) }.mapCaps (s.visit c.place.asid))
  let asidOf := fun (id : Nat) => ((m.launches.find? (fun (l : Launch) => l.id == id)).map (fun l => l.lrec.asid)).getD 0
  let s1 := { s with others := ctxs, launches := m.launches, graphs := m.graphs }
  let s2 := m.jobs.foldl (fun (s : State) (x : Nat × Nat × Card) =>
    s.putCore x.1 x.2.1 (fun k => { k with cards := k.cards ++ [{ x.2.2.mapCaps (s.visit (asidOf x.2.2.launch)) with
      started := false, held := false }] })) s1
  let lostIn := fun (l : Launch) => m.spaces.any (fun sp => sp.asid == l.lrec.asid &&
    sp.entries.any (fun (p : Nat × BufEntry) => p.2.valid && !p.2.isLocal && m.lost.contains p.2.extmap))
  let s3 := (m.launches.filter lostIn).foldl (fun (s : State) (l : Launch) => s.endLaunch l 1 0x14) s2
  let s4 := s3.launches.foldl (fun (s : State) (l : Launch) => s.settleStream l.stream) s3
  { s4 with power := { s4.power with phase := .on, pending := s4.launches.map (fun (l : Launch) => l.id)
                                     seqs := s4.streams.filterMap (fun (st : Stream) => st.begun.map (fun b => (st.num, b.1))) } }

/-- The unsealed path (R404): every key and buffer is lost, each TDI comes up in CONFIG_UNLOCKED and is reported lost, and
the journal's open launches are reported failed. -/
def State.unsealedPath (s : State) : State :=
  let parts := (List.range 64).map (fun n => { Part.blank n with lost := n != 0 })
  { s with parts := parts, power := { s.power with phase := .on, cut := false, pending := [], seqs := [], failed := s.lostBegins } }

/-- ERESTART_REACHED (R399 steps 2 to 7): with a valid manifest, and no thermal cut since, its tables come back; else the
unsealed path. -/
def execErestartReached (gauge : Nat) (s : State) : Out :=
  moduleOnly (fun s =>
    if s.power.phase == .restart 2 && decide (s.mgmt.erestart ≤ gauge) then
      (match s.power.cut, s.power.valid with
       | false, some m => ((s.restoreTables m).restoreLaunches m).settleRestart.settleRegions
       | false, none => s.unsealedPath.settleRegions
       | true, _ => s.unsealedPath.settleRegions)
    else s) s

/-- RESTART_PWRF (R402): a PWRF during steps 1 to 7 powers off without a manifest; the valid one stays valid. -/
def execRestartPwrf (s : State) : Out := moduleOnly (fun s => if s.restarting then s.dark else s) s

/-- RESTART_REPORT (R404): the launches that the last restart reported failed, and the TDIs reported lost. -/
def execRestartReport (s : State) : Out :=
  moduleOnly (fun s => s.send [.restartReport s.power.failed
    ((s.parts.filter (fun (p : Part) => p.lost)).map (fun (p : Part) => p.num))]) s

end Sys2Proof.Machine
end

