-- ==== Sys2Proof/Machine/Manage.lean ====
section
/-! DEFINITION. Writes of the management and stream registers that have no behaviour of their own (R10, R241, R301, R317,
R346, R355, R371, R385, R409, R418). -/

namespace Sys2Proof.Machine

open Sys2Proof

/-! ### Single registers -/

/-- A write of mgmt.status: REPLACE is W1C. -/
def Mgmt.writeStatus (m : Mgmt) (v : Nat) : Mgmt := { m with replace := m.replace && !natBit v 0 }

/-- A write of mgmt.cutcause: CAUSE is W1C; STACK reads 0 once CAUSE bit 0 is clear. -/
def Mgmt.writeCut (m : Mgmt) (v : Nat) : Mgmt :=
  let c := m.cutCause &&& ~~~(BitVec.ofNat 4 v)
  { m with cutCause := c, cutStack := if c.getLsbD 0 then m.cutStack else 0 }

/-- Whether the hibernation settings lie in their ranges (R385): voltages in tenths of a volt, energies in joules.
(DESIGN CHOICE, log 68.) -/
def hibOk (vbrown vret : Nat) (order : List Nat) (eseal erestart : Nat) : Bool :=
  decide (450 ≤ vbrown) && decide (vbrown ≤ 490) && decide (vbrown + 5 ≤ vret) && decide (vret ≤ 495) &&
  decide (order.Nodup) && order.all (fun k => decide (k < 8)) && decide (1 ≤ order.length) && decide (order.length ≤ 7) &&
  decide (40 ≤ eseal) && decide (eseal ≤ 200) && decide (600 ≤ erestart) && decide (erestart ≤ 3600)

/-- A write of mgmt.hib, the settings of a module's input monitor (R1): they change only while no stack is shed. -/
def State.writeHib (s : State) (vbrown vret : Nat) (order : List Nat) (eseal erestart : Nat) : State :=
  if s.code == .vpm9mh && s.power.shed.isEmpty && s.power.shedding.isNone && hibOk vbrown vret order eseal erestart then
    { s with mgmt := { s.mgmt with
        vbrown := vbrown, vret := vret, shedOrder := order, eseal := eseal, erestart := erestart } }
  else s

/-! ### Tables -/

/-- A group-table entry from its 512 bits (R371). -/
def GroupEntry.ofBits (x : Nat) : GroupEntry :=
  { valid := natBit x 0, gid := natField x 1 6, g := natField x 7 7, rank := natField x 14 6, asid := natField x 20 16
    key := natField x 36 12, waitlim := natField x 48 16, members := (List.range 64).map (fun k => natField x (64 + 6 * k) 6) }

/-- Whether a group may have an entry's G and RANK: on a VPM9-P it has one member, of rank 0 (R2).
(DESIGN CHOICE, log 105.) -/
def State.groupFits (s : State) (e : GroupEntry) : Bool := s.code == .vpm9mh || !e.valid || (e.g == 1 && e.rank == 0)

/-- A write of an entry of the group table: GID is the entry's index; it changes only while no job of the group is
outstanding. -/
def State.writeGroup (s : State) (gid v : Nat) : State :=
  if 64 ≤ gid ∨ s.coll.any (fun (j : CollJob) => j.gid == gid) ∨ !s.groupFits (GroupEntry.ofBits v) then s
  else
    { s with groups := s.groups.filter (fun (g : Group) => g.entry.gid != gid) ++
        [{ entry := { GroupEntry.ofBits v with gid := gid }, lastStep := none, members := [], early := [], ahead := [], wrote := []
           failed := [] }] }

/-- An HDM decoder of a port, one of eight on each of two, is set to a host window or cleared (R362). -/
def State.writeHdm (s : State) (port k : Nat) (w : Option (Nat × Nat × Nat × Nat)) : State :=
  if 2 ≤ port ∨ 8 ≤ k then s
  else { s with hdm := s.hdm.filter (fun (d : Hdm) => !(d.port == port && d.num == k)) ++
    (w.map (fun x => (⟨port, k, x.1, x.2.1, x.2.2.1, x.2.2.2⟩ : Hdm))).toList }

/-! ### Reads (R10) -/

/-- mgmt.status (R418). -/
def Mgmt.statusWord (m : Mgmt) : Nat :=
  (if m.replace then 1 else 0) + m.phlost * 2 + m.hbmless * 2 ^ 8 + m.ejdrop * 2 ^ 32 + (if m.update then 2 ^ 48 else 0)

/-- mgmt.cutcause (R418). -/
def Mgmt.cutWord (m : Mgmt) : Nat := m.cutCause.toNat + m.cutStack * 2 ^ 4

/-- What a read of a register delivers (R10): the word of one whose bits the spec lays out, reserved fields zero; the values
of the fields of another; nothing of one that takes writes only. A register of units that a VPM9-P does not have reads as
reserved there (R1). The code that a free slot of a deal table reads as, which R317 does not give, is 64.
(DESIGN CHOICE, log 116.) -/
def State.readReg (s : State) (r : MgmtReg) : List Nat :=
  let m := s.mgmt
  match r with
  | .cmd n off => [(s.streamOf n).readReg off]
  | .cmdBase n => [(s.streamOf n).base]
  | .cmdCqbase n => [(s.streamOf n).cqbase]
  | .hdm port k => (s.hdm.filter (fun (d : Hdm) => d.port == port && d.num == k)).flatMap (fun d => [d.fn, d.base, d.asid, d.index])
  | .status => [m.statusWord]
  | .cutcause => [m.cutWord]
  | .therm => [m.dleak, m.dthr, m.dstep, m.pcap]
  | .hib => if s.code == .vpm9p then [0] else [m.vbrown, m.vret, m.eseal, m.erestart] ++ m.shedOrder
  | .migr => [m.wacc, m.wlink, m.fmin, m.pfull]
  | .scrub => [m.scrubt]
  | .fw => if s.code == .vpm9p then [0] else [if m.fwSlot then 1 else 0, if m.update then 1 else 0, m.fwVersion]
  | .part n => (List.range 192).filter (fun c => (s.findCluster c).part == n) ++ (s.partOf n).asids
  | .deal cls port => (s.dealTable cls port).slots.map (fun x => x.getD 64)
  | .group gid => [(((s.groups.find? (fun (g : Group) => g.entry.gid == gid)).map (fun g => g.entry.bits))).getD 0]
  | .ro off => [if off = 0x3048 then m.tokCode + m.tokCount * 2 ^ 32 else 0]
  | .tokStage => []
  | .itemStage _ => []

/-! ### REGISTER_WRITE -/

/-- A plain value written to a register. -/
def State.writeWord (s : State) (r : MgmtReg) (v : Nat) : State :=
  match r with
  | .cmdBase n => if s.hostOpen then s.modStream n (fun st => { st with base := v % 2 ^ 64 / 4096 * 4096 }) else s
  | .cmdCqbase n => if s.hostOpen then s.modStream n (fun st => { st with cqbase := v % 2 ^ 64 / 4096 * 4096 }) else s
  | .status => { s with mgmt := s.mgmt.writeStatus v }
  | .cutcause => { s with mgmt := s.mgmt.writeCut v }
  | .scrub => { s with mgmt := { s.mgmt with scrubt := v } }
  | .group gid => s.writeGroup gid v
  | .therm => s
  | .hib => s
  | .migr => s
  | .fw => s.writeFw v
  | .part _ => s
  | .deal _ _ => s
  | .tokStage => s
  | .itemStage _ => s
  | .ro _ => s
  | .cmd _ _ => s
  | .hdm _ _ => s

/-- What an access does: a read delivers the register; a write acts when its value has the form of its register; a value of
another form, and a write of a read-only register, does nothing. -/
def State.writeReg (s : State) (r : MgmtReg) (v : MgmtVal) : State :=
  match v with
  | .read => s.send [.regData r (s.readReg r)]
  | .window w =>
    (match r with
     | .hdm port k => s.writeHdm port k w
     | .cmdBase _ => s | .cmdCqbase _ => s | .status => s | .cutcause => s | .therm => s | .hib => s | .migr => s
     | .scrub => s | .fw => s | .part _ => s | .deal _ _ => s | .group _ => s | .tokStage => s | .itemStage _ => s
     | .ro _ => s | .cmd _ _ => s)
  | .word x => s.writeWord r x
  | .therm dleak dthr dstep pcap =>
    if r = .therm then { s with mgmt := { s.mgmt with dleak := dleak, dthr := dthr, dstep := dstep, pcap := pcap } } else s
  | .hib vbrown vret order eseal erestart => if r = .hib then s.writeHib vbrown vret order eseal erestart else s
  | .migr wacc wlink fmin pfull =>
    if r = .migr then { s with mgmt := { s.mgmt with wacc := wacc, wlink := wlink, fmin := fmin, pfull := pfull } } else s
  | .assign clusters asids =>
    (match r with
     | .part n => (s.submit (.direct n .clusters (.clusters clusters (s.partOf n).tdi.secure))).submit (.direct n .asids (.asids asids))
     | .cmdBase _ => s | .cmdCqbase _ => s | .status => s | .cutcause => s | .therm => s | .hib => s | .migr => s
     | .scrub => s | .fw => s | .deal _ _ => s | .group _ => s | .tokStage => s | .itemStage _ => s | .ro _ => s
     | .cmd _ _ => s | .hdm _ _ => s)
  | .slots l =>
    (match r with
     | .deal cls port => s.submit (.deal cls port l)
     | .cmdBase _ => s | .cmdCqbase _ => s | .status => s | .cutcause => s | .therm => s | .hib => s | .migr => s
     | .scrub => s | .fw => s | .part _ => s | .group _ => s | .tokStage => s | .itemStage _ => s | .ro _ => s
     | .cmd _ _ => s | .hdm _ _ => s)
  | .item x =>
    (match r with
     | .itemStage i =>
       { s with mgmt := { s.mgmt with
           staged := s.mgmt.staged.filter (fun (y : LockedItem × LockedValue) => y.1 != i) ++ [(i, x)] } }
     | .cmdBase _ => s | .cmdCqbase _ => s | .status => s | .cutcause => s | .therm => s | .hib => s | .migr => s
     | .scrub => s | .fw => s | .part _ => s | .deal _ _ => s | .group _ => s | .tokStage => s | .ro _ => s
     | .cmd _ _ => s | .hdm _ _ => s)
  | .token t => if r = .tokStage then { s with mgmt := { s.mgmt with tokStage := t } } else s

end Sys2Proof.Machine

namespace Sys2Proof

/-- The function through whose space alone a register is reached; the management registers answer on the SMBus too (R418). -/
def MgmtReg.portFn : MgmtReg → Option Nat
  | .cmd n _ => some n | .cmdBase n => some n | .cmdCqbase n => some n
  | .hdm _ _ => some 0 | .ro _ => some 0 | .tokStage => some 0 | .itemStage _ => some 0
  | .status => none | .cutcause => none | .therm => none | .hib => none | .migr => none | .scrub => none | .fw => none
  | .part _ => none | .deal _ _ => none | .group _ => none

end Sys2Proof

namespace Sys2Proof.Machine

open Sys2Proof

/-- REGISTER_WRITE (R10, R418), with the read of a register beside it: nothing answers while the device is without power, and
while the host ports take no request a read of a function's register is an Unsupported Request and a write is dropped
(R386). -/
def execRegisterWrite (r : MgmtReg) (v : MgmtVal) (s : State) : Out :=
  .next (match s.power.phase, r.portFn with
    | .off, _ => s
    | .on, _ => s.writeReg r v
    | .hib _, some n => if v = .read then s.send [.unsupported n] else s
    | .restart _, some n => if v = .read then s.send [.unsupported n] else s
    | .hib _, none => s.writeReg r v
    | .restart _, none => s.writeReg r v)

end Sys2Proof.Machine
end

