-- ==== Sys2Proof/Machine/Dispatch.lean ====
section
/-! DEFINITION. The meaning of every instruction: one arm per constructor, each a direct call of its meaning. -/

namespace Sys2Proof.Machine

open Sys2Proof

def exec (i : Instr) (s : State) : Host.Outcome State Fault Refusal :=
  match i with
  | .nop u => Sys2Proof.Machine.execNop u s
  | .bra p n disp => Sys2Proof.Machine.execBra p n disp s
  | .br p n a => Sys2Proof.Machine.execBr p n a s
  | .call p n disp => Sys2Proof.Machine.execCall p n disp s
  | .ret p n => Sys2Proof.Machine.execRet p n s
  | .lset l a imm => Sys2Proof.Machine.execLset l a imm s
  | .lend l disp => Sys2Proof.Machine.execLend l disp s
  | .pand d a b => Sys2Proof.Machine.execPand d a b s
  | .por d a b => Sys2Proof.Machine.execPor d a b s
  | .pxor d a b => Sys2Proof.Machine.execPxor d a b s
  | .pnot d a => Sys2Proof.Machine.execPnot d a s
  | .pset d a mode k => Sys2Proof.Machine.execPset d a mode k s
  | .wanyTest d a => Sys2Proof.Machine.execWanyTest d a s
  | .wanyWait a => Sys2Proof.Machine.execWanyWait a s
  | .wallTest d a => Sys2Proof.Machine.execWallTest d a s
  | .wallWait a => Sys2Proof.Machine.execWallWait a s
  | .ffd d a => Sys2Proof.Machine.execFfd d a s
  | .dclr a => Sys2Proof.Machine.execDclr a s
  | .bar b launch a => Sys2Proof.Machine.execBar b launch a s
  | .susp n a b => Sys2Proof.Machine.execSusp n a b s
  | .pick => Sys2Proof.Machine.execPick s
  | .spawn => Sys2Proof.Machine.execSpawn s
  | .join a => Sys2Proof.Machine.execJoin a s
  | .joinL => Sys2Proof.Machine.execJoinL s
  | .yield a => Sys2Proof.Machine.execYield a s
  | .trap p n a code => Sys2Proof.Machine.execTrap p n a code s
  | .rett => Sys2Proof.Machine.execRett s
  | .rettSkip => Sys2Proof.Machine.execRettSkip s
  | .rettGoto a => Sys2Proof.Machine.execRettGoto a s
  | .rettAbort => Sys2Proof.Machine.execRettAbort s
  | .halt => Sys2Proof.Machine.execHalt s
  | .stepmark a => Sys2Proof.Machine.execStepmark a s
  | .sysr d num => Sys2Proof.Machine.execSysr d num s
  | .sysw d num => Sys2Proof.Machine.execSysw d num s
  | .aadd d a b => Sys2Proof.Machine.execAadd d a b s
  | .asub d a b => Sys2Proof.Machine.execAsub d a b s
  | .ashl d a b => Sys2Proof.Machine.execAshl d a b s
  | .ashr d a b => Sys2Proof.Machine.execAshr d a b s
  | .aand d a b => Sys2Proof.Machine.execAand d a b s
  | .aor d a b => Sys2Proof.Machine.execAor d a b s
  | .aaddi d a imm => Sys2Proof.Machine.execAaddi d a imm s
  | .amovi d imm => Sys2Proof.Machine.execAmovi d imm s
  | .amovh d imm => Sys2Proof.Machine.execAmovh d imm s
  | .acmp cond d a b => Sys2Proof.Machine.execAcmp cond d a b s
  | .cmov d a => Sys2Proof.Machine.execCmov d a s
  | .cclr d a => Sys2Proof.Machine.execCclr d a s
  | .ccur d a b => Sys2Proof.Machine.execCcur d a b s
  | .cinc d a b => Sys2Proof.Machine.execCinc d a b s
  | .cbnd d a b => Sys2Proof.Machine.execCbnd d a b s
  | .cbndr d a b => Sys2Proof.Machine.execCbndr d a b s
  | .cperm d a mask => Sys2Proof.Machine.execCperm d a mask s
  | .cget d a sel => Sys2Proof.Machine.execCget d a sel s
  | .ctag d a b => Sys2Proof.Machine.execCtag d a b s
  | .crev d a => Sys2Proof.Machine.execCrev d a s
  | .jmpc a => Sys2Proof.Machine.execJmpc a s
  | .callc a => Sys2Proof.Machine.execCallc a s
  | .ldA ty cd a b => Sys2Proof.Machine.execLdA ty cd a b s
  | .ldI ty cd a b => Sys2Proof.Machine.execLdI ty cd a b s
  | .stA w cd a b => Sys2Proof.Machine.execStA w cd a b s
  | .stI w cd a b => Sys2Proof.Machine.execStI w cd a b s
  | .vldVA k cd a b => Sys2Proof.Machine.execVldVA k cd a b s
  | .vldVB k cd a b => Sys2Proof.Machine.execVldVB k cd a b s
  | .vstVA k cd a b => Sys2Proof.Machine.execVstVA k cd a b s
  | .vstVB k cd a b => Sys2Proof.Machine.execVstVB k cd a b s
  | .vldgVA k cd a b => Sys2Proof.Machine.execVldgVA k cd a b s
  | .vldgVB k cd a b => Sys2Proof.Machine.execVldgVB k cd a b s
  | .vstsVA k cd a b => Sys2Proof.Machine.execVstsVA k cd a b s
  | .vstsVB k cd a b => Sys2Proof.Machine.execVstsVB k cd a b s
  | .lcap d a b => Sys2Proof.Machine.execLcap d a b s
  | .scap cd a b => Sys2Proof.Machine.execScap cd a b s
  | .cas w cd sc ord b => Sys2Proof.Machine.execCas w cd sc ord b s
  | .fence k sc => Sys2Proof.Machine.execFence k sc s
  | .amoAdd w ret cd sc ord b => Sys2Proof.Machine.execAmoAdd w ret cd sc ord b s
  | .amoAnd w ret cd sc ord b => Sys2Proof.Machine.execAmoAnd w ret cd sc ord b s
  | .amoOr w ret cd sc ord b => Sys2Proof.Machine.execAmoOr w ret cd sc ord b s
  | .amoXor w ret cd sc ord b => Sys2Proof.Machine.execAmoXor w ret cd sc ord b s
  | .amoSwap w ret cd sc ord b => Sys2Proof.Machine.execAmoSwap w ret cd sc ord b s
  | .amoMin ty ret cd sc ord b => Sys2Proof.Machine.execAmoMin ty ret cd sc ord b s
  | .amoMax ty ret cd sc ord b => Sys2Proof.Machine.execAmoMax ty ret cd sc ord b s
  | .amoWsadd u ws64 cd sc ord => Sys2Proof.Machine.execAmoWsadd u ws64 cd sc ord s
  | .tclrReg u d => Sys2Proof.Machine.execTclrReg u d s
  | .tclrPath u => Sys2Proof.Machine.execTclrPath u s
  | .tclrCap d => Sys2Proof.Machine.execTclrCap d s
  | .tdepReg u d a => Sys2Proof.Machine.execTdepReg u d a s
  | .tdepPath u a => Sys2Proof.Machine.execTdepPath u a s
  | .tdepCap d a => Sys2Proof.Machine.execTdepCap d a s
  | .xput u t n a => Sys2Proof.Machine.execXput u t n a s
  | .keep u a => Sys2Proof.Machine.execKeep u a s
  | .keepW32 u a => Sys2Proof.Machine.execKeepW32 u a s
  | .keepW64 u a => Sys2Proof.Machine.execKeepW64 u a s
  | .xlat d a b => Sys2Proof.Machine.execXlat d a b s
  | .xrel a => Sys2Proof.Machine.execXrel a s
  | .xrelRd d a => Sys2Proof.Machine.execXrelRd d a s
  | .add w d a b => Sys2Proof.Machine.execAdd w d a b s
  | .sub w d a b => Sys2Proof.Machine.execSub w d a b s
  | .mul w d a b => Sys2Proof.Machine.execMul w d a b s
  | .and w d a b => Sys2Proof.Machine.execAnd w d a b s
  | .or w d a b => Sys2Proof.Machine.execOr w d a b s
  | .xor w d a b => Sys2Proof.Machine.execXor w d a b s
  | .andn w d a b => Sys2Proof.Machine.execAndn w d a b s
  | .shl w d a b => Sys2Proof.Machine.execShl w d a b s
  | .shr w d a b => Sys2Proof.Machine.execShr w d a b s
  | .sar w d a b => Sys2Proof.Machine.execSar w d a b s
  | .rot w d a b => Sys2Proof.Machine.execRot w d a b s
  | .sel w d a b => Sys2Proof.Machine.execSel w d a b s
  | .mulh ty d a b => Sys2Proof.Machine.execMulh ty d a b s
  | .min ty d a b => Sys2Proof.Machine.execMin ty d a b s
  | .max ty d a b => Sys2Proof.Machine.execMax ty d a b s
  | .addSat ty d a b => Sys2Proof.Machine.execAddSat ty d a b s
  | .subSat ty d a b => Sys2Proof.Machine.execSubSat ty d a b s
  | .mulSat ty d a b => Sys2Proof.Machine.execMulSat ty d a b s
  | .shlSat ty d a b => Sys2Proof.Machine.execShlSat ty d a b s
  | .div ty d a b => Sys2Proof.Machine.execDiv ty d a b s
  | .rem ty d a b => Sys2Proof.Machine.execRem ty d a b s
  | .divSat ty d a b => Sys2Proof.Machine.execDivSat ty d a b s
  | .addi d a imm => Sys2Proof.Machine.execAddi d a imm s
  | .movi d imm => Sys2Proof.Machine.execMovi d imm s
  | .movh d imm => Sys2Proof.Machine.execMovh d imm s
  | .clz w d a => Sys2Proof.Machine.execClz w d a s
  | .ctz w d a => Sys2Proof.Machine.execCtz w d a s
  | .popc w d a => Sys2Proof.Machine.execPopc w d a s
  | .cmp ty cond d a b => Sys2Proof.Machine.execCmp ty cond d a b s
  | .ext ty d a => Sys2Proof.Machine.execExt ty d a s
  | .bfx sx d a b => Sys2Proof.Machine.execBfx sx d a b s
  | .bfi d a b => Sys2Proof.Machine.execBfi d a b s
  | .fadd f d a b => Sys2Proof.Machine.execFadd f d a b s
  | .fsub f d a b => Sys2Proof.Machine.execFsub f d a b s
  | .fmul f d a b => Sys2Proof.Machine.execFmul f d a b s
  | .ffma f d a b => Sys2Proof.Machine.execFfma f d a b s
  | .fmin f d a b => Sys2Proof.Machine.execFmin f d a b s
  | .fmax f d a b => Sys2Proof.Machine.execFmax f d a b s
  | .fcmp f d a b => Sys2Proof.Machine.execFcmp f d a b s
  | .fdiv f d a b => Sys2Proof.Machine.execFdiv f d a b s
  | .fsqrt f d a => Sys2Proof.Machine.execFsqrt f d a s
  | .fcvt rs src dst d a => Sys2Proof.Machine.execFcvt rs src dst d a s
  | .vadd u ty d a b => Sys2Proof.Machine.execVadd u ty d a b s
  | .vsub u ty d a b => Sys2Proof.Machine.execVsub u ty d a b s
  | .vmul u ty d a b => Sys2Proof.Machine.execVmul u ty d a b s
  | .vaddSat u ty d a b => Sys2Proof.Machine.execVaddSat u ty d a b s
  | .vsubSat u ty d a b => Sys2Proof.Machine.execVsubSat u ty d a b s
  | .vfma u f d a b => Sys2Proof.Machine.execVfma u f d a b s
  | .vfms u f d a b => Sys2Proof.Machine.execVfms u f d a b s
  | .vnfma u f d a b => Sys2Proof.Machine.execVnfma u f d a b s
  | .vdivFp u f d a b => Sys2Proof.Machine.execVdivFp u f d a b s
  | .vsqrt u f d a => Sys2Proof.Machine.execVsqrt u f d a s
  | .vdivInt u ty d a b => Sys2Proof.Machine.execVdivInt u ty d a b s
  | .vdivSat u ty d a b => Sys2Proof.Machine.execVdivSat u ty d a b s
  | .vrcpe u f d a => Sys2Proof.Machine.execVrcpe u f d a s
  | .vrsqe u f d a => Sys2Proof.Machine.execVrsqe u f d a s
  | .vminFp u f d a b => Sys2Proof.Machine.execVminFp u f d a b s
  | .vmaxFp u f d a b => Sys2Proof.Machine.execVmaxFp u f d a b s
  | .vminInt u ty d a b => Sys2Proof.Machine.execVminInt u ty d a b s
  | .vmaxInt u ty d a b => Sys2Proof.Machine.execVmaxInt u ty d a b s
  | .vabs u ty d a => Sys2Proof.Machine.execVabs u ty d a s
  | .vneg u ty d a => Sys2Proof.Machine.execVneg u ty d a s
  | .vand u w d a b => Sys2Proof.Machine.execVand u w d a b s
  | .vor u w d a b => Sys2Proof.Machine.execVor u w d a b s
  | .vxor u w d a b => Sys2Proof.Machine.execVxor u w d a b s
  | .vshl u w d a b => Sys2Proof.Machine.execVshl u w d a b s
  | .vshr u w d a b => Sys2Proof.Machine.execVshr u w d a b s
  | .vsar u w d a b => Sys2Proof.Machine.execVsar u w d a b s
  | .vnot u w d a => Sys2Proof.Machine.execVnot u w d a s
  | .vcmpFp u f cond d a b => Sys2Proof.Machine.execVcmpFp u f cond d a b s
  | .vcmpInt u ty cond d a b => Sys2Proof.Machine.execVcmpInt u ty cond d a b s
  | .vsel u m d a b => Sys2Proof.Machine.execVsel u m d a b s
  | .vmand u d a b => Sys2Proof.Machine.execVmand u d a b s
  | .vmor u d a b => Sys2Proof.Machine.execVmor u d a b s
  | .vmnot u d a => Sys2Proof.Machine.execVmnot u d a s
  | .vmpop u d a => Sys2Proof.Machine.execVmpop u d a s
  | .vmff u d a => Sys2Proof.Machine.execVmff u d a s
  | .vmovi u d imm => Sys2Proof.Machine.execVmovi u d imm s
  | .vidx u w d a => Sys2Proof.Machine.execVidx u w d a s
  | .vbcast u w d a b => Sys2Proof.Machine.execVbcast u w d a b s
  | .vperm u w d a b => Sys2Proof.Machine.execVperm u w d a b s
  | .vrot u w d a b => Sys2Proof.Machine.execVrot u w d a b s
  | .vslideDn u w d a b => Sys2Proof.Machine.execVslideDn u w d a b s
  | .vslideUp u w d a b => Sys2Proof.Machine.execVslideUp u w d a b s
  | .vcvt u f toFp uns rs d a => Sys2Proof.Machine.execVcvt u f toFp uns rs d a s
  | .vpack u pair hi mode fmt d a => Sys2Proof.Machine.execVpack u pair hi mode fmt d a s
  | .vunpk u pair hi mode fmt d a => Sys2Proof.Machine.execVunpk u pair hi mode fmt d a s
  | .vredsum u ty d a sel => Sys2Proof.Machine.execVredsum u ty d a sel s
  | .vredsumSat u ty d a sel => Sys2Proof.Machine.execVredsumSat u ty d a sel s
  | .vredmaxFp u f d a sel => Sys2Proof.Machine.execVredmaxFp u f d a sel s
  | .vredminFp u f d a sel => Sys2Proof.Machine.execVredminFp u f d a sel s
  | .vredmaxInt u ty d a sel => Sys2Proof.Machine.execVredmaxInt u ty d a sel s
  | .vredminInt u ty d a sel => Sys2Proof.Machine.execVredminInt u ty d a sel s
  | .wsadd u ty w a sel => Sys2Proof.Machine.execWsadd u ty w a sel s
  | .wsrnd u ty d a rs => Sys2Proof.Machine.execWsrnd u ty d a rs s
  | .wsclr u w => Sys2Proof.Machine.execWsclr u w s
  | .wsmovW u w a => Sys2Proof.Machine.execWsmovW u w a s
  | .wsmovV u d a => Sys2Proof.Machine.execWsmovV u d a s
  | .wsmov u w a => Sys2Proof.Machine.execWsmov u w a s
  | .wsmovPop u w => Sys2Proof.Machine.execWsmovPop u w s
  | .kdef u cnt kt path a sel => Sys2Proof.Machine.execKdef u cnt kt path a sel s
  | .ktake u cnt kt d m => Sys2Proof.Machine.execKtake u cnt kt d m s
  | .kcnt u d kt => Sys2Proof.Machine.execKcnt u d kt s
  | .mpass z sd gp cp n f => Sys2Proof.Machine.execMpass z sd gp cp n f s
  | .mzero pair z => Sys2Proof.Machine.execMzero pair z s
  | .mread pair z sd db => Sys2Proof.Machine.execMread pair z sd db s
  | .mwrite form z sd db => Sys2Proof.Machine.execMwrite form z sd db s
  | .mstat sd db => Sys2Proof.Machine.execMstat sd db s
  | .msetBase sd v => Sys2Proof.Machine.execMsetBase sd v s
  | .msetStride sd v => Sys2Proof.Machine.execMsetStride sd v s
  | .msetFmt sd atype afmt btype bfmt => Sys2Proof.Machine.execMsetFmt sd atype afmt btype bfmt s
  | .msetScale sd qa qb qen => Sys2Proof.Machine.execMsetScale sd qa qb qen s
  | .gset gp off => Sys2Proof.Machine.execGset gp off s
  | .gsetAdd gp off => Sys2Proof.Machine.execGsetAdd gp off s
  | .sld q unit => Sys2Proof.Machine.execSld q unit s
  | .sset q imm => Sys2Proof.Machine.execSset q imm s
  | .fset f valid imm => Sys2Proof.Machine.execFset f valid imm s
  | .smov fmt d a => Sys2Proof.Machine.execSmov fmt d a s
  | .sclr fmt d => Sys2Proof.Machine.execSclr fmt d s
  | .ksetW j k b => Sys2Proof.Machine.execKsetW j k b s
  | .ksetC j dst b => Sys2Proof.Machine.execKsetC j dst b s
  | .ksetBnd d a b => Sys2Proof.Machine.execKsetBnd d a b s
  | .ksetCur d a b => Sys2Proof.Machine.execKsetCur d a b s
  | .ksetLc d a b => Sys2Proof.Machine.execKsetLc d a b s
  | .ksetAdd d a b => Sys2Proof.Machine.execKsetAdd d a b s
  | .kcopy j db fence tags => Sys2Proof.Machine.execKcopy j db fence tags s
  | .kmc j db n fence tags => Sys2Proof.Machine.execKmc j db n fence tags s
  | .kfill j db fence => Sys2Proof.Machine.execKfill j db fence s
  | .kcoll j db gid kind op fence => Sys2Proof.Machine.execKcoll j db gid kind op fence s
  | .kpf j level => Sys2Proof.Machine.execKpf j level s
  | .kcan db => Sys2Proof.Machine.execKcan db s
  | .kstat d a db => Sys2Proof.Machine.execKstat d a db s
  | .asyncFaultTaken => Sys2Proof.Machine.execAsyncFaultTaken s
  | .dueEntryVisible => Sys2Proof.Machine.execDueEntryVisible s
  | .fullEmptyResultArrive k => Sys2Proof.Machine.execFullEmptyResultArrive k s
  | .yieldExpire => Sys2Proof.Machine.execYieldExpire s
  | .loadPerform k => Sys2Proof.Machine.execLoadPerform k s
  | .storePerform k => Sys2Proof.Machine.execStorePerform k s
  | .extentResident map ext => Sys2Proof.Machine.execExtentResident map ext s
  | .sideLogReplay => Sys2Proof.Machine.execSideLogReplay s
  | .extentFirstTouch map ext => Sys2Proof.Machine.execExtentFirstTouch map ext s
  | .extentMigrate map ext inward => Sys2Proof.Machine.execExtentMigrate map ext inward s
  | .accessCounterHalve => Sys2Proof.Machine.execAccessCounterHalve s
  | .xlatHandleFill k => Sys2Proof.Machine.execXlatHandleFill k s
  | .cardStart k => Sys2Proof.Machine.execCardStart k s
  | .cardComplete k => Sys2Proof.Machine.execCardComplete k s
  | .mOpStart => Sys2Proof.Machine.execMOpStart s
  | .mOpEnd => Sys2Proof.Machine.execMOpEnd s
  | .crevComplete => Sys2Proof.Machine.execCrevComplete s
  | .spawnPerform k => Sys2Proof.Machine.execSpawnPerform k s
  | .joinPerform k => Sys2Proof.Machine.execJoinPerform k s
  | .poolHandover => Sys2Proof.Machine.execPoolHandover s
  | .cmdTailWrite stream v => Sys2Proof.Machine.execCmdTailWrite stream v s
  | .cmdCtlWrite stream v => Sys2Proof.Machine.execCmdCtlWrite stream v s
  | .launch stream => Sys2Proof.Machine.execLaunch stream s
  | .graph stream => Sys2Proof.Machine.execGraph stream s
  | .graphNodeStart graph node => Sys2Proof.Machine.execGraphNodeStart graph node s
  | .waitRecord stream => Sys2Proof.Machine.execWaitRecord stream s
  | .waitRecheck stream => Sys2Proof.Machine.execWaitRecheck stream s
  | .signal stream => Sys2Proof.Machine.execSignal stream s
  | .fenceRecord stream => Sys2Proof.Machine.execFenceRecord stream s
  | .launchEnd launch => Sys2Proof.Machine.execLaunchEnd launch s
  | .hangLimit launch => Sys2Proof.Machine.execHangLimit launch s
  | .wallLimit launch => Sys2Proof.Machine.execWallLimit launch s
  | .preemption stream => Sys2Proof.Machine.execPreemption stream s
  | .contextStop code => Sys2Proof.Machine.execContextStop code s
  | .contextResume launch clord core slot => Sys2Proof.Machine.execContextResume launch clord core slot s
  | .fatalFault => Sys2Proof.Machine.execFatalFault s
  | .abortTimeout launch => Sys2Proof.Machine.execAbortTimeout launch s
  | .sweepStart => Sys2Proof.Machine.execSweepStart s
  | .sweepCorePause => Sys2Proof.Machine.execSweepCorePause s
  | .sweepComplete => Sys2Proof.Machine.execSweepComplete s
  | .hostRead req => Sys2Proof.Machine.execHostRead req s
  | .hostWrite req data => Sys2Proof.Machine.execHostWrite req data s
  | .getTdispVersion fn => Sys2Proof.Machine.execGetTdispVersion fn s
  | .getTdispCapabilities fn => Sys2Proof.Machine.execGetTdispCapabilities fn s
  | .lockInterfaceRequest fn => Sys2Proof.Machine.execLockInterfaceRequest fn s
  | .getDeviceInterfaceReport fn => Sys2Proof.Machine.execGetDeviceInterfaceReport fn s
  | .getDeviceInterfaceState fn => Sys2Proof.Machine.execGetDeviceInterfaceState fn s
  | .startInterfaceRequest fn => Sys2Proof.Machine.execStartInterfaceRequest fn s
  | .stopInterfaceRequest fn => Sys2Proof.Machine.execStopInterfaceRequest fn s
  | .tdiError fn why => Sys2Proof.Machine.execTdiError fn why s
  | .spdmRequest fn req => Sys2Proof.Machine.execSpdmRequest fn req s
  | .vendorDefinedRequest fn item vhash => Sys2Proof.Machine.execVendorDefinedRequest fn item vhash s
  | .tokGo => Sys2Proof.Machine.execTokGo s
  | .lockedItemWrite part item val => Sys2Proof.Machine.execLockedItemWrite part item val s
  | .migrationSend fn => Sys2Proof.Machine.execMigrationSend fn s
  | .migrationConfirm fn sig => Sys2Proof.Machine.execMigrationConfirm fn sig s
  | .retryWindowExpire fn => Sys2Proof.Machine.execRetryWindowExpire fn s
  | .reattestWindowExpire fn => Sys2Proof.Machine.execReattestWindowExpire fn s
  | .flitCrcError link seq => Sys2Proof.Machine.execFlitCrcError link seq s
  | .linkDown link => Sys2Proof.Machine.execLinkDown link s
  | .peerMemoryRequest req => Sys2Proof.Machine.execPeerMemoryRequest req s
  | .pausedResponse peer k => Sys2Proof.Machine.execPausedResponse peer k s
  | .resumed peer => Sys2Proof.Machine.execResumed peer s
  | .memberMissing gid rank => Sys2Proof.Machine.execMemberMissing gid rank s
  | .waitlimExpire gid rank => Sys2Proof.Machine.execWaitlimExpire gid rank s
  | .collSegmentReceive gid rank seg decl vals => Sys2Proof.Machine.execCollSegmentReceive gid rank seg decl vals s
  | .resumeMember gid rank step map => Sys2Proof.Machine.execResumeMember gid rank step map s
  | .collJobComplete gid => Sys2Proof.Machine.execCollJobComplete gid s
  | .collJobFault gid cause => Sys2Proof.Machine.execCollJobFault gid cause s
  | .kmcDestStop k dest cause => Sys2Proof.Machine.execKmcDestStop k dest cause s
  | .brown => Sys2Proof.Machine.execBrown s
  | .shedComplete below => Sys2Proof.Machine.execShedComplete below s
  | .stackReturn => Sys2Proof.Machine.execStackReturn s
  | .brownoutEscalate reserve => Sys2Proof.Machine.execBrownoutEscalate reserve s
  | .pwrf reserve => Sys2Proof.Machine.execPwrf reserve s
  | .rackingStop done => Sys2Proof.Machine.execRackingStop done s
  | .powerUp => Sys2Proof.Machine.execPowerUp s
  | .erestartReached gauge => Sys2Proof.Machine.execErestartReached gauge s
  | .restartPwrf => Sys2Proof.Machine.execRestartPwrf s
  | .phaseLoss region => Sys2Proof.Machine.execPhaseLoss region s
  | .thermalSample region temp => Sys2Proof.Machine.execThermalSample region temp s
  | .patternChange cluster k => Sys2Proof.Machine.execPatternChange cluster k s
  | .thermalCut sensor => Sys2Proof.Machine.execThermalCut sensor s
  | .hbmRefresh bank temp => Sys2Proof.Machine.execHbmRefresh bank temp s
  | .frameZeroComplete stack frame => Sys2Proof.Machine.execFrameZeroComplete stack frame s
  | .correctedError src loc synd => Sys2Proof.Machine.execCorrectedError src loc synd s
  | .journalEntryTimeout => Sys2Proof.Machine.execJournalEntryTimeout s
  | .uncorrectableError map off reader => Sys2Proof.Machine.execUncorrectableError map off reader s
  | .scrubPass map off loc => Sys2Proof.Machine.execScrubPass map off loc s
  | .scrubrcpt range => Sys2Proof.Machine.execScrubrcpt range s
  | .ejhead => Sys2Proof.Machine.execEjhead s
  | .journalTrim index => Sys2Proof.Machine.execJournalTrim index s
  | .restartReport => Sys2Proof.Machine.execRestartReport s
  | .sweepRequest => Sys2Proof.Machine.execSweepRequest s
  | .fwUpdate hash expected sig version => Sys2Proof.Machine.execFwUpdate hash expected sig version s
  | .fwHeartbeat => Sys2Proof.Machine.execFwHeartbeat s
  | .fwHeartbeatTimeout => Sys2Proof.Machine.execFwHeartbeatTimeout s
  | .registerWrite reg val => Sys2Proof.Machine.execRegisterWrite reg val s
  | .droopCapChange cap => Sys2Proof.Machine.execDroopCapChange cap s
  | .linkUp link => Sys2Proof.Machine.execLinkUp link s
  | .linkLaneLost link lane => Sys2Proof.Machine.execLinkLaneLost link lane s
  | .memberStateReport gid rank st => Sys2Proof.Machine.execMemberStateReport gid rank st s
  | .sweepVisit place => Sys2Proof.Machine.execSweepVisit place s
  | .bufferSpaceEntryWrite asid index bits => Sys2Proof.Machine.execBufferSpaceEntryWrite asid index bits s
  | .powerLoss => Sys2Proof.Machine.execPowerLoss s
  | .migrationImport fn inp => Sys2Proof.Machine.execMigrationImport fn inp s

end Sys2Proof.Machine
end

