-- ==== Sys2Proof/Machine/Ready.lean ====
section
/-! DEFINITION. When a bundle is ready: what each word reads, writes and pops, and the structural conditions of the
entries (R18, R24, R31, R162, R176, R225, R238 to R240, R247, R256, R286 to R288, R339). -/

namespace Sys2Proof.Machine

open Sys2Proof

/-- What a word reads (with level 01 marked), the registers with full/empty state that it writes, and the entries it pops
from load-data and store-data queues. -/
structure WordInfo where
  reads : List (RegRef × Bool) := []
  dests : List RegRef := []
  lqs : List (DUnit × Nat) := []
  sqs : List (DUnit × Nat) := []
deriving DecidableEq, Repr

/-- A source that names a main-file register of a file. -/
def srcR (f : BitVec 5 → RegRef) (s : Src) : List (RegRef × Bool) :=
  match s with
  | .main n trap => [(f n, trap)]
  | .small _ => [] | .latch => [] | .queue => [] | .zero => [] | .imm _ => []

/-- Register D read at level 00. -/
def mainR (f : BitVec 5 → RegRef) (d : BitVec 5) : List (RegRef × Bool) := if d.toNat < 28 then [(f d, false)] else []
/-- The capability that field D of a memory word names (R226). -/
def capR (n : BitVec 4) : List (RegRef × Bool) := [(.c (n.setWidth 5), false)]
/-- A destination of a file with full/empty state. -/
def mainD (f : BitVec 5 → RegRef) (d : BitVec 5) : List RegRef := if d.toNat < 28 then [f d] else []

/-- The main file of a unit. -/
def unitRef (u : DUnit) (n : BitVec 5) : RegRef :=
  match u with
  | .a => .a n | .i => .i n | .va => .v .va n | .vb => .v .vb n
def dSrcR (u : DUnit) (s : Src) : List (RegRef × Bool) := srcR (unitRef u) s
def dMainR (u : DUnit) (d : BitVec 5) : List (RegRef × Bool) := mainR (unitRef u) d
def dMainD (u : DUnit) (d : BitVec 5) : List RegRef := mainD (unitRef u) d

/-- The destination of `xput`. -/
def tgtD (t : XTgt) (n : BitVec 5) : List RegRef :=
  match t with
  | .a => mainD .a n | .i => mainD .i n | .va => mainD (.v .va) n | .vb => mainD (.v .vb) n
  | .c => [] | .k => []

/-- The value registers of `kdef`. -/
def kdefR (u : VUnit) (cnt : BitVec 2) (s : Src) : List (RegRef × Bool) :=
  match s with
  | .main n trap => (List.range (cnt.toNat + 1)).map (fun t => (.v u (n + BitVec.ofNat 5 t), trap))
  | .small _ => [] | .latch => [] | .queue => [] | .zero => [] | .imm _ => []

/-- The destinations of `ktake`. -/
def takeD (u : VUnit) (cnt : BitVec 2) (d : BitVec 5) : List RegRef :=
  (List.range (cnt.toNat + 2)).map (fun t => .v u (d + BitVec.ofNat 5 t))

/-- The table of R18 and R31. A job, tile, format or scale field of a word counts no bank read. (DESIGN CHOICE, log 92.) -/
def wordInfo (i : Instr) : WordInfo :=
  match i with
  | .nop _ => {}
  | .bra _ _ _ => {}
  | .br _ _ a => ⟨srcR .g a, [], [], []⟩
  | .call _ _ _ => {}
  | .ret _ _ => {}
  | .lset _ a _ => ⟨srcR .g a, [], [], []⟩
  | .lend _ _ => {}
  | .pand _ _ _ => {}
  | .por _ _ _ => {}
  | .pxor _ _ _ => {}
  | .pnot _ _ => {}
  | .pset _ a _ _ => ⟨srcR .g a, [], [], []⟩
  | .wanyTest _ a => ⟨srcR .g a, [], [], []⟩
  | .wanyWait a => ⟨srcR .g a, [], [], []⟩
  | .wallTest _ a => ⟨srcR .g a, [], [], []⟩
  | .wallWait a => ⟨srcR .g a, [], [], []⟩
  | .ffd _ a => ⟨srcR .g a, [], [], []⟩
  | .dclr a => ⟨srcR .g a, [], [], []⟩
  | .bar _ _ a => ⟨srcR .g a, [], [], []⟩
  | .susp n a b => ⟨srcR .g a ++ srcR .g b ++ [(.g (n.setWidth 5), false)], [], [], []⟩
  | .pick => {}
  | .spawn => {}
  | .join a => ⟨srcR .g a, [], [], []⟩
  | .joinL => {}
  | .yield a => ⟨srcR .g a, [], [], []⟩
  | .trap _ _ a _ => ⟨srcR .g a, [], [], []⟩
  | .rett => {}
  | .rettSkip => {}
  | .rettGoto a => ⟨srcR .g a, [], [], []⟩
  | .rettAbort => {}
  | .halt => {}
  | .stepmark a => ⟨srcR .g a, [], [], []⟩
  | .sysr _ _ => {}
  | .sysw d _ => ⟨[(.g (d.setWidth 5), false)], [], [], []⟩
  | .aadd d a b => ⟨srcR .a a ++ srcR .a b, mainD .a d, [(.a, qCount a + qCount b)], []⟩
  | .asub d a b => ⟨srcR .a a ++ srcR .a b, mainD .a d, [(.a, qCount a + qCount b)], []⟩
  | .ashl d a b => ⟨srcR .a a ++ srcR .a b, mainD .a d, [(.a, qCount a + qCount b)], []⟩
  | .ashr d a b => ⟨srcR .a a ++ srcR .a b, mainD .a d, [(.a, qCount a + qCount b)], []⟩
  | .aand d a b => ⟨srcR .a a ++ srcR .a b, mainD .a d, [(.a, qCount a + qCount b)], []⟩
  | .aor d a b => ⟨srcR .a a ++ srcR .a b, mainD .a d, [(.a, qCount a + qCount b)], []⟩
  | .aaddi d a _ => ⟨srcR .a a, mainD .a d, [(.a, qCount a)], []⟩
  | .amovi d _ => ⟨[], mainD .a d, [], []⟩
  | .amovh d _ => ⟨mainR .a d, mainD .a d, [], []⟩
  | .acmp _ _ a b => ⟨srcR .a a ++ srcR .a b, [], [(.a, qCount a + qCount b)], []⟩
  | .cmov d a => ⟨srcR .c a, [.c (d.setWidth 5)], [], []⟩
  | .cclr d a => ⟨srcR .c a, [.c (d.setWidth 5)], [], []⟩
  | .ccur d a b => ⟨srcR .c a ++ srcR .a b, [.c (d.setWidth 5)], [(.a, qCount b)], []⟩
  | .cinc d a b => ⟨srcR .c a ++ srcR .a b, [.c (d.setWidth 5)], [(.a, qCount b)], []⟩
  | .cbnd d a b => ⟨srcR .c a ++ srcR .a b, [.c (d.setWidth 5)], [(.a, qCount b)], []⟩
  | .cbndr d a b => ⟨srcR .c a ++ srcR .a b, [.c (d.setWidth 5)], [(.a, qCount b)], []⟩
  | .cperm d a _ => ⟨srcR .c a, [.c (d.setWidth 5)], [], []⟩
  | .cget d a _ => ⟨srcR .c a, mainD .a d, [], []⟩
  | .ctag d a b => ⟨srcR .c a ++ srcR .c b, [.c (d.setWidth 5)], [], []⟩
  | .crev d a => ⟨srcR .c a, [.c (d.setWidth 5)], [], []⟩
  | .jmpc a => ⟨srcR .c a, [], [], []⟩
  | .callc a => ⟨srcR .c a, [], [], []⟩
  | .ldA _ cd a b => ⟨srcR .a a ++ srcR .a b ++ capR cd, [], [(.a, qCount a + qCount b)], []⟩
  | .ldI _ cd a b => ⟨srcR .a a ++ srcR .a b ++ capR cd, [], [(.a, qCount a + qCount b)], []⟩
  | .stA _ cd a b => ⟨srcR .a a ++ srcR .a b ++ capR cd, [], [(.a, qCount a + qCount b)], []⟩
  | .stI _ cd a b => ⟨srcR .a a ++ srcR .a b ++ capR cd, [], [(.a, qCount a + qCount b)], [(.i, 1)]⟩
  | .vldVA _ cd a b => ⟨srcR .a a ++ srcR .a b ++ capR cd, [], [(.a, qCount a + qCount b)], []⟩
  | .vldVB _ cd a b => ⟨srcR .a a ++ srcR .a b ++ capR cd, [], [(.a, qCount a + qCount b)], []⟩
  | .vstVA _ cd a b => ⟨srcR .a a ++ srcR .a b ++ capR cd, [], [(.a, qCount a + qCount b)], [(.va, 1)]⟩
  | .vstVB _ cd a b => ⟨srcR .a a ++ srcR .a b ++ capR cd, [], [(.a, qCount a + qCount b)], [(.vb, 1)]⟩
  | .vldgVA _ cd a b => ⟨srcR .a a ++ srcR .a b ++ capR cd, [], [(.a, qCount a + qCount b)], [(.va, 1)]⟩
  | .vldgVB _ cd a b => ⟨srcR .a a ++ srcR .a b ++ capR cd, [], [(.a, qCount a + qCount b)], [(.vb, 1)]⟩
  | .vstsVA _ cd a b => ⟨srcR .a a ++ srcR .a b ++ capR cd, [], [(.a, qCount a + qCount b)], [(.va, 2)]⟩
  | .vstsVB _ cd a b => ⟨srcR .a a ++ srcR .a b ++ capR cd, [], [(.a, qCount a + qCount b)], [(.vb, 2)]⟩
  | .lcap d a b => ⟨srcR .c a ++ srcR .a b, [.c (d.setWidth 5)], [(.a, qCount b)], []⟩
  | .scap cd a b => ⟨srcR .a a ++ srcR .c b ++ capR cd, [], [(.a, qCount a)], []⟩
  | .cas _ cd _ _ b => ⟨srcR .a b ++ capR cd, [], [(.a, qCount b)], [(.a, 1)]⟩
  | .fence _ _ => {}
  | .amoAdd _ _ cd _ _ b => ⟨srcR .a b ++ capR cd, [], [(.a, qCount b)], []⟩
  | .amoAnd _ _ cd _ _ b => ⟨srcR .a b ++ capR cd, [], [(.a, qCount b)], []⟩
  | .amoOr _ _ cd _ _ b => ⟨srcR .a b ++ capR cd, [], [(.a, qCount b)], []⟩
  | .amoXor _ _ cd _ _ b => ⟨srcR .a b ++ capR cd, [], [(.a, qCount b)], []⟩
  | .amoSwap _ _ cd _ _ b => ⟨srcR .a b ++ capR cd, [], [(.a, qCount b)], []⟩
  | .amoMin _ _ cd _ _ b => ⟨srcR .a b ++ capR cd, [], [(.a, qCount b)], []⟩
  | .amoMax _ _ cd _ _ b => ⟨srcR .a b ++ capR cd, [], [(.a, qCount b)], []⟩
  | .amoWsadd u _ cd _ _ => ⟨capR cd, [], [], [(u.dunit, 1)]⟩
  | .tclrReg u d => ⟨dMainR u d, dMainD u d, [], []⟩
  | .tclrPath _ => {}
  | .tclrCap d => ⟨capR d, [.c (d.setWidth 5)], [], []⟩
  | .tdepReg u d a => ⟨dSrcR u a ++ dMainR u d, dMainD u d, [(u, qCount a)], []⟩
  | .tdepPath u a => ⟨dSrcR u a, [], [(u, qCount a)], []⟩
  | .tdepCap d a => ⟨srcR .a a ++ capR d, [.c (d.setWidth 5)], [(.a, qCount a)], []⟩
  | .xput u t n a => ⟨dSrcR u a, tgtD t n, [(u, qCount a)], []⟩
  | .keep u a => ⟨dSrcR u a, [], [(u, qCount a)], []⟩
  | .keepW32 _ _ => {}
  | .keepW64 _ _ => {}
  | .xlat d a b => ⟨srcR .c a ++ srcR .a b, [.xh (d.setWidth 5)], [(.a, qCount b)], []⟩
  | .xrel a => ⟨srcR .xh a, [], [], []⟩
  | .xrelRd d a => ⟨srcR .xh a, mainD .a d, [], []⟩
  | .add _ d a b => ⟨srcR .i a ++ srcR .i b, mainD .i d, [(.i, qCount a + qCount b)], []⟩
  | .sub _ d a b => ⟨srcR .i a ++ srcR .i b, mainD .i d, [(.i, qCount a + qCount b)], []⟩
  | .mul _ d a b => ⟨srcR .i a ++ srcR .i b, mainD .i d, [(.i, qCount a + qCount b)], []⟩
  | .and _ d a b => ⟨srcR .i a ++ srcR .i b, mainD .i d, [(.i, qCount a + qCount b)], []⟩
  | .or _ d a b => ⟨srcR .i a ++ srcR .i b, mainD .i d, [(.i, qCount a + qCount b)], []⟩
  | .xor _ d a b => ⟨srcR .i a ++ srcR .i b, mainD .i d, [(.i, qCount a + qCount b)], []⟩
  | .andn _ d a b => ⟨srcR .i a ++ srcR .i b, mainD .i d, [(.i, qCount a + qCount b)], []⟩
  | .shl _ d a b => ⟨srcR .i a ++ srcR .i b, mainD .i d, [(.i, qCount a + qCount b)], []⟩
  | .shr _ d a b => ⟨srcR .i a ++ srcR .i b, mainD .i d, [(.i, qCount a + qCount b)], []⟩
  | .sar _ d a b => ⟨srcR .i a ++ srcR .i b, mainD .i d, [(.i, qCount a + qCount b)], []⟩
  | .rot _ d a b => ⟨srcR .i a ++ srcR .i b, mainD .i d, [(.i, qCount a + qCount b)], []⟩
  | .sel _ d a b => ⟨srcR .i a ++ srcR .i b ++ mainR .i d, mainD .i d, [(.i, qCount a + qCount b)], []⟩
  | .mulh _ d a b => ⟨srcR .i a ++ srcR .i b, mainD .i d, [(.i, qCount a + qCount b)], []⟩
  | .min _ d a b => ⟨srcR .i a ++ srcR .i b, mainD .i d, [(.i, qCount a + qCount b)], []⟩
  | .max _ d a b => ⟨srcR .i a ++ srcR .i b, mainD .i d, [(.i, qCount a + qCount b)], []⟩
  | .addSat _ d a b => ⟨srcR .i a ++ srcR .i b, mainD .i d, [(.i, qCount a + qCount b)], []⟩
  | .subSat _ d a b => ⟨srcR .i a ++ srcR .i b, mainD .i d, [(.i, qCount a + qCount b)], []⟩
  | .mulSat _ d a b => ⟨srcR .i a ++ srcR .i b, mainD .i d, [(.i, qCount a + qCount b)], []⟩
  | .shlSat _ d a b => ⟨srcR .i a ++ srcR .i b, mainD .i d, [(.i, qCount a + qCount b)], []⟩
  | .div _ d a b => ⟨srcR .i a ++ srcR .i b, mainD .i d, [(.i, qCount a + qCount b)], []⟩
  | .rem _ d a b => ⟨srcR .i a ++ srcR .i b, mainD .i d, [(.i, qCount a + qCount b)], []⟩
  | .divSat _ d a b => ⟨srcR .i a ++ srcR .i b, mainD .i d, [(.i, qCount a + qCount b)], []⟩
  | .addi d a _ => ⟨srcR .i a, mainD .i d, [(.i, qCount a)], []⟩
  | .movi d _ => ⟨[], mainD .i d, [], []⟩
  | .movh d _ => ⟨mainR .i d, mainD .i d, [], []⟩
  | .clz _ d a => ⟨srcR .i a, mainD .i d, [(.i, qCount a)], []⟩
  | .ctz _ d a => ⟨srcR .i a, mainD .i d, [(.i, qCount a)], []⟩
  | .popc _ d a => ⟨srcR .i a, mainD .i d, [(.i, qCount a)], []⟩
  | .cmp _ _ _ a b => ⟨srcR .i a ++ srcR .i b, [], [(.i, qCount a + qCount b)], []⟩
  | .ext _ d a => ⟨srcR .i a, mainD .i d, [(.i, qCount a)], []⟩
  | .bfx _ d a b => ⟨srcR .i a ++ srcR .i b, mainD .i d, [(.i, qCount a + qCount b)], []⟩
  | .bfi d a b => ⟨srcR .i a ++ srcR .i b ++ mainR .i d, mainD .i d, [(.i, qCount a + qCount b)], []⟩
  | .fadd _ d a b => ⟨srcR .i a ++ srcR .i b, mainD .i d, [(.i, qCount a + qCount b)], []⟩
  | .fsub _ d a b => ⟨srcR .i a ++ srcR .i b, mainD .i d, [(.i, qCount a + qCount b)], []⟩
  | .fmul _ d a b => ⟨srcR .i a ++ srcR .i b, mainD .i d, [(.i, qCount a + qCount b)], []⟩
  | .ffma _ d a b => ⟨srcR .i a ++ srcR .i b ++ mainR .i d, mainD .i d, [(.i, qCount a + qCount b)], []⟩
  | .fmin _ d a b => ⟨srcR .i a ++ srcR .i b, mainD .i d, [(.i, qCount a + qCount b)], []⟩
  | .fmax _ d a b => ⟨srcR .i a ++ srcR .i b, mainD .i d, [(.i, qCount a + qCount b)], []⟩
  | .fcmp _ d a b => ⟨srcR .i a ++ srcR .i b, mainD .i d, [(.i, qCount a + qCount b)], []⟩
  | .fdiv _ d a b => ⟨srcR .i a ++ srcR .i b, mainD .i d, [(.i, qCount a + qCount b)], []⟩
  | .fsqrt _ d a => ⟨srcR .i a, mainD .i d, [(.i, qCount a)], []⟩
  | .fcvt _ _ _ d a => ⟨srcR .i a, mainD .i d, [(.i, qCount a)], []⟩
  | .vadd u _ d a b => ⟨srcR (.v u) a ++ srcR (.v u) b, mainD (.v u) d, [(u.dunit, qCount a + qCount b)], []⟩
  | .vsub u _ d a b => ⟨srcR (.v u) a ++ srcR (.v u) b, mainD (.v u) d, [(u.dunit, qCount a + qCount b)], []⟩
  | .vmul u _ d a b => ⟨srcR (.v u) a ++ srcR (.v u) b, mainD (.v u) d, [(u.dunit, qCount a + qCount b)], []⟩
  | .vaddSat u _ d a b => ⟨srcR (.v u) a ++ srcR (.v u) b, mainD (.v u) d, [(u.dunit, qCount a + qCount b)], []⟩
  | .vsubSat u _ d a b => ⟨srcR (.v u) a ++ srcR (.v u) b, mainD (.v u) d, [(u.dunit, qCount a + qCount b)], []⟩
  | .vfma u _ d a b => ⟨srcR (.v u) a ++ srcR (.v u) b ++ mainR (.v u) d, mainD (.v u) d, [(u.dunit, qCount a + qCount b)], []⟩
  | .vfms u _ d a b => ⟨srcR (.v u) a ++ srcR (.v u) b ++ mainR (.v u) d, mainD (.v u) d, [(u.dunit, qCount a + qCount b)], []⟩
  | .vnfma u _ d a b => ⟨srcR (.v u) a ++ srcR (.v u) b ++ mainR (.v u) d, mainD (.v u) d, [(u.dunit, qCount a + qCount b)], []⟩
  | .vdivFp u _ d a b => ⟨srcR (.v u) a ++ srcR (.v u) b, mainD (.v u) d, [(u.dunit, qCount a + qCount b)], []⟩
  | .vsqrt u _ d a => ⟨srcR (.v u) a, mainD (.v u) d, [(u.dunit, qCount a)], []⟩
  | .vdivInt u _ d a b => ⟨srcR (.v u) a ++ srcR (.v u) b, mainD (.v u) d, [(u.dunit, qCount a + qCount b)], []⟩
  | .vdivSat u _ d a b => ⟨srcR (.v u) a ++ srcR (.v u) b, mainD (.v u) d, [(u.dunit, qCount a + qCount b)], []⟩
  | .vrcpe u _ d a => ⟨srcR (.v u) a, mainD (.v u) d, [(u.dunit, qCount a)], []⟩
  | .vrsqe u _ d a => ⟨srcR (.v u) a, mainD (.v u) d, [(u.dunit, qCount a)], []⟩
  | .vminFp u _ d a b => ⟨srcR (.v u) a ++ srcR (.v u) b, mainD (.v u) d, [(u.dunit, qCount a + qCount b)], []⟩
  | .vmaxFp u _ d a b => ⟨srcR (.v u) a ++ srcR (.v u) b, mainD (.v u) d, [(u.dunit, qCount a + qCount b)], []⟩
  | .vminInt u _ d a b => ⟨srcR (.v u) a ++ srcR (.v u) b, mainD (.v u) d, [(u.dunit, qCount a + qCount b)], []⟩
  | .vmaxInt u _ d a b => ⟨srcR (.v u) a ++ srcR (.v u) b, mainD (.v u) d, [(u.dunit, qCount a + qCount b)], []⟩
  | .vabs u _ d a => ⟨srcR (.v u) a, mainD (.v u) d, [(u.dunit, qCount a)], []⟩
  | .vneg u _ d a => ⟨srcR (.v u) a, mainD (.v u) d, [(u.dunit, qCount a)], []⟩
  | .vand u _ d a b => ⟨srcR (.v u) a ++ srcR (.v u) b, mainD (.v u) d, [(u.dunit, qCount a + qCount b)], []⟩
  | .vor u _ d a b => ⟨srcR (.v u) a ++ srcR (.v u) b, mainD (.v u) d, [(u.dunit, qCount a + qCount b)], []⟩
  | .vxor u _ d a b => ⟨srcR (.v u) a ++ srcR (.v u) b, mainD (.v u) d, [(u.dunit, qCount a + qCount b)], []⟩
  | .vshl u _ d a b => ⟨srcR (.v u) a ++ srcR (.v u) b, mainD (.v u) d, [(u.dunit, qCount a + qCount b)], []⟩
  | .vshr u _ d a b => ⟨srcR (.v u) a ++ srcR (.v u) b, mainD (.v u) d, [(u.dunit, qCount a + qCount b)], []⟩
  | .vsar u _ d a b => ⟨srcR (.v u) a ++ srcR (.v u) b, mainD (.v u) d, [(u.dunit, qCount a + qCount b)], []⟩
  | .vnot u _ d a => ⟨srcR (.v u) a, mainD (.v u) d, [(u.dunit, qCount a)], []⟩
  | .vcmpFp u _ _ _ a b => ⟨srcR (.v u) a ++ srcR (.v u) b, [], [(u.dunit, qCount a + qCount b)], []⟩
  | .vcmpInt u _ _ _ a b => ⟨srcR (.v u) a ++ srcR (.v u) b, [], [(u.dunit, qCount a + qCount b)], []⟩
  | .vsel u _ d a b => ⟨srcR (.v u) a ++ srcR (.v u) b, mainD (.v u) d, [(u.dunit, qCount a + qCount b)], []⟩
  | .vmand _ _ _ _ => {}
  | .vmor _ _ _ _ => {}
  | .vmnot _ _ _ => {}
  | .vmpop u d _ => ⟨[], mainD (.v u) d, [], []⟩
  | .vmff u d _ => ⟨[], mainD (.v u) d, [], []⟩
  | .vmovi u d _ => ⟨[], mainD (.v u) d, [], []⟩
  | .vidx u _ d a => ⟨srcR (.v u) a, mainD (.v u) d, [(u.dunit, qCount a)], []⟩
  | .vbcast u _ d a b => ⟨srcR (.v u) a ++ srcR (.v u) b, mainD (.v u) d, [(u.dunit, qCount a + qCount b)], []⟩
  | .vperm u _ d a b => ⟨srcR (.v u) a ++ srcR (.v u) b, mainD (.v u) d, [(u.dunit, qCount a + qCount b)], []⟩
  | .vrot u _ d a b => ⟨srcR (.v u) a ++ srcR (.v u) b, mainD (.v u) d, [(u.dunit, qCount a + qCount b)], []⟩
  | .vslideDn u _ d a b => ⟨srcR (.v u) a ++ srcR (.v u) b, mainD (.v u) d, [(u.dunit, qCount a + qCount b)], []⟩
  | .vslideUp u _ d a b => ⟨srcR (.v u) a ++ srcR (.v u) b, mainD (.v u) d, [(u.dunit, qCount a + qCount b)], []⟩
  | .vcvt u _ _ _ _ d a => ⟨srcR (.v u) a, mainD (.v u) d, [(u.dunit, qCount a)], []⟩
  | .vpack u _ _ _ _ d a => ⟨srcR (.v u) a ++ mainR (.v u) d, mainD (.v u) d, [(u.dunit, qCount a)], []⟩
  | .vunpk u _ _ _ _ d a => ⟨srcR (.v u) a, mainD (.v u) d, [(u.dunit, qCount a)], []⟩
  | .vredsum u _ d a _ => ⟨srcR (.v u) a, mainD (.v u) d, [(u.dunit, qCount a)], []⟩
  | .vredsumSat u _ d a _ => ⟨srcR (.v u) a, mainD (.v u) d, [(u.dunit, qCount a)], []⟩
  | .vredmaxFp u _ d a _ => ⟨srcR (.v u) a, mainD (.v u) d, [(u.dunit, qCount a)], []⟩
  | .vredminFp u _ d a _ => ⟨srcR (.v u) a, mainD (.v u) d, [(u.dunit, qCount a)], []⟩
  | .vredmaxInt u _ d a _ => ⟨srcR (.v u) a, mainD (.v u) d, [(u.dunit, qCount a)], []⟩
  | .vredminInt u _ d a _ => ⟨srcR (.v u) a, mainD (.v u) d, [(u.dunit, qCount a)], []⟩
  | .wsadd u _ _ a _ => ⟨srcR (.v u) a, [], [(u.dunit, qCount a)], []⟩
  | .wsrnd u _ d _ _ => ⟨[], mainD (.v u) d, [], []⟩
  | .wsclr _ _ => {}
  | .wsmovW u _ a => ⟨srcR (.v u) a, [], [(u.dunit, qCount a)], []⟩
  | .wsmovV u d _ => ⟨[], mainD (.v u) d, [], []⟩
  | .wsmov _ _ _ => {}
  | .wsmovPop u _ => ⟨[], [], [(u.dunit, 1)], []⟩
  | .kdef u cnt _ _ a _ => ⟨kdefR u cnt a, [], [], []⟩
  | .ktake u cnt _ d _ => ⟨[], takeD u cnt d, [], []⟩
  | .kcnt u d _ => ⟨[], mainD (.v u) d, [], []⟩
  | .mpass _ _ _ _ _ _ => {}
  | .mzero _ _ => {}
  | .mread _ _ _ _ => {}
  | .mwrite _ _ _ _ => {}
  | .mstat _ _ => {}
  | .msetBase _ _ => {}
  | .msetStride _ _ => {}
  | .msetFmt _ _ _ _ _ => {}
  | .msetScale _ _ _ _ => {}
  | .gset _ _ => {}
  | .gsetAdd _ _ => {}
  | .sld _ _ => {}
  | .sset _ _ => {}
  | .fset _ _ _ => {}
  | .smov _ _ a => ⟨srcR .sreg a, [], [], []⟩
  | .sclr _ _ => {}
  | .ksetW _ _ b => ⟨srcR .kx b, [], [], []⟩
  | .ksetC _ _ b => ⟨srcR .kc b, [], [], []⟩
  | .ksetBnd _ a b => ⟨srcR .kc a ++ srcR .kx b, [], [], []⟩
  | .ksetCur _ a b => ⟨srcR .kc a ++ srcR .kx b, [], [], []⟩
  | .ksetLc _ a b => ⟨srcR .kc a ++ srcR .kx b, [], [], []⟩
  | .ksetAdd _ a b => ⟨srcR .kx a ++ srcR .kx b, [], [], []⟩
  | .kcopy _ _ _ _ => {}
  | .kmc _ _ _ _ _ => {}
  | .kfill _ _ _ => {}
  | .kcoll _ _ _ _ _ _ => {}
  | .kpf _ _ => {}
  | .kcan _ => {}
  | .kstat d a _ => ⟨srcR .kx a ++ [(.kc (d.setWidth 5), false)], [], [], []⟩
  | .asyncFaultTaken => {}
  | .dueEntryVisible => {}
  | .fullEmptyResultArrive _ => {}
  | .yieldExpire => {}
  | .loadPerform _ => {}
  | .storePerform _ => {}
  | .extentResident _ _ => {}
  | .sideLogReplay => {}
  | .extentFirstTouch _ _ => {}
  | .extentMigrate _ _ _ => {}
  | .accessCounterHalve => {}
  | .xlatHandleFill _ => {}
  | .cardStart _ => {}
  | .cardComplete _ => {}
  | .mOpStart => {}
  | .mOpEnd => {}
  | .crevComplete => {}
  | .spawnPerform _ => {}
  | .joinPerform _ => {}
  | .poolHandover => {}
  | .cmdTailWrite _ _ => {}
  | .cmdCtlWrite _ _ => {}
  | .launch _ => {}
  | .graph _ => {}
  | .graphNodeStart _ _ => {}
  | .waitRecord _ => {}
  | .waitRecheck _ => {}
  | .signal _ => {}
  | .fenceRecord _ => {}
  | .launchEnd _ => {}
  | .hangLimit _ => {}
  | .wallLimit _ => {}
  | .preemption _ => {}
  | .contextStop _ => {}
  | .contextResume _ _ _ _ => {}
  | .fatalFault => {}
  | .abortTimeout _ => {}
  | .sweepStart => {}
  | .sweepCorePause => {}
  | .sweepComplete => {}
  | .hostRead _ => {}
  | .hostWrite _ _ => {}
  | .getTdispVersion _ => {}
  | .getTdispCapabilities _ => {}
  | .lockInterfaceRequest _ => {}
  | .getDeviceInterfaceReport _ => {}
  | .getDeviceInterfaceState _ => {}
  | .startInterfaceRequest _ => {}
  | .stopInterfaceRequest _ => {}
  | .tdiError _ _ => {}
  | .spdmRequest _ _ => {}
  | .vendorDefinedRequest _ _ _ => {}
  | .tokGo => {}
  | .lockedItemWrite _ _ _ => {}
  | .migrationSend _ => {}
  | .migrationConfirm _ _ => {}
  | .retryWindowExpire _ => {}
  | .reattestWindowExpire _ => {}
  | .flitCrcError _ _ => {}
  | .linkDown _ => {}
  | .peerMemoryRequest _ => {}
  | .pausedResponse _ _ => {}
  | .resumed _ => {}
  | .memberMissing _ _ => {}
  | .waitlimExpire _ _ => {}
  | .collSegmentReceive _ _ _ _ _ => {}
  | .resumeMember _ _ _ _ => {}
  | .collJobComplete _ => {}
  | .collJobFault _ _ => {}
  | .kmcDestStop _ _ _ => {}
  | .brown => {}
  | .shedComplete _ => {}
  | .stackReturn => {}
  | .brownoutEscalate _ => {}
  | .pwrf _ => {}
  | .rackingStop _ => {}
  | .powerUp => {}
  | .erestartReached _ => {}
  | .restartPwrf => {}
  | .phaseLoss _ => {}
  | .thermalSample _ _ => {}
  | .patternChange _ _ => {}
  | .thermalCut _ => {}
  | .hbmRefresh _ _ => {}
  | .frameZeroComplete _ _ => {}
  | .correctedError _ _ _ => {}
  | .journalEntryTimeout => {}
  | .uncorrectableError _ _ _ => {}
  | .scrubPass _ _ _ => {}
  | .scrubrcpt _ => {}
  | .ejhead => {}
  | .journalTrim _ => {}
  | .restartReport => {}
  | .sweepRequest => {}
  | .fwUpdate _ _ _ _ => {}
  | .fwHeartbeat => {}
  | .fwHeartbeatTimeout => {}
  | .registerWrite _ _ => {}
  | .droopCapChange _ => {}
  | .linkUp _ => {}
  | .linkLaneLost _ _ => {}
  | .memberStateReport _ _ _ => {}
  | .sweepVisit _ => {}
  | .bufferSpaceEntryWrite _ _ _ => {}
  | .powerLoss => {}
  | .migrationImport _ _ => {}

/-- The unit of a word: bits 30:28 of its encoding. -/
def wordUnit (i : Instr) : UnitId := UnitId.ofCode ((encode i).extractLsb' 28 3)

def isNop : Instr → Bool
  | .nop _ => true
  | _ => false

/-! ### Structural conditions -/

/-- Room for a load: a free id and a free entry of the queue it names (R225). -/
def State.loadRoom (s : State) (d : DUnit) : Bool := !s.ctx.freeIds.isEmpty && decide ((s.ctx.lq d).length < 16)

/-- Whether an operation of the context that names a done bit is outstanding (R247). -/
def MOp.doneBit : MOp → Option Nat
  | .read _ _ _ _ db => some db
  | .write _ _ _ _ db _ => some db
  | .stat _ db => some db
  | .pass _ _ _ _ _ _ _ _ _ _ _ _ => none
  | .zero _ _ => none
def State.doneBusy (s : State) (db : Nat) : Bool :=
  (s.cardOfDone db).isSome || s.ctx.mem.mq.any (fun (e : MEntry) => e.op.doneBit == some db)

/-- Room for an M operation on some tiles (R162, R176). -/
def State.mRoom (s : State) (tiles : List Nat) : Bool :=
  decide (s.ctx.mem.mq.length < 4) && tiles.all (fun z => (vget s.core.tiles z Tile.zero).full)

/-- Room for a card (R247). -/
def State.cardRoom (s : State) (db : BitVec 6) : Bool := decide (s.core.cards.length < 16) && !s.doneBusy db.toNat

/-- Whether no load of a taint set or of the path taint is outstanding: what a word that reads or writes the own array as
it issues waits for (R265). -/
def State.taintQuiet (s : State) (t : Taint) : Bool :=
  !(List.range 16).any (fun k => natBit (t ||| s.ctx.path).toNat k && (idAt s.ctx k).held)

/-- The local-array offset of `x` bytes beyond a capability's cursor. -/
def State.arrayOff (s : State) (cap : CapV) (x : Int) : Nat :=
  ((s.table.entry cap.index).map (fun (e : BufEntry) => 48 * e.loff)).getD 0 + ((cap.cursor : Int) + x).toNat

/-- The bytes of the own array that a word reads or writes as it issues, and whether it writes them (R188, R244, R296,
R381). -/
def State.arrayTouch (s : State) (i : Instr) : Option ((Nat × Nat) × Bool) :=
  let region := fun (kt : BitVec 2) => let k := s.ctx.kitty kt.toNat; (kittyBytes * k.base, kittyBytes * k.cap)
  match i with
  | .sld _ unit => some ((16 * unit.toNat, 64), false)
  | .ksetLc _ a b => some ((s.arrayOff (s.ctx.rdKc a).1 (s.ctx.rdKx b).1.toInt, 16), false)
  | .kmc j _ n _ _ => some ((s.arrayOff (s.ctx.kj j).1.dst 0, 16 * (n.toNat + 1)), false)
  | .ktake _ _ kt _ _ => some (region kt, false)
  | .kdef _ _ kt _ _ _ => some (region kt, true)
  | _ => none

/-- Whether an outstanding access keeps such a word from reading or writing bytes of the own array (R164, R262, R272): one
that writes a local array, one that reads those bytes, a fence, or the atomic whose acquire half a fence is. -/
def Ctx.keepsArray (c : Ctx) (r : Nat × Nat) (x : Access) : Bool :=
  x.writesArray || x.op.isFence || c.mem.outs.any (fun f => f.op == .fence (some x.seq)) ||
  (x.loc == .loc c.place.core && x.pieces.any (fun (p : Piece) => rangesMeet p.addr x.size r.1 r.2))

/-- A word that reads or writes the own array as it issues comes after what the context has issued before it, a word of lower
unit code in its bundle included (R91, R164): those accesses perform now, in program order, and where one may not the
bundle is late. -/
def State.arrayTurn (s : State) (i : Instr) : State :=
  match s.arrayTouch i with
  | none => s
  | some (r, w) =>
    let t := (s.ctx.mem.outs.filter (s.ctx.keepsArray r)).foldl (fun (t : State) x => t.performOut x) s
    if t.ctx.mem.outs.any (t.ctx.keepsArray r) ||
        (w && t.ctx.mAhead t.ctx.mem.aseq (rangesMeet r.1 r.2)) then
      t.onCtx (fun c => { c with bun := { c.bun with late := true } })
    else t

/-- The release at a barrier's scope, or at PK (R272, R287, R292): the context's earlier accesses, cards and M operations have
performed, and beyond the cluster its dirty bytes can reach their homes. -/
def State.drained (s : State) (wide : Bool) : Bool :=
  s.released (some (if wide then .pk else .cl)) s.ctx.mem.aseq

/-- The readiness of `pick` and `susp` (R287); a `susp` waits as well for its frame and record to be in reach (R394). -/
def State.quiet (s : State) : Bool :=
  s.drained true && s.ctx.due.isEmpty && s.ctx.mem.mq.isEmpty && s.ctx.mem.xlats.isEmpty &&
  s.ctx.mem.pins.toList.all (fun p => p.isNone)

/-- Whether `crev` waits for the sweep (R339). -/
def State.crevWaits (s : State) (a : Src) : Bool :=
  let v := (s.ctx.rdCap a).1
  v.tag && (match s.table.entry v.index with
    | some e => v.gen == e.gen && (e.gen + 1) % 4096 == e.gfloor
    | none => false)

/-- The structural conditions of a word (R18). (DEDUCED, log 26.) -/
def State.wordReady (s : State) (i : Instr) : Bool :=
  match i with
  | .ldA _ _ _ _ => s.loadRoom .a
  | .ldI _ _ _ _ => s.loadRoom .i
  | .vldVA _ _ _ _ => s.loadRoom .va
  | .vldVB _ _ _ _ => s.loadRoom .vb
  | .vldgVA _ _ _ _ => s.loadRoom .va
  | .vldgVB _ _ _ _ => s.loadRoom .vb
  | .lcap _ _ _ => !s.ctx.freeIds.isEmpty
  | .cas _ _ _ _ _ => s.loadRoom .a
  | .amoAdd _ ret _ _ _ _ => !ret || s.loadRoom .a
  | .amoAnd _ ret _ _ _ _ => !ret || s.loadRoom .a
  | .amoOr _ ret _ _ _ _ => !ret || s.loadRoom .a
  | .amoXor _ ret _ _ _ _ => !ret || s.loadRoom .a
  | .amoSwap _ ret _ _ _ _ => !ret || s.loadRoom .a
  | .amoMin _ ret _ _ _ _ => !ret || s.loadRoom .a
  | .amoMax _ ret _ _ _ _ => !ret || s.loadRoom .a
  | .keep u _ => decide ((s.ctx.sq u).length < 8)
  | .keepW32 u _ => decide ((s.ctx.sq u.dunit).length < 8)
  | .keepW64 u _ => decide ((s.ctx.sq u.dunit).length < 8)
  | .wanyWait a => (s.ctx.rdC a).1 == 0 || doneTest false s.ctx.c.done (s.ctx.rdC a).1
  | .wallWait a => doneTest true s.ctx.c.done (s.ctx.rdC a).1
  | .bar _ launch _ => s.drained launch
  | .pick => s.quiet
  | .susp _ a b => s.quiet && s.ctx.mem.pend.isEmpty && !s.suspHeld a b
  | .crev _ a => !s.crevWaits a
  | .mpass z sd _ _ _ _ =>
    let d := (s.ctx.sd sd).1
    s.mRoom (tilesOf z.toNat (sdAtype d == 11 && sdBtype d == 11))
  | .mzero pair z => s.mRoom (tilesOf z.toNat pair)
  | .mread pair z _ db => s.mRoom (tilesOf z.toNat pair) && !s.doneBusy db.toNat
  | .mwrite form z _ db => s.mRoom (tilesOf z.toNat (form == .pair)) && !s.doneBusy db.toNat
  | .mstat _ db => s.mRoom [] && !s.doneBusy db.toNat
  | .kdef u cnt _ _ a sel =>
    s.taintQuiet (orT ((List.range (cnt.toNat + 1)).map (fun i => (s.ctx.kdefSrc u a i).2)) ||| (s.ctx.rdSel u sel).2)
  | .ktake _ _ _ _ _ => s.taintQuiet 0
  | .sld _ _ => s.taintQuiet 0
  | .ksetLc _ a b =>
    s.taintQuiet ((s.ctx.rdKc a).2 ||| (s.ctx.rdKx b).2)
  | .kcopy _ db _ _ => s.cardRoom db
  | .kfill _ db _ => s.cardRoom db
  | .kmc j db _ _ _ => s.cardRoom db && s.taintQuiet (s.ctx.kj j).2
  | .kcoll _ db _ _ _ _ => s.cardRoom db
  | _ => true

/-- Entries that a bundle pops of one queue. -/
def popCountOf (l : List (DUnit × Nat)) (u : DUnit) : Nat := l.foldl (fun n p => if p.1 = u then n + p.2 else n) 0

def dUnits : List DUnit := [.a, .i, .va, .vb]

/-- Ready in every respect but the fullness of the sources (R18, R24). -/
def State.readyButSources (s : State) (ws : List Instr) : Bool :=
  let is := ws.map wordInfo
  let lqs := is.flatMap (·.lqs)
  let sqs := is.flatMap (·.sqs)
  (is.flatMap (·.dests)).all s.ctx.isFull && ws.all s.wordReady &&
  dUnits.all (fun u =>
    decide (popCountOf lqs u ≤ (s.ctx.lq u).length) &&
    ((s.ctx.lq u).take (popCountOf lqs u)).all (fun e => e.data.isSome) &&
    decide (popCountOf sqs u ≤ (s.ctx.sq u).length))

/-- The unit of the first word that reads an empty entry at level 01 (R24). -/
def State.emptyRead (s : State) (ws : List Instr) : Option UnitId :=
  (ws.find? (fun i => (wordInfo i).reads.any (fun (r : RegRef × Bool) => r.2 && !s.ctx.isFull r.1))).map wordUnit

/-- Whether every level-00 source is full. -/
def State.sourcesFull (s : State) (ws : List Instr) : Bool :=
  ws.all (fun i => (wordInfo i).reads.all (fun (r : RegRef × Bool) => r.2 || s.ctx.isFull r.1))

/-- Registers read at level 00 (R42). -/
def levelZero (ws : List Instr) : List RegRef :=
  (ws.flatMap (fun i => (wordInfo i).reads)).filterMap (fun (r : RegRef × Bool) => if r.2 then none else some r.1)

/-- Bank reads of a bundle (R31): the same entry counts once. -/
def bankReads (ws : List Instr) : Nat := ((ws.flatMap (fun i => (wordInfo i).reads)).map (·.1)).eraseDups.length

/-- Units of a bundle's words that are not nops (R14, R19). -/
def bundleUnits (ws : List Instr) : List UnitId := (ws.filter (fun i => !isNop i)).map wordUnit

end Sys2Proof.Machine
end

