-- ==== Sys2Proof/Machine/Fetch.lean ====
section
/-! DEFINITION. Fetching a bundle: code blocks with their tags, framing, decoding (R13 to R16, R73 to R78). -/

namespace Sys2Proof.Machine

open Sys2Proof

/-- Whether a fill of block `n` of the current context's segment must wait: its home is shed, its holder does not answer, or
its extent lies in SCM (R238, R369, R394). -/
def State.codeOut (s : State) (n : Nat) : Bool :=
  let p := s.ctx.place
  let a := p.segBase + 1024 * n
  match s.entryOfMap p.segMap with
  | some e => s.homeShed e a 1024 || (extentsOf a 1024).any (fun x =>
      match s.extent p.segMap x with
      | some y => y.state != .absent && s.extentHolds p.segMap x
      | none => false)
  | none => false

/-- Whether the fetch of the next bundle waits for its block. -/
def State.codeHeld (s : State) : Bool :=
  let p := s.ctx.place
  let n := s.ctx.pc / 1024
  decide (s.ctx.pc % 4 = 0) && decide (s.ctx.pc < p.segBlocks * 1024) &&
  !s.core.istore.any (fun b => b.map == p.segMap && b.base == p.segBase && b.num == n) && s.codeOut n

/-- The words of a block to issue from: the filled copy, or a fill. Where the block has changed since its fill, or the launch
has stored to it, the old copy or a fresh fill, where its home is in reach, serves, by a free choice (R78).
(DEDUCED, log 79.) -/
def State.fetchBlock (s : State) (n : Nat) : State × Option (List (BitVec 32)) :=
  let p := s.ctx.place
  match s.core.istore.find? (fun b => b.map == p.segMap && b.base == p.segBase && b.num == n) with
  | none => s.fillBlock p n
  | some b =>
    if !s.isStained p n && b.words == s.homeBlock p n then (s, some b.words)
    else
      let (d, s1) := s.draw
      if Config.freeBool d || s.codeOut n then (s1, some b.words) else s1.fillBlock p n

/-- Words from an offset until the stop bit, at most `fuel` (R13). -/
def takeBundle : Nat → List (BitVec 32) → Option (List (BitVec 32))
  | 0, _ => none
  | _ + 1, [] => none
  | fuel + 1, w :: r => if stopBit w then some [w] else (takeBundle fuel r).map (w :: ·)

/-- Whether unit codes rise strictly (R13). -/
def unitsRise : List Nat → Bool
  | [] => true
  | [_] => true
  | a :: b :: r => decide (a < b) && unitsRise (b :: r)

def unitField (w : BitVec 32) : BitVec 3 := w.extractLsb' 28 3

/-- Whether a decoding failed on a reserved opcode (check 6 of R16). -/
def badOpcode (w : BitVec 32) : Bool :=
  match decodeWord w with
  | .error .reservedOpcode => true
  | .error .reservedField => false
  | .ok _ => false

/-- Whether a decoding failed on a field (check 7 of R16). -/
def badField (w : BitVec 32) : Bool :=
  match decodeWord w with
  | .error .reservedField => true
  | .error .reservedOpcode => false
  | .ok _ => false

def decoded (w : BitVec 32) : Option Instr :=
  match decodeWord w with
  | .ok i => some i
  | .error _ => none

/-- Checks 3 to 7 of R16 on the words of a block from an offset: the bundle's instructions, or the trap's cause and
unit. -/
def frameBundle (ws : List (BitVec 32)) : Except (Cause × UnitId) (List Instr) :=
  match takeBundle 8 ws with
  | none => .error (.bundle, .C)
  | some b =>
    if b.length < 4 then .error (.bundle, .C)
    else if !unitsRise (b.map (fun w => (unitField w).toNat)) then .error (.bundle, .C)
    else
      match b.find? badOpcode with
      | some w => .error (.illegal, UnitId.ofCode (unitField w))
      | none =>
        match b.find? badField with
        | some w => .error (.illegal, UnitId.ofCode (unitField w))
        | none => .ok (b.filterMap decoded)

/-- The next bundle of the current context: its instructions in unit order, or the trap of R16, R76 or R77. -/
def State.fetchBundle (s : State) : State × Except TrapInfo (List Instr) :=
  let c := s.ctx
  if c.pc % 4 ≠ 0 then (s, .error (c.trapInfo .align .C))
  else if c.place.segBlocks * 1024 ≤ c.pc then (s, .error (c.trapInfo .auth .C))
  else
    match s.fetchBlock (c.pc / 1024) with
    | (s1, none) => (s1, .error (c.trapInfo .auth .C))
    | (s1, some ws) =>
      if 1008 ≤ c.pc % 1024 then (s1, .error (c.trapInfo .bundle .C))
      else
        match frameBundle (ws.drop (c.pc % 1024 / 4)) with
        | .error (cause, u) => (s1, .error (c.trapInfo cause u))
        | .ok is => (s1, .ok is)

/-! ### Placing one instruction -/

/-- The nop word of a unit (R14). -/
def nopWord (u : Nat) : BitVec 32 := BitVec.ofNat 32 (u * 2 ^ 28)

/-- The four words of the smallest bundle that holds a word: nops of three other units around it, the stop bit on the
last (R13). -/
def bundleAround (w : BitVec 32) : List (BitVec 32) :=
  let u := (unitField w).toNat
  let three := ((List.range 8).filter (fun v => v != u)).take 3
  let ws := (three.filter (fun v => decide (v < u))).map nopWord ++ [clearStop w] ++
    (three.filter (fun v => decide (u < v))).map nopWord
  ws.take 3 ++ (ws.drop 3).map (fun x => x ||| 0x80000000)

/-- The current context set running at bundle address 0 of a segment of one block at `segMap`, with the bundle around a
word as its first bundle, in memory and in the core's filled copy; nothing pending, no wait. -/
def State.placeWord (s : State) (w : BitVec 32) : State :=
  let p := { s.ctx.place with segBase := 0, segBlocks := max 1 s.ctx.place.segBlocks }
  let bs := (bundleAround w).flatMap (fun x => natToBytes 4 x.toNat)
  let s1 := s.memWrite p.segMap 0 bs
  let s2 := s1.onCtx (fun c => { c with
    phase := .running, pc := 0, wait := .clear, ports := [], place := p
    mem := { c.mem with outs := c.mem.outs.filter (fun x => !x.hold) } })
  let rest := s2.core.istore.filter (fun b => !(b.map == p.segMap && b.base == 0 && b.num == 0))
  { s2 with
    launches := s2.launches.map (fun (l : Launch) => { l with stained := [] })
    core := { s2.core with istore := rest ++ [⟨p.segMap, 0, 0, s2.homeBlock p 0⟩]
                           cyc := { primIssued := false, bubble := false, units := [], reads := 0 } }
    clus := { s2.clus with shed := false, pattern := 0xFFFF }
    power := { s2.power with phase := .on }
    agenda := [], acted := false }

end Sys2Proof.Machine
end

