-- ==== Sys2Proof/Machine/Issue.lean ====
section
/-! DEFINITION. Issuing a bundle: the waits between bundles, the checks, readiness, meld and the droop governor, running
the words in unit order, and the end of the bundle (R16 to R19, R24, R27, R29, R31, R32, R91, R95, R105, R106, R287, R292,
R320, R324, R325, R327). -/

namespace Sys2Proof.Machine

open Sys2Proof

/-! ### Waits between bundles -/

def PowerPhase.isOn : PowerPhase → Bool
  | .on => true | .hib _ => false | .off => false | .restart _ => false

/-- Whether the current context's core delivers it a cycle now: the context runs, the module is on, the cluster is not
shed, and the pulse-swallowing pattern delivers this slot (R319, R320). -/
def State.delivered (s : State) : Bool :=
  s.ctx.phase.isRunning && s.power.phase.isOn && !s.clus.shed && s.clus.pattern.getLsbD (s.cycle % 16)

/-- A delivered cycle without an issued bundle (R320); nothing counts while a stack is shed (R396). -/
def State.stall (s : State) : State :=
  if s.power.shed.isEmpty then s.onCtx (fun c => { c with st := { c.st with hang := c.st.hang + 1 } }) else s

/-- Whether the generation that a `bar` waits for has closed (R292). -/
def State.barClosed (s : State) (launch : Bool) (b gen : Nat) : Bool :=
  match s.curLaunch with
  | some l => (vget (l.barsAt launch s.ctx.place.clord) b Barrier.zero).gen != gen
  | none => true

/-- One cycle of the current context's wait: whether it still holds the next bundle, and the state after it. A closed barrier
acquires at its scope (R292), as a fence that takes effect once the loads before it have performed (R272). -/
def State.settleWait (s : State) : State × Bool :=
  let w := s.ctx.wait
  let n := if s.peerOccupied then w.yield else 0
  let shut := w.bar.any (fun b => !s.barClosed b.launch b.b b.gen)
  let s1 := s.onCtx (fun c => { c with wait := { w with yield := n - 1, bar := if shut then w.bar else none } })
  (match w.bar with
   | some b =>
     if shut then s1
     else s1.append { s.ctx.access (.fence none) .C 0 0 with
       addrTaint := 0, acq := some (if b.launch then .pk else .cl) } false false
   | none => s1, n != 0 || shut || w.crev.isSome)

/-- Whether an access holds the context: on an extent or a logged sector, or a `spawn` that found no slot (R238, R240,
R286). -/
def State.accessHolds (s : State) : Bool := (s.ctx.mem.outs ++ s.ctx.mem.slog).any (fun x => x.hold)

/-! ### The words of a bundle (R91, R95) -/

/-- The words act in ascending unit order until one traps, each after the accesses that must perform before it.
(DEDUCED, log 3.) -/
def runWords : List Instr → State → Out
  | [], s => .next s
  | i :: r, s =>
    match exec i (s.arrayTurn i) with
    | .next t => if t.ctx.bun.trap.isSome then .next t else runWords r t
    | .fault f => .fault f
    | .refused x => .refused x

/-! ### The end of an issued bundle -/

/-- A context whose continuation ended in this bundle, or that froze (R106, R287, R337). (DEDUCED, log 82.) -/
def Ctx.afterEnd (c : Ctx) : Ctx :=
  match c.phase with
  | .ended => c.endCtx .ended
  | .waiting =>
    let z := Ctx.create c.place
    { z with phase := .waiting, wait := { CtxWait.clear with crev := c.wait.crev }
             mem := { z.mem with outs := c.mem.outs.filter (fun x => !x.isLoad), slog := c.mem.slog,
                                 mq := c.mem.mq, aseq := c.mem.aseq } }
  | .frozen => { c with due := [], mem := { c.mem with outs := c.mem.outs.filter (fun x => !x.isLoad), pend := [] } }
  | .vacant => c
  | .running => c
  | .stopped => c

/-- The counts of one issued bundle (R27, R29, R33): the entries of its mode age and the expired ones become visible;
after a return from the handler the handler's own entries do at once. -/
def Ctx.afterIssue (c : Ctx) : Ctx :=
  let c1 := { c with
    path := c.bun.path, pc := c.bun.next.getD c.bun.seqNext, bubblesLeft := 0
    st := { c.st with rm := c.bun.rm, bundles := c.st.bundles + 1, hang := 0 } }
  let c2 := (c1.ageDue c1.bun.hand).landExpired
  if c2.bun.hand && !c2.handler then c2.landHandler else c2

/-- The cycle record after the current context issues (R19, R32): a secondary's bubbles start again. -/
def State.noteIssue (s : State) (units : List UnitId) (reads : Nat) : State :=
  let s1 := { s with core := { s.core with cyc := { s.core.cyc with
    primIssued := s.ctx.place.prim || s.core.cyc.primIssued, units := units, reads := reads } } }
  if s.ctx.place.prim then
    s1.mapCtx (fun c => c.place.cluster == s.ctx.place.cluster && c.place.core == s.ctx.place.core &&
      c.place.slot != s.ctx.place.slot) (fun c => { c with bubblesLeft := 0 })
  else s1

/-- The bundle has issued whole: its effects on control, then SWTRAP, then the end of a continuation. -/
def State.commit (s : State) (ws : List Instr) : State :=
  let s0 := s.testDue (fun e => e.hand == s.ctx.bun.hand && decide (e.rem ≤ 1))
  let s1 := (s0.onCtx Ctx.afterIssue).noteIssue (bundleUnits ws) (bankReads ws)
  let s2 := s1.modLaunch s1.ctx.place.launch (fun l =>
    { l with first := match l.first with
        | none => some s1.ticks
        | some t => some t })
  let s3 := match s2.ctx.bun.post with
    | some i => s2.takeTrap i
    | none => if s2.ctx.phase == Phase.frozen then s2.freeze else s2
  match s3.ctx.phase with
  | .ended => (s3.onCtx Ctx.afterEnd).endedWithJob
  | .waiting => (s3.onCtx Ctx.afterEnd).endedWithJob
  | .frozen => s3.onCtx Ctx.afterEnd
  | .running => s3
  | .vacant => s3
  | .stopped => s3

/-- The words of a bundle run: the flags of the sources it reads join sy.fflags (R42) and its accumulator starts anew. -/
def State.runBundle (s : State) (ws : List Instr) : Out :=
  runWords ws (s.onCtx (fun c =>
    let c1 := c.takeLoose (levelZero ws)
    { c1 with bun := c1.freshBun (seqSucc c1.pc ws.length) }))

/-- Whether the side log holds the entries that a bundle would add (R18, R240): a bundle adds fewer than 8. A bundle with a
word that reads or writes the own array waits as well until what is before that word has performed (R164, R262). -/
def State.logHolds (s : State) (ws : List Instr) : Bool :=
  (decide (s.ctx.mem.slog.length ≤ 24) && ws.all (fun i => (s.arrayTouch i).isNone)) ||
  (match s.runBundle ws with
   | .next t => !t.ctx.bun.late && (t.ctx.bun.trap.isSome || decide (t.ctx.mem.slog.length ≤ 32))
   | .fault _ => true
   | .refused _ => true)

/-- The extents that the accesses of a late bundle reach begin to come in, as those of issued accesses do (R238). -/
def State.askExtents (s : State) (ws : List Instr) : State :=
  match s.runBundle ws with
  | .next t =>
    if t.ctx.bun.late then
      (t.ctx.mem.outs.filter (fun x => decide (s.ctx.mem.aseq ≤ x.seq))).foldl (fun (s : State) x =>
        match x.loc, x.ent with
        | .mem map, some e => (x.pieces.flatMap (fun (p : Piece) => extentsOf p.addr x.size)).foldl (fun (s : State) n =>
            match s.extent map n with
            | none => s.allocFrame e n
            | some y => if y.state == .absent then s.allocFrame e n else if y.state == .scm then s.startIn y else s) s
        | .mem _, none => s
        | .loc _, _ => s) s
    else s
  | .fault _ => s
  | .refused _ => s

/-- A ready bundle issues: a word that traps undoes it (R95), and it has taken its units and reads for this cycle (R19). -/
def State.issue (s : State) (ws : List Instr) : Out :=
  match s.runBundle ws with
  | .fault f => .fault f
  | .refused x => .refused x
  | .next t =>
    match t.ctx.bun.trap with
    | some i => .next (({ s with draws := t.draws }.stall.takeTrap i).noteIssue (bundleUnits ws) (bankReads ws))
    | none => .next (t.commit ws)

/-! ### Meld and the droop governor (R19, R31, R32) -/

/-- The droop cap of a core: 16, 12 or 8. -/
def Core.dropCap (k : Core) : Nat := if k.cap = 0 then 16 else k.cap

def allUnits : List UnitId := [.C, .A, .I, .VA, .VB, .M, .K, .S]

/-- A ready bundle of a secondary is denied in a bubble cycle of the primary, and beside its issued bundle on a unit or the
cap; any other waits out its bubble cycles and issues. (DEDUCED, log 84.) -/
def State.meld (s : State) (ws : List Instr) : Out :=
  let n := bankReads ws
  let cap := s.core.dropCap
  if !s.ctx.place.prim && s.core.cyc.primIssued then
    if !s.core.cyc.bubble && (bundleUnits ws).all (fun u => !s.core.cyc.units.contains u) &&
        decide (s.core.cyc.reads + n ≤ cap) then s.issue ws
    else .next (s.onCtx (fun c => { c with st := { c.st with melddeny := c.st.melddeny + 1 } }))
  else if s.ctx.bubblesLeft < ceilDiv n cap - 1 then
    let s1 := s.stall.onCtx (fun c => { c with
      bubblesLeft := c.bubblesLeft + 1, st := { c.st with bubbles := c.st.bubbles + 1 } })
    .next (if s.ctx.place.prim then
      { s1 with core := { s1.core with cyc := { primIssued := true, bubble := true, units := allUnits, reads := cap } } } else s1)
  else s.issue ws

/-- A `crev` that waits for GFLOOR starts a sweep (R339). -/
def State.askSweep (s : State) (ws : List Instr) : State :=
  if ws.any (fun i => match i with
    | .crev _ a => s.crevWaits a
    | _ => false) then s.startSweep else s

/-- A bundle that is ready but for its level-00 sources traps EMPTY (R24); one ready whole has taken its units and reads for
this cycle (R19). -/
def State.trapEmpty (s : State) (ws : List Instr) (u : UnitId) : State :=
  let t := s.stall.takeTrap (s.ctx.trapInfo .empty u)
  if s.sourcesFull ws then t.noteIssue (bundleUnits ws) (bankReads ws) else t

/-- The current context's turn in a delivered cycle: a pending fault at the boundary, the checks of R16, readiness, the
EMPTY test, then issue (R18, R24, R324, R325). (DEDUCED, log 81.) -/
def State.turn (s : State) : Out :=
  if s.delivered then
    match s.ctx.nextFault with
    | some _ => execAsyncFaultTaken s.settleWait.1.stall
    | none =>
      let (s1, waits) := s.holdSpawns.settleWait
      if waits || s1.accessHolds || s1.codeHeld then .next s1.stall
      else
        match s1.fetchBundle with
        | (s2, .error i) => .next (s2.stall.takeTrap i)
        | (s2, .ok ws) =>
          if s2.readyButSources ws && s2.logHolds ws then
            match s2.emptyRead ws with
            | some u => .next (s2.trapEmpty ws u)
            | none => if s2.sourcesFull ws then s2.meld ws else .next s2.stall
          else .next ((s2.askSweep ws).askExtents ws).stall
  else .next s

end Sys2Proof.Machine
end

