-- ==== Sys2Proof/Machine/Sched.lean ====
section
/-! DEFINITION. Which event comes next: the events that may happen for the current context, its core and its cluster, a
free choice among them, and the rotation over contexts and cycles (R9, R17, R19, R259, R316). -/

namespace Sys2Proof.Machine

open Sys2Proof

/-! ### Events that may happen now -/

/-- An event as its meaning. -/
abbrev Ev := State → Out

/-- Accesses of the current context that may perform. -/
def State.accessEvents (s : State) : List Ev :=
  ((List.range s.ctx.mem.outs.length).zip s.ctx.mem.outs).filterMap (fun (p : Nat × Access) =>
    if p.2.op.isFence || !s.canPerform p.2 then none
    else if p.2.isSpawn then some (execSpawnPerform p.1)
    else if p.2.isJoin then some (execJoinPerform p.1)
    else if p.2.isLoad then p.2.id.map execLoadPerform
    else some (execStorePerform p.1))

/-- The side log's head, results in flight, translates. (DEDUCED, log 78.) -/
def State.resultEvents (s : State) : List Ev :=
  (match s.ctx.mem.slog with
   | [] => []
   | x :: _ => if s.canPerform x then [execSideLogReplay] else []) ++
  (List.range s.ctx.mem.pend.length).map execFullEmptyResultArrive ++
  ((List.range s.ctx.mem.xlats.length).zip s.ctx.mem.xlats).filterMap (fun (p : Nat × XlatWait) =>
    if s.extentHolds p.2.pin.map p.2.pin.ext then none else some (execXlatHandleFill p.1))

/-- Extents that accesses, translates, cards or the fetch wait for. -/
def State.wantedExtents (s : State) : List (Nat × Nat) :=
  let ofAcc := fun (x : Access) =>
    match x.loc with
    | .mem map => x.pieces.flatMap (fun (p : Piece) => (extentsOf p.addr x.size).map (fun e => (map, e)))
    | .loc _ => []
  ((s.ctx.mem.outs ++ s.ctx.mem.slog).flatMap ofAcc ++ s.ctx.mem.xlats.map (fun x => (x.pin.map, x.pin.ext)) ++
    (s.core.cards.flatMap Card.ranges).flatMap (fun (r : BufEntry × Nat × Nat) =>
      if r.1.isLocal then [] else (extentsOf r.2.1 r.2.2).map (fun e => (r.1.extmap, e))) ++
    (if s.ctx.phase.isRunning && s.codeHeld then
      (extentsOf (s.ctx.place.segBase + 1024 * (s.ctx.pc / 1024)) 1024).map (fun e => (s.ctx.place.segMap, e)) else [])).eraseDups

/-- What brings extents in: frames are allocated for them, where they are free, and they arrive. -/
def State.bringEvents (s : State) (l : List (Nat × Nat)) : List Ev :=
  l.filterMap (fun (p : Nat × Nat) =>
    match s.allocated p.1 p.2 with
    | some f =>
      if f.clean then some (execExtentResident p.1 p.2) else none
    | none =>
      match s.extent p.1 p.2 with
      | none => some (execExtentFirstTouch p.1 p.2)
      | some e =>
        match e.state with
        | .absent => some (execExtentFirstTouch p.1 p.2)
        | .scm => some (execExtentMigrate p.1 p.2 true)
        | .hbm => none
        | .remote => none)

def State.extentEvents (s : State) : List Ev := s.bringEvents s.wantedExtents

def CardKind.isColl : CardKind → Bool
  | .coll _ _ _ _ _ => true | .copy _ => false | .fill => false | .mcast _ _ => false

/-- What a started card may do: write the next sector of a destination, stop one, or complete. -/
def State.movingEvents (s : State) (k : Nat) (c : Card) : List Ev :=
  if c.kind.isColl || s.cardHeld c then []
  else
    (if c.open_.any (s.destHeld c) then [] else [execCardComplete k]) ++
    c.open_.flatMap (fun i =>
      (if s.destHeld c i then [] else [execCardMove k i]) ++
      (match c.kind with
       | .mcast _ _ => if s.destCause c i = 0 then [] else [execKmcDestStop k i (s.destCause c i)]
       | .copy _ => [] | .fill => [] | .coll _ _ _ _ _ => []))

/-- Cards that may start, write their next sector, stop or complete. (DEDUCED, log 23.) -/
def State.cardEvents (s : State) : List Ev :=
  (List.range s.core.cards.length).flatMap (fun k =>
    match s.core.cards[k]? with
    | none => []
    | some c => if c.started then s.movingEvents k c else if s.cardReady k && !s.cardHeld c then [execCardStart k] else [])

/-- A line of the cluster cache whose home is in reach goes home and leaves the caches, or goes home and stays, and a line
leaves the L1 of the current core, an L2 or a memory-side cache: no rule says when (R3, R261, R268).
(DESIGN CHOICE, log 12.) -/
def State.evictEvents (s : State) : List Ev :=
  (s.clus.lines.filter s.lineReach).flatMap (fun (x : Line) =>
    [fun (t : State) => Host.Outcome.next (t.evictLine x.map x.line),
     fun (t : State) => Host.Outcome.next (t.homeFlush x.map (x.line * lineBytes) lineBytes)]) ++
  s.core.l1.map (fun (x : Line) => fun (t : State) => Host.Outcome.next
    { t with core := { t.core with l1 := t.core.l1.filter (fun y => !(y.map == x.map && y.line == x.line)) } }) ++
  s.l2.map (fun p => fun (t : State) => Host.Outcome.next { t with l2 := t.l2.filter (fun q => q != p) }) ++
  s.msc.map (fun p => fun (t : State) => Host.Outcome.next { t with msc := t.msc.filter (fun q => q != p) })

/-- The depth of the link queue to the holder of an extent: the extents on their way from it. -/
def State.linkQueue (s : State) (e : Extent) : Nat :=
  (s.exts.filter (fun (x : Extent) => x.mig && x.state == e.state && x.peer == e.peer)).length

/-- An extent away from HBM that the cost rule brings in starts to come, and one that is on its way arrives (R241). -/
def State.inward (s : State) (e : Extent) (few : Bool) : List Ev :=
  if e.mig then (if (s.allocated e.map e.ext).any (fun f => f.clean) then [execExtentResident e.map e.ext] else [])
  else if s.linkQueue e * s.mgmt.wlink + (if few then s.mgmt.pfull else 0) < e.counter * s.mgmt.wacc then
    [execExtentMigrate e.map e.ext true]
  else []

/-- Migrations by the cost rule (R241). (DEDUCED, log 29.) -/
def State.migrateEvents (s : State) : List Ev :=
  let few := decide (s.freeFrames < s.mgmt.fmin)
  s.exts.flatMap (fun (e : Extent) =>
    match e.state with
    | .hbm => if few && s.movable e then [execExtentMigrate e.map e.ext false] else []
    | .scm => s.inward e few
    | .remote => s.inward e few
    | .absent => [])

/-- The array, `crev`, the pool, faults of ended contexts. -/
def State.ctxEvents (s : State) : List Ev :=
  (if s.ctx.mRunning then [execMOpEnd, fun t => .next t.mRunOn] else []) ++ (if s.mStarts then [execMOpStart] else []) ++
  (if s.ctx.wait.crev.isSome then [execCrevComplete] else []) ++
  (if s.dumpReady then [fun t => .next t.writeDump] else []) ++
  (if s.ctx.phase.isWaiting then [execPoolHandover] else []) ++
  (if s.ctx.phase.isOver && !s.ctx.ports.isEmpty then [execAsyncFaultTaken] else [])

/-- An event of another core. -/
def Ev.on (e : Ev) (k : Core) : Ev := fun s =>
  match e (s.focus k.cluster k.num) with
  | .next t => .next (t.focus s.core.cluster s.core.num)
  | .fault f => .fault f
  | .refused x => .refused x

/-- The sweep's next steps: the pause of a core, a visit of its places or of memory, the end (R343 to R345). -/
def State.sweepEvents (s : State) : List Ev :=
  if s.sweep.active then
    (s.core :: s.cores).flatMap (fun (k : Core) =>
      (if s.sweep.paused.contains (k.cluster, k.num) then [] else [Ev.on execSweepCorePause k]) ++
      ((s.focus k.cluster k.num).coreVisit.toList.map (fun p => Ev.on (execSweepVisit p) k))) ++
    s.homeVisit.toList.map execSweepVisit ++ (if s.sweepDone then [execSweepComplete] else [])
  else if s.spaces.any (fun sp => sp.entries.any (fun (p : Nat × BufEntry) => p.2.valid && p.2.wantsSweep)) then
    [execSweepStart]
  else []

/-! ### Events of the device -/

/-- Whether a stream's standing record stops other launches (R332). -/
def State.preempts (s : State) (n : Nat) : Bool :=
  match s.headCmd n with
  | some (.launch r) =>
    (match s.planHead n r with
     | .stop _ => s.noHigher (s.streamOf n).level
     | .refuse _ => false
     | .wait => false
     | .start _ _ _ => false)
  | some (.graph _ _ _ _) => false
  | some (.wait _ _ _ _) => false
  | some (.signal _ _ _ _ _) => false
  | some .fence => false
  | some .bad => false
  | none => false

/-- What the engine may do for a stream: take its head record, stop launches for it, end its WAIT. -/
def State.streamEvents (s : State) (n : Nat) : List Ev :=
  (if s.mayServe n then
    match s.headRecord n with
    | none => []
    | some r =>
      (match recBytes r 0 1 with
       | 2 => [execGraph n]
       | 3 => [execWaitRecord n]
       | 4 => [execSignal n]
       | 5 => [execFenceRecord n]
       | _ => [execLaunch n])
  else if (s.touchWaiting n).verified != s.verified || (s.touchWaiting n).streams != s.streams then [execLaunch n]
  else []) ++
  (if s.preempts n then [execPreemption n] else []) ++ (if s.waitDone n then [execWaitRecheck n] else [])

/-- What may happen to a launch: its end, the end of its abort (its limits strike as a cycle ends, see endCycle). -/
def State.launchEvents (s : State) (l : Launch) : List Ev :=
  (if s.launchOver l || s.unfit l then [execLaunchEnd l.id] else []) ++ (if s.abortDue l then [execAbortTimeout l.id] else [])

/-- Nodes of graphs that may start. -/
def State.graphEvents (s : State) (g : Graph) : List Ev :=
  (g.nodes.filter (fun (x : GNode) => x.state == .pending && g.nodeReady x.num)).filterMap (fun (x : GNode) =>
    match s.planNode g x with
    | .refuse _ => some (execGraphNodeStart g.id x.num)
    | .start _ _ _ => some (execGraphNodeStart g.id x.num)
    | .wait =>
      if s.tdiOpen g.stream && s.ljFree && (s.touchRecord g.stream x.lrec).verified != s.verified then
        some (execGraphNodeStart g.id x.num)
      else none
    | .stop _ => none)

/-- The save of the current context, where a stop has been requested of it. -/
def State.stopEvents (s : State) : List Ev :=
  if s.ctx.phase.resident && s.savable then
    ([StopCode.preempt, .pwrf, .brown].filter (fun c => s.stopRequested s.ctx c)).map execContextStop
  else []

/-- Saved contexts that may come back, and the extents that they pin, which come in before (R242). -/
def State.resumeEvents (s : State) : List Ev :=
  s.bringEvents ((s.allCtx.filter (fun c => c.phase.isStopped)).flatMap s.pinsOut).eraseDups ++
  (s.allCtx.filter (fun c => c.phase.isStopped && s.resumable c)).map (fun c =>
    execContextResume c.place.launch c.place.clord c.place.core c.place.slot)

/-- Cards left on cores where no context takes turns, and whose compute die has power (R394). -/
def State.orphanEvents (s : State) : List Ev :=
  (s.cores.filter (fun (k : Core) => !k.cards.isEmpty && !s.allCtx.any (fun c => c.place.cluster == k.cluster &&
    c.place.core == k.num && c.phase.resident) && !(s.findCluster k.cluster).shed)).flatMap (fun (k : Core) =>
      let t := s.focus k.cluster k.num
      (t.cardEvents ++ t.extentEvents).map (fun (e : Ev) => e.on k))

/-- Jobs of groups that may complete or fault. -/
def State.collEvents (s : State) : List Ev :=
  s.coll.flatMap (fun (j : CollJob) =>
    (if s.jobWrites j.gid || s.jobDone j.gid then [execCollJobComplete j.gid] else []) ++ (s.jobCause j.gid).toList.map (execCollJobFault j.gid))

/-- Clusters whose pattern is due to change (R408). -/
def State.patternEvents (s : State) : List Ev :=
  if s.cycle % 16 = 0 then
    ((s.clus :: s.clusters).filter (fun (c : Cluster) => patternSlots c.pattern != s.slotsFor c.num)).map (fun (c : Cluster) =>
      execPatternChange c.num (s.slotsFor c.num))
  else []

/-- Limits of time in the journal, in firmware updates, scrub passes, retry windows, and the zeroing of frames. -/
def State.timerEvents (s : State) : List Ev :=
  (match s.journal.openEntry with
   | some e => if e.first + 2 ^ 24 ≤ s.ticks then [execJournalEntryTimeout] else []
   | none => []) ++
  (match s.mgmt.fwNew with
   | some (_, t) => if t + heartbeatTicks ≤ s.ticks then [execFwHeartbeatTimeout] else []
   | none => []) ++
  (s.scrubs.filter (fun (q : ScrubReq) => decide (q.start + s.passTicks q.range ≤ s.ticks))).map (fun (q : ScrubReq) =>
    execScrubrcpt q.range) ++
  (s.patrol.filter (fun k => s.poison.contains k && s.patrolMay k)).map (fun k =>
    execScrubPass (k / 2 ^ 40) (k % 2 ^ 40) (s.keyLocation k).2) ++
  s.parts.flatMap (fun (p : Part) =>
    (match p.migr with
     | some t => if t ≤ s.ticks then [execRetryWindowExpire p.num] else []
     | none => []) ++
    (match p.held with
     | some t => if t ≤ s.ticks then [execReattestWindowExpire p.num] else []
     | none => [])) ++
  (s.zeroing.filter (fun (f : Frame) => !f.clean)).map (fun (f : Frame) => execFrameZeroComplete f.stack f.num)

/-- Events of the device while it is on. -/
def State.deviceEvents (s : State) : List Ev :=
  s.streams.flatMap (fun (st : Stream) => s.streamEvents st.num) ++ s.launches.flatMap s.launchEvents ++
  s.graphs.flatMap s.graphEvents ++ s.resumeEvents ++ s.orphanEvents ++ s.collEvents ++ s.patternEvents ++ s.timerEvents

/-- What must perform before the saves of the power-fail sequence (R383, R387); a `crev` that has issued completes, so what it
waits for goes on (R333). (DEDUCED, log 103.) -/
def State.drainEvents (s : State) : List Ev :=
  if s.allCtx.any (fun c => c.wait.crev.isSome) then
    s.accessEvents ++ s.resultEvents ++ s.extentEvents ++ s.cardEvents ++ s.ctxEvents ++ s.orphanEvents
  else
    ((List.range s.ctx.mem.outs.length).zip s.ctx.mem.outs).filterMap (fun (p : Nat × Access) =>
      if p.2.op.isFence || !s.mustPerform p.2 || !s.canPerform p.2 then none
      else if p.2.isSpawn then some (execSpawnPerform p.1)
      else if p.2.isJoin then some (execJoinPerform p.1)
      else if p.2.isLoad then p.2.id.map execLoadPerform
      else some (execStorePerform p.1)) ++
    (if s.ctx.mRunning then [execMOpEnd] else []) ++ (if s.mStarts then [execMOpStart] else [])

/-- Every event that may happen now. In the power-fail sequence what must perform before the saves does in its phase 1, and
the phases that follow begin once every context is saved (R386); without power, and in the steps of a restart, nothing
does. -/
def State.events (s : State) : List Ev :=
  match s.power.phase with
  | .on =>
    s.accessEvents ++ s.resultEvents ++ s.extentEvents ++ s.cardEvents ++ s.ctxEvents ++ s.sweepEvents ++ s.stopEvents ++
      s.evictEvents ++ s.migrateEvents ++ s.deviceEvents
  | .hib k =>
    if k = 1 then s.drainEvents ++ (if s.hibDrained then [execPwrf s.power.reserve] else [])
    else s.stopEvents ++ (if s.allSaved then [execPwrf s.power.reserve] else [])
  | .off => []
  | .restart _ => []

/-! ### Rotation -/

/-- The place of a context in a cycle: cores in order, the primary of a core before the secondary (R19). -/
def Ctx.key (c : Ctx) : Nat :=
  c.place.cluster * 64 + c.place.core * 4 + (if c.place.prim then 0 else 2) + c.place.slot

/-- Whether a context takes turns. -/
def Phase.turns : Phase → Bool
  | .running => true | .waiting => true | .ended => true | .frozen => true | .vacant => false | .stopped => false

/-- The context with the least key that satisfies a test. -/
def leastCtx (l : List Ctx) (p : Ctx → Bool) : Option Ctx :=
  (l.filter p).foldl (fun m c =>
    match m with
    | none => some c
    | some x => if c.key < x.key then some c else some x) none

/-- A slot whose context has ended and left nothing behind is released (R17, R106). -/
def State.releaseSlot (s : State) : State :=
  let c := s.ctx
  if c.phase == .ended && c.mem.outs.isEmpty && c.mem.slog.isEmpty && c.mem.mq.isEmpty && c.ports.isEmpty &&
      c.wait.crev.isNone then
    { s with core := s.core.orphanCards c }.onCtx (fun c => { c with phase := .vacant })
  else s

/-- A context that stands alone in its core as a cycle begins is primary (R17, R316); of two that came back together
beside none, the one in the lower slot. (DEDUCED, log 93.) -/
def State.settleRoles (s : State) : State :=
  let all := s.allCtx
  s.mapCtx (fun c => c.phase.occupied && all.all (fun d => !c.beside d || (!d.place.prim && decide (c.place.slot < d.place.slot))))
    (fun c => { c with place := { c.place with prim := true } })

/-- Every 2^20 reference ticks the access counters are halved (R241). -/
def State.ageCounters (s : State) : State :=
  if s.cycle % 2 ^ 24 = 0 then { s with exts := s.exts.map (fun e => { e with counter := e.counter / 2 }) } else s

/-- A handle whose extent was resident at its `xlat` is full within 12 cycles (R242). -/
def State.settleXlats (s : State) : State :=
  s.mapCtx (fun c => !c.mem.xlats.isEmpty) (fun c => c.fillXlats (fun w => w.limit.any (fun t => decide (t ≤ s.cycle))))

/-- A new reference tick: which holders of extents answer in it (R369), the samples of a period that has ended (R409), the
passes of the patrol scrub (R415). -/
def State.newTick (s : State) : State :=
  if s.cycle % 16 = 0 then (((s.watchHolders.samplesDue).patrolEnd false).patrolEnd true) else s

/-- A cycle ends and a new one begins; a restart whose launches have all resumed or ended is complete (R399 step 8), and a
region that was shed goes off once nothing runs there (R407). -/
def State.newCycle (s : State) : State :=
  let f := fun (k : Core) => { k with cyc := { primIssued := false, bubble := false, units := [], reads := 0 } }
  let t := s.endCycle.settleWrites.settleRestart.settleRegions.settleRoles.settleXlats
  { t with cycle := s.cycle + 1, core := f t.core, cores := t.cores.map f }.ageCounters.newTick

/-- The next context's turn; after the last one the next cycle, with the roles that it begins with (R17).
(DESIGN CHOICE, log 4.) -/
def State.rotate (s0 : State) : State :=
  let s := { s0.releaseSlot with acted := false }
  let k := s.ctx.key
  match leastCtx s.others (fun c => c.phase.turns && decide (k < c.key)) with
  | some c => s.switchTo c
  | none =>
    let t := s.newCycle
    match leastCtx t.others (fun c => c.phase.turns && (decide (c.key < t.ctx.key) || !t.ctx.phase.turns)) with
    | some c => t.switchTo c
    | none => t

/-- What happens between turns: a fence takes effect, or one of the events that may happen now, or the next turn begins,
by a free choice. (DESIGN CHOICE, log 5.) -/
def State.progress (s : State) : Out :=
  let f := s.settleFence
  if f.ctx.mem.outs.length < s.ctx.mem.outs.length then .next f
  else
    let l := s.events
    if l.isEmpty then .next s.rotate
    else
      let (d, s1) := s.draw
      match l[Config.freeNat d % (l.length + 1)]? with
      | some e => e s1
      | none => .next s1.rotate

end Sys2Proof.Machine
end

