-- ==== Sys2Proof/Machine/Step.lean ====
section
/-! DEFINITION. The step function of the machine, and the placing of an instruction where the next step fetches. -/

namespace Sys2Proof.Machine

open Sys2Proof

/-- One step: an event that the environment has put on the agenda; or the current context's turn; or, after it, what
happens between turns. (DESIGN CHOICE, log 7.) -/
def step (s : State) : Host.Outcome State Fault Refusal :=
  match s.agenda with
  | e :: r => if e.isWord then .next { s with agenda := r } else exec e { s with agenda := r }
  | [] =>
    if s.acted then s.progress
    else
      match s.turn with
      | .next t => .next { t with acted := true }
      | .fault f => .fault f
      | .refused x => .refused x

/-- The machine with the instruction word `w` placed as the first one that the next step runs.
(DESIGN CHOICE, log 8.) -/
def State.withFetchWord (s : State) (nbits w : Nat) : State := s.placeWord (BitVec.ofNat 32 (w % 2 ^ nbits))

end Sys2Proof.Machine
end

