-- ==== Sys2Proof/Safety.lean ====
section
/-! DEFINITION. The terms in which claims about the machine are stated: one byte of memory as the machine reads it, what
stays the same over an instruction, the canonical form of memory, and the value of a floating-point code. -/

namespace Sys2Proof.Safety

open Sys2Proof Sys2Proof.Machine

/-! ### One byte of memory -/

/-- Byte `a` of the buffer whose extent map stands at `map`, at its home (R237, R259). -/
def homeByte (s : State) (map a : Nat) : Byte := Memory.get s.mem (memKey map a)

/-- Byte `o` of the local array of core `n` of the current cluster (R218). -/
def arrayByte (s : State) (n o : Nat) : Byte := Memory.get (s.coreAt n).la o

/-- Byte `a` of a buffer as the current cluster sees it: its cache's copy of the line, else the home (R259, R261). -/
def seenByte (s : State) (map a : Nat) : Byte :=
  match (findLine s.clus.lines map (a / lineBytes)).filter (fun x => (x.sects[a % lineBytes / sectorBytes]?).getD false) with
  | some x => (x.bytes[a % lineBytes]?).getD 0
  | none => homeByte s map a

/-- Every byte of memory reads as before: at its home, through the cluster's cache, and in every local array. -/
def SameBytes (s t : State) : Prop :=
  (∀ map a, homeByte t map a = homeByte s map a) ∧ (∀ map a, seenByte t map a = seenByte s map a) ∧
    (∀ n o, arrayByte t n o = arrayByte s n o)

/-- No word among bytes `o .. o+n-1` of a core's array lies in a live kitty entry of a context that runs there (R296). -/
def NoKitty (s : State) (core o n : Nat) : Prop :=
  ∀ c ∈ s.allCtx, c.phase = .running → c.place.cluster = s.clus.num → c.place.core = core →
    ∀ w, 8 * w < o + n → o < 8 * w + 8 → c.liveWord w = false

/-! ### What an instruction leaves alone -/

/-- Every register file of a context, small files, predicates, latches and the return stack included. -/
def SameFiles (c d : Ctx) : Prop :=
  d.c = c.c ∧ d.a = c.a ∧ d.i = c.i ∧ d.va = c.va ∧ d.vb = c.vb ∧ d.m = c.m ∧ d.k = c.k ∧ d.s = c.s

/-- The system registers and flags of a context, its handler mode, its placement and its path taint sets. -/
def SameSpecial (c d : Ctx) : Prop :=
  d.st = c.st ∧ d.handler = c.handler ∧ d.savedPath = c.savedPath ∧ d.place = c.place ∧ d.phase = c.phase

/-- The accesses, ids, store-data queues, pins and M operations of a context; its load-data queues may be popped. -/
def SameQueues (c d : Ctx) : Prop :=
  d.mem.ids = c.mem.ids ∧ d.mem.outs = c.mem.outs ∧ d.mem.slog = c.mem.slog ∧ d.mem.pend = c.mem.pend ∧
    d.mem.mq = c.mem.mq ∧ d.mem.pins = c.mem.pins ∧ d.mem.xlats = c.mem.xlats ∧
    (∀ u, d.sq u = c.sq u) ∧ (∀ u, ∃ n, d.lq u = (c.lq u).drop n)

/-- Nothing outside the current context changes. -/
def OnlyCtx (s t : State) : Prop := t = s.withCtx t.ctx

/-- The frame of a word whose only result is the exposed write `w`: nothing outside the context, no byte of memory, no
register, flag or special register changes now; one due-queue entry holds the write. -/
def ExposedFrame (s t : State) (isDest : RegWrite → Prop) : Prop :=
  OnlyCtx s t ∧ SameBytes s t ∧ SameFiles s.ctx t.ctx ∧ SameSpecial s.ctx t.ctx ∧ SameQueues s.ctx t.ctx ∧
    ∃ e : DueEntry, t.ctx.due = s.ctx.due ++ [e] ∧ e.hand = s.ctx.bun.hand ∧ e.writes.length = 1 ∧
      ∀ w ∈ e.writes, isDest w

/-- Whether a result goes to register `d` of the i file (or its small file), of the a file, of a vector file, to mask `m`
or to predicate `p`. -/
def toInt (d : BitVec 5) (w : RegWrite) : Prop := ∃ v, w = .int d v
def toAddr (d : BitVec 5) (w : RegWrite) : Prop := ∃ v, w = .addr d v
def toVec (u : VUnit) (d : BitVec 5) (w : RegWrite) : Prop := ∃ v, w = .vec u d v
def toMask (u : VUnit) (m : BitVec 3) (w : RegWrite) : Prop := ∃ v, w = .mask u m v
def toPred (p : BitVec 3) (w : RegWrite) : Prop := ∃ v, w = .pred p v
def toCap (d : BitVec 4) (w : RegWrite) : Prop := ∃ v, w = .cap d v

/-- The unit whose latch a result goes to as it lands, none for a write of predicate 0, a translate handle, and a loop
counter that `lend` counts down (R23, R92, R130, R183). -/
def latchOf : RegWrite → Option UnitId
  | .pred n _ => if n = 0 then none else some .C
  | .loop _ _ latch => if latch then some .C else none
  | .gen _ _ => some .C
  | .addr _ _ => some .A
  | .cap _ _ => some .A
  | .handle _ _ => none
  | .int _ _ => some .I
  | .vec u _ _ => some u.unit
  | .mask u _ _ => some u.unit
  | .wsum u _ _ => some u.unit
  | .wsinc u _ _ _ _ => some u.unit
  | .sd _ _ => some .M
  | .gp _ _ => some .M
  | .kc _ _ => some .K
  | .kx _ _ => some .K
  | .kjWord _ _ _ => some .K
  | .kjSlot _ _ _ => some .K
  | .fmt _ _ => some .S
  | .scale _ _ => some .S

/-! ### Results placed for the current context -/

/-- The state after a word of unit `u` pops `pops` queue entries and places an exposed result of latency `lat`. -/
def exposed (s : State) (u : DUnit) (pops lat : Nat) (w : RegWrite) (t : Taint) (fl : BitVec 5) : State :=
  s.onCtx (fun c => (c.popLq u pops).putDue lat [w] t fl)

/-- The state after a word of unit `u` pops `pops` queue entries and sends a full/empty result on its way. -/
def pended (s : State) (u : DUnit) (pops : Nat) (w : RegWrite) (t : Taint) (fl : BitVec 5) : State :=
  s.onCtx (fun c => (c.popLq u pops).putFE w t fl)

/-- Element `e` of width `w` of a vector. -/
def el (v : V2048) (e w : Nat) : BitVec w := v.extractLsb' (w * e) w

/-! ### The canonical form of memory -/

/-- The canonical form of every memory that outlives a step: home memory, the host's memory and the home memory that a
manifest in the module's store holds. -/
def MemInv (s : State) : Prop :=
  Memory.wf s.mem = true ∧ Memory.wf s.hostMem = true ∧
    (∀ m, s.power.slotA = some m → Memory.wf m.mem = true) ∧ (∀ m, s.power.slotB = some m → Memory.wf m.mem = true)

/-- The canonical form of the arrays of every core (local array and grist), and tag sets that rise strictly: of home memory,
of the local arrays, and of the home memory that a manifest holds. -/
def ArrInv (s : State) : Prop :=
  (∀ k ∈ s.core :: s.cores, Memory.wf k.la = true ∧ Memory.wf k.grist = true ∧ NatSet.wfFrom 0 k.laTags = true) ∧
    NatSet.wfFrom 0 s.memTags = true ∧ (∀ m, s.power.slotA = some m → NatSet.wfFrom 0 m.memTags = true) ∧
    (∀ m, s.power.slotB = some m → NatSet.wfFrom 0 m.memTags = true)

/-- Byte `i` of a number, and the number of `n` bytes from `a` on, little-endian (R8). -/
def byteAt (v i : Nat) : Byte := BitVec.ofNat 8 (v / 256 ^ i)
def numAt (f : Nat → Byte) (a n : Nat) : Nat := bytesToNat ((List.range n).map (fun i => f (a + i)))

/-- A core of the current cluster that the state holds. -/
def HasCore (s : State) (n : Nat) : Prop := n = s.core.num ∨ ∃ k ∈ s.cores, k.cluster = s.clus.num ∧ k.num = n

/-! ### The error journal -/

/-- The error journal after one event of a type from a source: an entry of its own, with COUNT 1, at the time of the event
(R413). -/
def Logged (s t : State) (type : Nat) (src : JSrc) : Prop :=
  ∃ e : JEntry, t.journal.entries = s.journal.close.entries ++ [e] ∧ t.journal.openEntry = none ∧ e.type = type ∧
    e.src = src ∧ e.count = 1 ∧ e.index = s.journal.next ∧ e.first = s.ticks ∧ e.last = s.ticks

/-! ### Floating-point values -/

/-- The rational that a finite value stands for; none for a NaN or an infinity. -/
def ratOf : FVal → Option ℚ
  | .nan _ => none
  | .inf _ => none
  | .fin n m e => some ((if n then -1 else 1) * (m : ℚ) * (2 : ℚ) ^ e)

/-- The rational value of a code of an IEEE format (R37, R38). -/
def codeVal (f : FType) (x : Nat) : Option ℚ := ratOf (unpack f x)

/-- One code's value lies strictly below another's; no NaN does, and the infinities lie outside every finite value. -/
def Below (f : FType) (x y : Nat) : Prop :=
  (∃ v w : ℚ, codeVal f x = some v ∧ codeVal f y = some w ∧ v < w) ∨
  (unpack f x = .inf true ∧ (∃ w : ℚ, codeVal f y = some w)) ∨ (unpack f y = .inf false ∧ ∃ v : ℚ, codeVal f x = some v) ∨
  (unpack f x = .inf true ∧ unpack f y = .inf false)

/-- NV, exactly when one of the codes is a signalling NaN. -/
def nvOf (f : FType) (l : List Nat) : BitVec 5 := if l.any (fun v => (unpack f v).isSnan) then 1 else 0

/-- A pairwise tree over the `2 ^ k` operands from `e` on (R57): the left half combined with the right half, an absent
operand passing the other on, the flags of all combinations joined. -/
def halves (f : Nat → Nat → Nat × BitVec 5) (l : Nat → Option Nat) : Nat → Nat → Option Nat × BitVec 5
  | 0, e => (l e, 0)
  | k + 1, e =>
    let x := halves f l k e
    let y := halves f l k (e + 2 ^ k)
    match x.1, y.1 with
    | some a, some b => (some (f a b).1, x.2 ||| y.2 ||| (f a b).2)
    | some a, none => (some a, x.2 ||| y.2)
    | none, some b => (some b, x.2 ||| y.2)
    | none, none => (none, x.2 ||| y.2)

/-- The value of an element of an integer type, signed or not (R34). -/
def intOf (uns : Bool) (w v : Nat) : Int := if uns then ((v % 2 ^ w : Nat) : Int) else (BitVec.ofNat w v).toInt

/-- An exact integer clamped to a type's range and taken at its width (R35). -/
def clamped (uns : Bool) (w : Nat) (z : Int) : Nat :=
  let lo : Int := if uns then 0 else -(2 : Int) ^ (w - 1)
  let hi : Int := if uns then (2 : Int) ^ w - 1 else (2 : Int) ^ (w - 1) - 1
  (BitVec.ofInt w (max lo (min hi z))).toNat

end Sys2Proof.Safety
end

