-- ==== Sys2Proof/Certificates/Slice0/Obligations.lean ====
section
/-! DEFINITION. The obligations: what the model must be proved to do, each from numbered rules of the spec or from what
the model says of itself. -/

open Sys2Proof Sys2Proof.Machine Sys2Proof.Safety

/-! ### Encoding, the step, reset -/

/-- Every well-formed instruction word reads back as itself, with every operand at every value it admits (R63 to R73). -/
def Obligations.EncodeDecodeRoundTrip : Prop :=
  ∀ i : Instr, i.isWord = true → i.wellFormed = true → decodeWord (encode i) = .ok i

/-- An instruction read from a word is a well-formed instruction word, its own word is the word read but for the stop
bit, and the stop bit does not matter (R13, R64, R73). -/
def Obligations.DecodedWordHasNoOtherReading : Prop :=
  ∀ (w : BitVec 32) (i : Instr), decodeWord w = .ok i →
    i.wellFormed = true ∧ i.isWord = true ∧ encode i = clearStop w ∧ decodeWord (w ||| 0x80000000#32) = .ok i

/-- Words written out field by field from the encoding tables of the spec (stop bit, unit, opcode, then the fields of
formats R, I, L and J of R63 with the roles of each entry), at least one for each unit (R63, R70, R71). -/
def Obligations.WordsFromTheTables : Prop :=
  decodeWord (0#1 ++ 0#3 ++ 0x01#6 ++ 3#3 ++ 1#1 ++ 0x3FFF0#18) = .ok (.bra 3 true 0x3FFF0) ∧
  decodeWord (1#1 ++ 0#3 ++ 0x22#6 ++ 0#22) = .ok .halt ∧
  decodeWord (0#1 ++ 1#3 ++ 0x01#6 ++ 0#3 ++ 8#5 ++ 0b1111111#7 ++ 0b0000001#7) =
    .ok (.aadd 8 (.imm 0x1F) (.main 1 false)) ∧
  decodeWord (0#1 ++ 1#3 ++ 0x20#6 ++ 0b011#3 ++ 0#5 ++ 0b0000010#7 ++ 0b1000110#7) =
    .ok (.ldA ⟨false, .w64⟩ 0 (.main 2 false) .zero) ∧
  decodeWord (0#1 ++ 2#3 ++ 0x01#6 ++ 0b010#3 ++ 20#5 ++ 0b0000010#7 ++ 0b0100101#7) =
    .ok (.add .w32 20 (.main 2 false) (.main 5 true)) ∧
  decodeWord (0#1 ++ 3#3 ++ 0x01#6 ++ 0b110#3 ++ 5#5 ++ 0b1000100#7 ++ 0b1000101#7) =
    .ok (.vadd .va (.fp .s) 5 .latch .queue) ∧
  decodeWord (0#1 ++ 4#3 ++ 0x34#6 ++ 0b001#3 ++ 0b01010#5 ++ 0b0000011#7 ++ 0b0001010#7) =
    .ok (.kdef .vb 1 2 2 (.main 3 false) (.m 2)) ∧
  decodeWord (0#1 ++ 5#3 ++ 0x02#6 ++ 0b001#3 ++ 6#5 ++ 0#14) = .ok (.mzero true 6) ∧
  decodeWord (0#1 ++ 6#3 ++ 0x07#6 ++ 0#3 ++ 37#6 ++ 0#13) = .ok (.kcan 37) ∧
  decodeWord (0#1 ++ 7#3 ++ 0x03#6 ++ 1#5 ++ 0#17) = .ok (.fset 1 false 0) ∧
  decodeWord (0#1 ++ 2#3 ++ 0x3F#6 ++ 0#22) = .error .reservedOpcode ∧
  decodeWord (0#1 ++ 2#3 ++ 0x01#6 ++ 0b110#3 ++ 20#5 ++ 0b0000010#7 ++ 0b0000101#7) = .error .reservedField

/-- The instruction of a bundle that is no nop is what the bundle does: the words around it have no effect, so issuing
the bundle is `exec` of that instruction on the context with its bundle record fresh, then the bundle's end; and a
step of a delivered cycle in which nothing holds the context and nothing denies the bundle is that issue (R13, R14,
R16, R18, R95); a word that reads or writes the own array as it issues comes after the accesses that it must follow
(R164). A bundle in which a word traps takes the trap and nothing else of the bundle: the state before it,
with the number of free values drawn and one more cycle on the hang counter (R320), is the state the trap is taken in
(R95), and the bundle has taken its units and reads for the cycle (R19). -/
def Obligations.StepRunsDecodedInstruction : Prop :=
  ((∀ (s s1 s2 : State) (ws : List Instr),
     s.agenda = [] → s.acted = false → s.delivered = true → s.ctx.nextFault = none →
     s.holdSpawns.settleWait = (s1, false) → s1.accessHolds = false → s1.codeHeld = false →
     s1.fetchBundle = (s2, .ok ws) →
     s2.readyButSources ws = true → s2.emptyRead ws = none → s2.sourcesFull ws = true → s2.logHolds ws = true →
     s2.ctx.place.prim = true → ceilDiv (bankReads ws) s2.core.dropCap ≤ s2.ctx.bubblesLeft + 1 →
     step s = match s2.issue ws with
       | .next t => .next { t with acted := true }
       | .fault f => .fault f
       | .refused x => .refused x) ∧
   (∀ (s : State) (i : Instr) (before after : List UnitId), s.ctx.bun.trap = none →
     runWords (before.map Instr.nop ++ i :: after.map Instr.nop) s = exec i (s.arrayTurn i) ∧
     (s.arrayTouch i = none → s.arrayTurn i = s)) ∧
   (∀ (s t : State) (ws : List Instr),
     runWords ws (s.onCtx (fun c =>
       let c1 := c.takeLoose (levelZero ws)
       { c1 with bun := c1.freshBun (seqSucc c1.pc ws.length) })) = .next t →
     t.ctx.bun.trap = none → s.issue ws = .next (t.commit ws)) ∧
   (∀ (s : State) (e : Instr) (r : List Instr), s.agenda = e :: r → e.isWord = false →
     step s = exec e { s with agenda := r })) ∧
  (∀ (s t : State) (ws : List Instr) (i : TrapInfo),
     runWords ws (s.onCtx (fun c =>
       let c1 := c.takeLoose (levelZero ws)
       { c1 with bun := c1.freshBun (seqSucc c1.pc ws.length) })) = .next t →
     t.ctx.bun.trap = some i → s.issue ws =
       .next ((({ s with draws := t.draws } : State).stall.takeTrap i).noteIssue (bundleUnits ws) (bankReads ws)))

/-- The machine right after reset: no context runs, nothing is listed in memory, no buffer, launch or command, every
predicate, register, tag, taint set and queue of a context created is empty and its register entries full, streams are
disabled, partitions are in CONFIG_UNLOCKED, every cluster slot is enabled, the governor is idle (R20, R31, R33, R301,
R319, R348). Memory, arrays and tag sets are in canonical form. That memory, tables and launches are empty, that streams
are disabled and TDIs unlocked, and that every slot is enabled, are the model's choices (log entries 19, 9 and 17). -/
def Obligations.ResetState : Prop :=
  (State.reset.mem = [] ∧ State.reset.memTags = [] ∧ State.reset.launches = [] ∧ State.reset.spaces = [] ∧
   State.reset.others = [] ∧ State.reset.ctx.phase = .vacant ∧ State.reset.cycle = 0 ∧
   (∀ n, (Stream.blank n).enable = false) ∧ (∀ n, (Part.blank n).tdi = .unlocked) ∧
   (∀ n, (Cluster.blank n).pattern = 0xFFFF) ∧ (∀ c n, (Core.blank c n).dropCap = 16) ∧
   (∀ (p : Place) (n : BitVec 5), n.toNat < 28 → (Ctx.create p).isFull (.a n) = true ∧ (Ctx.create p).isFull (.i n) = true ∧
     (Ctx.create p).rdId n = (0, 0) ∧ (Ctx.create p).rdAd n = (0, 0)) ∧
   (∀ (p : Place) (q : BitVec 3), (Ctx.create p).pred q = (decide (q = 0), 0)) ∧
   (∀ p : Place, (Ctx.create p).st.fflags = 0 ∧ (Ctx.create p).st.rm = 0 ∧ (Ctx.create p).c.depth = 0 ∧
     (Ctx.create p).c.done = 0 ∧ (Ctx.create p).handler = false ∧ (Ctx.create p).due = [])) ∧
  (MemInv State.reset ∧ ArrInv State.reset)

/-- Every step keeps memory in its canonical form: home memory, the host's memory and the memory a manifest holds. The
form is the model's own (log entry on memory); it makes equal memories equal data. -/
def Obligations.StepKeepsMemoryCanonical : Prop :=
  ∀ s t : State, MemInv s → step s = .next t → MemInv t

/-- Every step keeps the arrays of every core in their canonical form and the tag sets strictly rising, those that a
manifest holds included. The form is the model's own (log entry on memory). -/
def Obligations.StepKeepsArraysCanonical : Prop :=
  ∀ s t : State, ArrInv s → step s = .next t → ArrInv t

/-! ### The C unit and traps -/

/-- `bra`, `br`, `call` and `ret` (R96, R98): the predicate's taint set, and a register target's, join the path taint;
taken, the next bundle is the target; `call` pushes the sequential successor and `ret` pops it; not taken, the next
bundle stays as it was. A register target that is no multiple of 4 traps ALIGN, a `call` on a full return stack and a
`ret` on an empty one trap ILLEGAL. -/
def Obligations.TransferResults : Prop :=
  ∀ (p : BitVec 3) (n : Bool) (disp : BitVec 18) (a : Src) (s : State),
  let c := s.ctx
  let taken := (c.pred p).1 != n
  let near := (BitVec.ofNat 32 c.pc + 4#32 * disp.signExtend 32).toNat
  let far := (c.rdC a).1.toNat
  let top : BitVec 32 := BitVec.ofNat 32 c.bun.seqNext
  let through (t : Taint) (next : Option Nat) : Ctx :=
    { c with bun := { c.bun with path := c.bun.path ||| t, next := next, decided := c.bun.decided || taken } }
  exec (.bra p n disp) s = .next (s.withCtx (through (c.pred p).2 (if taken then some near else c.bun.next))) ∧
  (taken = false ∨ far % 4 = 0 → exec (.br p n a) s =
    .next (s.withCtx (through ((c.pred p).2 ||| (c.rdC a).2) (if taken then some far else c.bun.next)))) ∧
  (taken = true → far % 4 ≠ 0 → exec (.br p n a) s = raiseC s .align .C) ∧
  (taken = false → exec (.call p n disp) s = .next (s.withCtx (through (c.pred p).2 c.bun.next)) ∧
    exec (.ret p n) s = .next (s.withCtx (through (c.pred p).2 c.bun.next))) ∧
  (taken = true → c.c.depth ≠ 16 → exec (.call p n disp) s = .next (s.withCtx
    { through (c.pred p).2 (some near) with
      c := { c.c with rstk := c.c.rstk.setIfInBounds c.c.depth top, depth := c.c.depth + 1 } })) ∧
  (taken = true → c.c.depth = 16 → exec (.call p n disp) s = raiseC s .illegal .C) ∧
  (∀ k, taken = true → c.c.depth = k + 1 → exec (.ret p n) s = .next (s.withCtx
    { through (c.pred p).2 (some ((c.c.rstk[k]?).getD 0).toNat) with c := { c.c with depth := k } })) ∧
  (taken = true → c.c.depth = 0 → exec (.ret p n) s = raiseC s .illegal .C)

/-- `lset` and `lend` (R100, R101): `lset` places the low 32 bits of source plus immediate into the counter at latency
1; `lend` adds the counter's taint set to the path taint, leaves a counter of 0 alone, otherwise places the counter
less one and branches while that is not 0. The predicate operations (R96, R102 to R104): each is an exposed result of
latency 1 in predicate D, with the taint sets of what it read; predicate 0 reads 1 and carries no taint. -/
def Obligations.LoopPredicateResults : Prop :=
  (∀ (l : BitVec 2) (a : Src) (imm : BitVec 10) (disp : BitVec 18) (s : State),
   let c := s.ctx
   let e : TV (BitVec 32) := (c.c.l[l.toNat]?).getD ⟨0, 0⟩
   let near := (BitVec.ofNat 32 c.pc + 4#32 * disp.signExtend 32).toNat
   let down : State := s.onCtx (fun c => (c.addPath e.taint).putDue 1 [.loop l (e.val - 1) false] e.taint 0)
   exec (.lset l a imm) s = .next (s.onCtx (fun c =>
     c.putDue 1 [.loop l ((c.rdC a).1.setWidth 32 + imm.signExtend 32) true] (c.rdC a).2 0)) ∧
   (e.val = 0 → exec (.lend l disp) s = .next (s.onCtx (fun c => c.addPath e.taint))) ∧
   (e.val = 1 → exec (.lend l disp) s = .next down) ∧
   (e.val ≠ 0 → e.val ≠ 1 → exec (.lend l disp) s = .next (down.onCtx (fun c =>
     { c with bun := { c.bun with next := some near, decided := true } })))) ∧
  ((∀ (d : BitVec 3) (a b : Src) (k : BitVec 6) (s : State),
     let c := s.ctx
     let put (v : Bool) (t : Taint) : State := s.onCtx (fun c => c.putDue 1 [.pred d v] t 0)
     let x := c.rdP a
     let y := c.rdP b
     let g := c.rdC a
     exec (.pand d a b) s = .next (put (x.1 && y.1) (x.2 ||| y.2)) ∧
     exec (.por d a b) s = .next (put (x.1 || y.1) (x.2 ||| y.2)) ∧
     exec (.pxor d a b) s = .next (put (Bool.xor x.1 y.1) (x.2 ||| y.2)) ∧
     exec (.pnot d a) s = .next (put (!x.1) x.2) ∧
     exec (.pset d a .bit k) s = .next (put (g.1.toNat.testBit k.toNat) g.2) ∧
     exec (.pset d a .z 0) s = .next (put (decide (g.1.toNat = 0)) g.2) ∧
     exec (.pset d a .nz 0) s = .next (put (decide (g.1.toNat ≠ 0)) g.2)) ∧
   (∀ (c : Ctx) (tr : Bool), c.rdP (.main 0 tr) = (true, 0) ∧ c.pred 0 = (true, 0)) ∧
   (∀ (c : Ctx) (v : Bool) (t : Taint), c.putReg (.pred 0 v) t = c ∧ c.putLatch (.pred 0 v) t = c))

/-- The done-bit words (R255 to R257): the tests place a predicate with the taint set of the mask; the waits, once
their bundle issues, add it to the path taint, and `wany.w` of a mask of 0 traps ILLEGAL; `ffd` gives the index of the
lowest set bit under the mask, 64 for none, with an empty taint set; `dclr` clears the masked bits. The end of a cycle
sets the system done bits d60, d61 and d62 where an abort, fewer slots or a brown-out asked for them (R321). -/
def Obligations.DoneBitResults : Prop :=
  ∀ (d : BitVec 3) (a : Src) (s : State),
  let c := s.ctx
  let m := (c.rdC a).1
  let t := (c.rdC a).2
  let hit (k : Nat) : Prop := k < 64 ∧ c.c.done.getLsbD k = true ∧ m.getLsbD k = true
  (∃ v, exec (.wanyTest d a) s = .next (s.onCtx (fun c => c.putDue 1 [.pred d v] t 0)) ∧ (v = true ↔ ∃ k, hit k)) ∧
  (∃ v, exec (.wallTest d a) s = .next (s.onCtx (fun c => c.putDue 1 [.pred d v] t 0)) ∧
    (v = true ↔ ∀ k, k < 64 → m.getLsbD k = true → c.c.done.getLsbD k = true)) ∧
  (m ≠ 0 → exec (.wanyWait a) s = .next (s.onCtx (fun c => c.addPath t))) ∧
  (m = 0 → exec (.wanyWait a) s = raiseC s .illegal .C) ∧
  exec (.wallWait a) s = .next (s.onCtx (fun c => c.addPath t)) ∧
  (∃ r : W64, exec (.ffd d a) s = .next (s.onCtx (fun c => c.putDue 1 [.gen d r] 0 0)) ∧
    (∀ k, hit k → (∀ j, j < k → ¬ hit j) → r.toNat = k) ∧ ((∀ k, ¬ hit k) → r.toNat = 64)) ∧
  (∃ u, exec (.dclr a) s = .next (s.onCtx (fun c => { c with c := { c.c with done := u } })) ∧
    ∀ k, u.getLsbD k = (c.c.done.getLsbD k && !m.getLsbD k)) ∧
  (s.endCycle.notices = [] ∧ ∀ x ∈ s.endCycle.allCtx,
    ((∃ id, Notice.abort id ∈ s.notices ∧ x.place.launch = id) → x.phase ≠ .vacant → x.c.done.getLsbD 60 = true) ∧
    ((∃ cl, Notice.pattern cl ∈ s.notices ∧ x.place.cluster = cl) → x.phase.occupied = true → x.c.done.getLsbD 61 = true) ∧
    (Notice.brown ∈ s.notices → x.phase ≠ .vacant → x.c.done.getLsbD 62 = true))

/-- `trap`, the returns from the handler, `stepmark` (R329 to R331): `trap` records SWTRAP for the end of its bundle
when its condition holds; in handler mode the returns leave the handler, the held entries count again, the path taint
saved at entry is back, and the next bundle is RADDR, the successor of the trapped bundle, or the source; `rett.abort`
freezes the context, whose launch aborts and whose fault record stays as its bundle ends; outside handler mode each traps
ILLEGAL. -/
def Obligations.TrapAndReturnResults : Prop :=
  ∀ (p : BitVec 3) (n : Bool) (a : Src) (code : BitVec 10) (s : State),
  let c := s.ctx
  let x := c.rdC a
  let c1 := c.addPath ((c.pred p).2 ||| x.2)
  let back (t : Nat) : State := (s.testDue (fun e => e.hand)).onCtx (fun c => c.leaveHandler.go t)
  (((c.pred p).1 = n → exec (.trap p n a code) s = .next (s.withCtx c1)) ∧
   ((c.pred p).1 = !n → ∃ i : TrapInfo, exec (.trap p n a code) s =
      .next (s.withCtx { c1 with bun := { c1.bun with post := some i } }) ∧ i.cause = .swtrap ∧ i.post = true ∧
      i.addr = x.1 ∧ i.code = code ∧ i.raddr = c.bun.seqNext ∧ i.baddr = c.pc)) ∧
  (c.handler = true → exec .rett s = .next (back c.frecRaddr)) ∧
  (c.handler = true → c.frecFlags % 4 = 0 → ∀ t, s.skipTarget = some t → exec .rettSkip s = .next (back t)) ∧
  (c.handler = true → x.1.toNat % 4 = 0 → x.1.toNat < c.place.segBlocks * 1024 → x.1.toNat % 1024 < 1008 →
    exec (.rettGoto a) s = .next (back x.1.toNat)) ∧
  (c.handler = true → exec .rettAbort s = .next (s.onCtx (fun c =>
    { c with phase := .frozen, bun := { c.bun with decided := true } }))) ∧
  (∀ ws, c.phase = .frozen → c.bun.post = none → (s.commit ws).ctx.phase = .frozen ∧ (s.commit ws).ctx.due = [] ∧
    (s.commit ws).ctx.st.frec = c.st.frec ∧
    ∀ l ∈ (s.commit ws).launches, l.id = c.place.launch → l.state ≠ .running) ∧
  (c.handler = false → exec .rett s = raiseC s .illegal .C ∧ exec .rettSkip s = raiseC s .illegal .C ∧
    exec (.rettGoto a) s = raiseC s .illegal .C ∧ exec .rettAbort s = raiseC s .illegal .C) ∧
  exec (.stepmark a) s = .next (s.onCtx (fun c =>
    { c with st := { c.st with step := x.1.setWidth 32, stepValid := true } })) ∧
  (∀ t, (back t).ctx.handler = false ∧ (back t).ctx.bun.path = c.savedPath ∧ (back t).ctx.bun.next = some t)

/-- Taking a trap with a handler and outside handler mode (R327): the fault record is written, the path taint is saved
and emptied, the pending due entries stay as they are, and the next bundle is HANDLER, in handler mode; no byte of
memory, no register and no other context changes. A trap without a handler, or in handler mode, is a fatal fault
(R328, R337, R338): the fault record is written, the context freezes with its due entries and outstanding loads
discarded and every register file as it was, its running launch aborts with CAUSE 0x10, TIMEOUT ticks before its end, and
done bit 60 is set in every context of the launch as the cycle ends (R321). A stop in handler mode keeps the handler mode and
the held entries, and a resume brings them back. -/
def Obligations.TrapTaken : Prop :=
  (∀ (s : State) (i : TrapInfo) (h : Nat), s.ctx.handler = false → s.ctx.place.handler = some h →
   let t := s.takeTrap i
   t.ctx.pc = h ∧ t.ctx.handler = true ∧ t.ctx.savedPath = s.ctx.path ∧ t.ctx.path = 0 ∧ t.ctx.due = s.ctx.due ∧
     t.ctx.st = { s.ctx.st with frec := frecBits i s.ctx.st.bundles } ∧ t.ctx.mem = s.ctx.mem ∧
     t.ctx.phase = s.ctx.phase ∧ SameFiles s.ctx t.ctx ∧ OnlyCtx s t ∧ SameBytes s t) ∧
  (∀ (s : State) (i : TrapInfo), s.ctx.handler = true ∨ s.ctx.place.handler = none →
   let t := s.takeTrap i
   t.ctx.phase = .frozen ∧ t.ctx.due = [] ∧ t.ctx.pc = s.ctx.pc ∧ t.ctx.st.frec = frecBits i s.ctx.st.bundles ∧
     (∀ x ∈ t.ctx.mem.outs, x.isLoad = false) ∧ SameFiles s.ctx t.ctx ∧
     (∀ l ∈ t.launches, l.id = s.ctx.place.launch → l.state ≠ .running) ∧
     (∀ l ∈ s.launches, l.id = s.ctx.place.launch → l.state = .running →
       ∃ m ∈ t.launches, m.id = l.id ∧ m.state = .aborting 0x10 (s.ticks + l.lrec.timeout)) ∧
     (∀ c ∈ t.endCycle.allCtx, c.place.launch = s.ctx.place.launch → c.phase ≠ .vacant → c.c.done.getLsbD 60 = true)) ∧
  ((∀ (code : StopCode) (s : State) (l : Launch), s.curLaunch = some l → l.state = .stopped code → s.power.phase = .on → s.ctx.phase = .running →
     s.ctx.mem.pend = [] → s.ctx.mem.xlats = [] → s.savable = true → ∃ u, exec (.contextStop code) s = .next u ∧
       u.ctx.handler = s.ctx.handler ∧ u.ctx.due = s.ctx.due ∧ u.ctx.savedPath = s.ctx.savedPath ∧ u.ctx.pc = s.ctx.pc) ∧
   (∀ (id clord core slot : Nat) (s : State) (l : Launch) (c : Ctx) (v : Saved), s.launchOf id = some l →
     s.savedAt id clord core slot = some (c, v) → s.mayResume l = true → l.state = .running → s.sweep.active = false →
     s.followed c v = true → (s.findCluster ((l.clusters[clord]?).getD c.place.cluster)).shed = false →
     ∃ (u : State) (d : Ctx), exec (.contextResume id clord core slot) s = .next u ∧ d ∈ u.allCtx ∧
       d.place.launch = c.place.launch ∧ d.place.clord = c.place.clord ∧ d.place.core = c.place.core ∧
       d.place.slot = c.place.slot ∧ d.handler = c.handler ∧ d.due = c.due ∧ d.savedPath = c.savedPath ∧ d.pc = c.pc) ∧
   (∀ (s : State) (ws : List Instr), s.ctx.bun.post = none → (s.commit ws).ctx.phase = .running →
     (s.commit ws).ctx.st.bundles = s.ctx.st.bundles + 1))

/-- `sysr`, `sysw` and `nop` (R14, R33, R40, R42, R107 to R109): a read is an exposed result of latency 1 with an
empty taint set; sy.fmode takes effect after the bundle, a write of 1 clears a flag bit and a done-fault bit, a kitty
register is configured and empty; a `sysw` of a register without a writable field is an undefined coding: a bundle that
begins with its word and is otherwise well-formed traps ILLEGAL on unit C (R16); `nop` changes nothing. -/
def Obligations.SystemRegisterResults : Prop :=
  (∀ (d : BitVec 3) (num : BitVec 17) (s : State), num ≠ 0x11 →
    exec (.sysr d num) s = .next (s.onCtx (fun c => c.putDue 1 [.gen d (BitVec.ofNat 64 (s.sysRead num.toNat))] 0 0))) ∧
  (∀ (d : BitVec 3) (s : State), ∃ t, exec (.sysr d 0x11) s = .next t ∧
    (s.ctx.st.loose = [] → t = s.onCtx (fun c => c.putDue 1 [.gen d (s.ctx.st.fflags.setWidth 64)] 0 0))) ∧
  (∀ (s : State), s.sysRead 0x01 = s.ctx.st.bundles.toNat + 1 ∧ s.sysRead 0x10 = s.ctx.st.rm.toNat ∧
    s.sysRead 0x11 = s.ctx.st.fflags.toNat ∧ s.sysRead 0x04 = s.ctx.c.depth ∧ s.sysRead 0x27 = s.ticks ∧
    s.sysRead 0x24 = s.ctx.mem.slog.length ∧ s.sysRead 0x30 = s.ctx.place.zown.toNat ∧
    (∀ k, k < 8 → s.sysRead (0x60 + k) = natField s.ctx.st.frec.toNat (64 * k) 64) ∧
    (∀ k, k < 60 → s.sysRead (0x100 + k) = ((s.ctx.st.jstat[k]?).getD 0).toNat)) ∧
  (∀ (d : BitVec 3) (s : State),
    let v : W64 := ((s.ctx.c.g[d.toNat]?).getD ⟨0, 0⟩).val
    exec (.sysw d 0x10) s = .next (s.onCtx (fun c => { c with bun := { c.bun with rm := v.setWidth 2 } })) ∧
    (s.ctx.st.loose = [] → exec (.sysw d 0x11) s = .next (s.onCtx (fun c =>
      { c with st := { c.st with fflags := c.st.fflags &&& ~~~(v.setWidth 5) } }))) ∧
    exec (.sysw d 0x21) s = .next (s.onCtx (fun c =>
      { c with st := { c.st with dfault := c.st.dfault &&& ~~~(v &&& 0xFFFFFFFFFFFFFFF#64) } })) ∧
    (∀ k : BitVec 2,
      let kt : Kitty := ⟨v.toNat % 2 ^ 14, min 256 (v.toNat / 2 ^ 16 % 2 ^ 9), 0, 0, 0⟩
      exec (.sysw d (0x28 + k.setWidth 17)) s = .next (s.onCtx (fun c =>
        { c with st := { c.st with kitty := c.st.kitty.setIfInBounds k.toNat kt } })))) ∧
  (∀ (stop : Bool) (d : BitVec 3) (num : BitVec 17) (ws r : List (BitVec 32)), sysWritable num.toNat = false →
    let w : BitVec 32 := BitVec.ofBool stop ++ 0#3 ++ 0x25#6 ++ 0#2 ++ d ++ num
    decodeWord w = .error .reservedField ∧
    (takeBundle 8 ws = some (w :: r) → 3 ≤ r.length → unitsRise ((w :: r).map (fun x => (unitField x).toNat)) = true →
      (w :: r).find? badOpcode = none → frameBundle ws = .error (.illegal, .C))) ∧
  (∀ (u : UnitId) (s : State), exec (.nop u) s = .next s)

/-! ### Continuations, capabilities, memory words -/

/-- `bar`, `pick`, `susp`, `spawn`, `join`, `join.l`, `yield`, `halt` (R105, R106, R286 to R288, R290, R292): `bar`
makes its release, counts one arrival and waits for the generation it found; a count of 0 or above 65,535 traps
ILLEGAL, and from the end of the cycle in which the launch's abort began the context ends instead; `pick` and `susp` free or park the record and wait; `spawn` and
`join` are accesses ordered at PK, a `spawn` holding its context where the pool is full, `join` to a slot outside the pool traps SPACE and `join.l` without a link does
nothing; `yield` of n waits min(n, 1024) cycles; `halt` ends the context and frees its record. -/
def Obligations.ContinuationWordResults : Prop :=
  (∀ (b : BitVec 2) (launch : Bool) (a : Src) (s : State) (l : Launch) (cause deadline : Nat), s.curLaunch = some l →
    l.state = .aborting cause deadline → Notice.abort l.id ∉ s.notices → exec (.bar b launch a) s = exec .halt s) ∧
  (∀ (b : BitVec 2) (launch : Bool) (a : Src) (s : State) (l : Launch), s.curLaunch = some l → l.id = s.ctx.place.launch →
    (l.state.isAborting = true → Notice.abort l.id ∈ s.notices) →
    let k := (s.ctx.rdC a).1.toNat
    let old : Barrier := ((l.barsAt launch s.ctx.place.clord)[b.toNat]?).getD ⟨0, 0, 0⟩
    (k = 0 ∨ 65535 < k → exec (.bar b launch a) s = raiseC s .illegal .C) ∧
    (0 < k → k ≤ 65535 → ∃ t, exec (.bar b launch a) s = .next t ∧ t.ctx.wait.bar = some ⟨launch, b.toNat, old.gen⟩ ∧
      SameFiles s.ctx t.ctx ∧ t.ctx.bun = s.ctx.bun ∧
      ∃ l' : Launch, t.curLaunch = some l' ∧
        let new : Barrier := ((l'.barsAt launch s.ctx.place.clord)[b.toNat]?).getD ⟨0, 0, 0⟩
        let need := if old.arrivals = 0 then k else old.k
        (new.gen = old.gen + 1 ∧ new.arrivals = 0 ∧ need ≤ old.arrivals + 1) ∨
        (new.gen = old.gen ∧ new.arrivals = old.arrivals + 1 ∧ old.arrivals + 1 < need))) ∧
  (∀ s : State, ∃ t, exec .pick s = .next t ∧ t.ctx.phase = .waiting ∧ t.ctx.bun.decided = true ∧
    SameFiles s.ctx t.ctx ∧ (∀ l ∈ t.launches, l.id = s.ctx.place.launch → ∀ x ∈ l.pool.slots, x.slot ≠ s.ctx.place.contSlot)) ∧
  (∀ (n : BitVec 3) (a b : Src) (s : State) (e : BufEntry) (ad : Nat),
    let cnt := ((s.ctx.c.g[n.toNat]?).getD ⟨0, 0⟩).val.toNat
    let mask := (s.ctx.rdC a).1.toNat + (s.ctx.rdC b).1.toNat * 2 ^ 64
    (2 ^ 31 ≤ cnt → exec (.susp n a b) s = raiseC s .illegal .C) ∧
    (cnt < 2 ^ 31 → s.accCheck s.ctx.place.frame 0 (frameLayout mask).2 (pR + pW + pLC + pSC) 16 = .ok (e, ad) →
      ∃ t, exec (.susp n a b) s = .next t ∧ t.ctx.phase = .waiting ∧ t.ctx.bun.decided = true)) ∧
  (∀ (s : State) (l : Launch), s.curLaunch = some l → ∃ x : Access, exec .spawn s = .next (s.enqueue x).holdSpawns ∧
    x.isSpawn = true ∧ x.rel = some .pk ∧ x.acq = some .pk ∧ x.size = 64 ∧ x.loc = .mem l.pool.map ∧
    x.pieces = [⟨0, l.stageOff s.ctx.place.clord s.ctx.place.core s.ctx.place.slot, 0⟩] ∧ x.ent = s.poolEntry l) ∧
  (∀ (a : Src) (s : State), let k := (s.ctx.rdC a).1.toNat
    (k < s.ctx.place.poolsz → ∃ x : Access, exec (.join a) s = .next (s.enqueue x) ∧ x.op = .join k ∧ x.rel = some .pk ∧
      x.acq = none ∧ x.addrTaint = ((s.ctx.rdC a).2 ||| s.ctx.path)) ∧
    (s.ctx.place.poolsz ≤ k → exec (.join a) s = raiseC s .space .C)) ∧
  (∀ s : State, (s.ctx.place.link = 0xFFFF → exec .joinL s = .next s) ∧
    (s.ctx.place.link ≠ 0xFFFF → s.ctx.place.link < s.ctx.place.poolsz → ∃ x : Access,
      exec .joinL s = .next (s.enqueue x) ∧ x.op = .join s.ctx.place.link ∧ x.rel = some .pk)) ∧
  (∀ (a : Src) (s : State), let n := min (s.ctx.rdC a).1.toNat 1024
    exec (.yield a) s = .next (if n = 0 then s else s.onCtx (fun c => { c with wait := { c.wait with yield := n } }))) ∧
  (∀ s : State, ∃ t, exec .halt s = .next t ∧ t.ctx.phase = .ended ∧ t.ctx.bun.decided = true ∧ SameFiles s.ctx t.ctx ∧
    SameBytes s t ∧ (∀ l ∈ t.launches, l.id = s.ctx.place.launch → ∀ x ∈ l.pool.slots, x.slot ≠ s.ctx.place.contSlot))

/-- Address arithmetic and comparison on 64 bits (R22, R110, R111, R242): exposed results of latency 1, the taint sets
of what was read joined; where both sources pop the load-data queue A takes the head and B the next; `amovi` carries
no taint. -/
def Obligations.AddressArithmeticResults : Prop :=
  ∀ (d : BitVec 5) (p : BitVec 3) (a b : Src) (i10 : BitVec 10) (i16 : BitVec 16) (i17 : BitVec 17) (s : State),
  let c := s.ctx
  let x := c.rdA 0 a
  let y := c.rdA (qCount a) b
  let n := qCount a + qCount b
  let put (v : W64) : State := exposed s .a n 1 (.addr d v) (x.2 ||| y.2) 0
  let test (v : Bool) : State := exposed s .a n 1 (.pred p v) (x.2 ||| y.2) 0
  exec (.aadd d a b) s = .next (put (x.1 + y.1)) ∧
  exec (.asub d a b) s = .next (put (x.1 - y.1)) ∧
  exec (.ashl d a b) s = .next (put (x.1 <<< (y.1.extractLsb' 0 6))) ∧
  exec (.ashr d a b) s = .next (put (x.1.sshiftRight (y.1.extractLsb' 0 6).toNat)) ∧
  exec (.aand d a b) s = .next (put (x.1 &&& y.1)) ∧
  exec (.aor d a b) s = .next (put (x.1 ||| y.1)) ∧
  exec (.aaddi d a i10) s = .next (exposed s .a (qCount a) 1 (.addr d (x.1 + i10.signExtend 64)) x.2 0) ∧
  exec (.amovi d i17) s = .next (exposed s .a 0 1 (.addr d (i17.signExtend 64)) 0 0) ∧
  exec (.amovh d i16) s =
    .next (exposed s .a 0 1 (.addr d ((c.rdAd d).1.extractLsb' 0 48 ++ i16)) (c.rdAd d).2 0) ∧
  exec (.acmp .eq p a b) s = .next (test (decide (x.1 = y.1))) ∧
  exec (.acmp .ne p a b) s = .next (test (decide (x.1 ≠ y.1))) ∧
  exec (.acmp .lt p a b) s = .next (test (decide (x.1.toInt < y.1.toInt))) ∧
  exec (.acmp .ltu p a b) s = .next (test (decide (x.1.toNat < y.1.toNat))) ∧
  exec (.xrelRd d a) s = .next (exposed s .a 0 1 (.addr d (c.rdXh a).1) (c.rdXh a).2 0)

/-- Capability words (R209 to R216) while no sweep is active: each result goes to register D at latency 1, at latency
2 for `cbnd` and `cbndr`; `ccur` and `cinc` change the cursor alone; bounds are set from the cursor and a length that
fits both the operand's bounds and the format, `cbndr` rounding inward; `cperm` removes permissions; `ctag` sets the
tag exactly when the authority allows it; an untagged operand of `cbnd`, `cbndr`, `cperm` or an untagged authority
traps UNTAG. -/
def Obligations.CapabilityWordResults : Prop :=
  ∀ (d : BitVec 4) (d5 : BitVec 5) (a b : Src) (mask : BitVec 8) (s : State), s.sweep.active = false →
  let c := s.ctx
  let v := (c.rdCap a).1
  let t := (c.rdCap a).2
  let x := c.rdA 0 b
  let w := c.rdCap b
  let put (lat pops : Nat) (r : CapV) (u : Taint) : State := exposed s .a pops lat (.cap d r) u 0
  let top := v.cursor + x.1.toNat
  let fits : Prop := v.tag = true ∧ v.base ≤ v.cursor ∧ top ≤ v.top ∧ top ≤ 2 ^ 40
  exec (.cmov d a) s = .next (put 1 0 v t) ∧
  exec (.cclr d a) s = .next (put 1 0 ⟨v.bits, false⟩ t) ∧
  (∃ r : CapV, exec (.ccur d a b) s = .next (put 1 (qCount b) r (t ||| x.2)) ∧ r.tag = v.tag ∧
    r.cursor = x.1.toNat % 2 ^ 40 ∧ r.bits >>> 40 = v.bits >>> 40) ∧
  (∃ r : CapV, exec (.cinc d a b) s = .next (put 1 (qCount b) r (t ||| x.2)) ∧ r.tag = v.tag ∧
    r.cursor = (v.cursor + x.1.toNat) % 2 ^ 40 ∧ r.bits >>> 40 = v.bits >>> 40) ∧
  (fits → exactBounds v.cursor top = true → ∃ r : CapV, exec (.cbnd d a b) s = .next (put 2 (qCount b) r (t ||| x.2)) ∧
    r.tag = true ∧ r.base = v.cursor ∧ r.top = top ∧ r.cursor = v.cursor ∧ r.perms = v.perms ∧ r.index = v.index ∧
    r.gen = v.gen) ∧
  (fits → exactBounds v.cursor top = false → exec (.cbnd d a b) s = raiseCap s .A .represent v) ∧
  (fits → ∃ r : CapV, exec (.cbndr d a b) s = .next (put 2 (qCount b) r (t ||| x.2)) ∧
    r.tag = true ∧ r.base ≤ r.top ∧ (r.base < r.top → v.cursor ≤ r.base ∧ r.top ≤ top) ∧
    (exactBounds v.cursor top = true → r.base = v.cursor ∧ r.top = top) ∧ r.cursor = v.cursor ∧ r.perms = v.perms ∧
    r.index = v.index ∧ r.gen = v.gen) ∧
  (v.tag = true → ¬ fits → exec (.cbnd d a b) s = raiseCap s .A .bound v ∧
    exec (.cbndr d a b) s = raiseCap s .A .bound v) ∧
  (v.tag = false → exec (.cbnd d a b) s = raiseCap s .A .untag v ∧ exec (.cbndr d a b) s = raiseCap s .A .untag v ∧
    exec (.cperm d a mask) s = raiseCap s .A .untag v) ∧
  (v.tag = true → ∃ r : CapV, exec (.cperm d a mask) s = .next (put 1 0 r t) ∧ r.tag = true ∧
    r.perms = v.perms &&& mask.toNat ∧ r.cursor = v.cursor ∧ r.base = v.base ∧ r.top = v.top ∧ r.index = v.index ∧
    r.gen = v.gen) ∧
  (∃ r : W64, exec (.cget d5 a .cursor) s = .next (exposed s .a 0 1 (.addr d5 r) t 0) ∧ r.toNat = v.cursor) ∧
  (∃ r : W64, exec (.cget d5 a .perms) s = .next (exposed s .a 0 1 (.addr d5 r) t 0) ∧ r = (v.bits.extractLsb' 96 8).setWidth 64) ∧
  (∃ r : W64, exec (.cget d5 a .tag) s = .next (exposed s .a 0 1 (.addr d5 r) t 0) ∧ r.toNat = if v.tag then 1 else 0) ∧
  (∀ sel, ∃ r : W64, exec (.cget d5 a sel) s = .next (exposed s .a 0 1 (.addr d5 r) t 0)) ∧
  (w.1.tag = true → ∃ k : Bool, exec (.ctag d a b) s = .next (put 1 0 ⟨v.bits, k⟩ (t ||| w.2)) ∧
    (k = true ↔ v.wellFormed = true ∧ v.index = w.1.index ∧ v.gen = w.1.gen ∧ v.perms &&& w.1.perms = v.perms ∧
      w.1.base ≤ v.base ∧ v.top ≤ w.1.top)) ∧
  (w.1.tag = false → exec (.ctag d a b) s = raiseCap s .A .untag w.1)

/-- No capability word gives a tagged result more than it was given (R209, R211 to R216): whenever `cmov`, `cclr`,
`ccur`, `cinc`, `cbnd`, `cbndr` or `cperm` places a tagged capability, some tagged capability that the word read has
its index and generation, all of its permissions, and bounds that contain its bounds; for `ctag` that capability is
the authority. -/
def Obligations.CapabilityWordsNeverWiden : Prop :=
  ∀ (d : BitVec 4) (a b : Src) (mask : BitVec 8) (i : Instr) (s t : State) (r : CapV) (lat : Nat) (h : Bool)
    (tt : Taint) (fl : BitVec 5),
  i ∈ [Instr.cmov d a, .cclr d a, .ccur d a b, .cinc d a b, .cbnd d a b, .cbndr d a b, .cperm d a mask, .ctag d a b] →
  exec i s = .next t → t.ctx.due = s.ctx.due ++ [⟨lat, h, [.cap d r], tt, fl⟩] → r.tag = true →
  ∃ v : CapV, v.tag = true ∧ (v = (s.ctx.rdCap a).1 ∨ v = (s.ctx.rdCap b).1) ∧ r.index = v.index ∧ r.gen = v.gen ∧
    r.perms &&& v.perms = r.perms ∧ (r.base < r.top → v.base ≤ r.base ∧ r.top ≤ v.top)

/-- Transfers through code capabilities and `crev` at issue (R98, R99, R217, R339): a capability that passes the check
for X at alignment 4, names the image and points below the tail of a block is the next bundle, unless a C-unit word of
the bundle has decided it; `callc` pushes the sequential successor; another buffer traps AUTH, a pointer into the tail
(cursor mod 1,024 at 1,008 or above) traps BUNDLE. `crev` of a tagged, current capability with RV on a buffer that is not shared waits for its completion.
CREV_COMPLETE (R339, R340): once the accesses and cards before the `crev` have performed, the buffer's generation
steps in the table of the cluster; once no card names the old generation, the capability under the new one is
delivered to its register and latch, the context proceeds, and a context that holds a tagged capability of the buffer
sees done bit 63 as the cycle ends. That CREV_COMPLETE acts in two parts, the second when no card names the old generation, is
the model's reading (log entry 27). -/
def Obligations.RevocationResults : Prop :=
  (∀ (a : Src) (d : BitVec 4) (s : State) (e : BufEntry) (ad : Nat),
   let v := (s.ctx.rdCap a).1
   let c := s.ctx.addPath (s.ctx.rdCap a).2
   let jump (c : Ctx) : Ctx := { c with bun := { c.bun with next := some v.cursor, decided := true } }
   (coreCheck s.table v 0 4 pX 4 = .ok (e, ad) → e.kind = .code → v.index = s.ctx.place.image → v.cursor % 1024 < 1008 →
     (s.ctx.bun.decided = false → exec (.jmpc a) s = .next (s.withCtx (jump c)) ∧
       (s.ctx.c.depth ≠ 16 → exec (.callc a) s = .next (s.withCtx (jump { c with c := { c.c with
         rstk := c.c.rstk.setIfInBounds c.c.depth (BitVec.ofNat 32 c.bun.seqNext), depth := c.c.depth + 1 } }))) ∧
       (s.ctx.c.depth = 16 → exec (.callc a) s = raiseC s .illegal .A)) ∧
     (s.ctx.bun.decided = true → exec (.jmpc a) s = .next (s.withCtx c) ∧ exec (.callc a) s = .next (s.withCtx c))) ∧
   (coreCheck s.table v 0 4 pX 4 = .ok (e, ad) → (e.kind ≠ .code ∨ v.index ≠ s.ctx.place.image) →
     ∃ i : TrapInfo, i.cause = .auth ∧ i.unit = .A ∧ exec (.jmpc a) s = raise s i ∧ exec (.callc a) s = raise s i) ∧
   (coreCheck s.table v 0 4 pX 4 = .ok (e, ad) → e.kind = .code → v.index = s.ctx.place.image → 1008 ≤ v.cursor % 1024 →
     ∃ i : TrapInfo, i.cause = .bundle ∧ i.unit = .A ∧ exec (.jmpc a) s = raise s i ∧ exec (.callc a) s = raise s i) ∧
   (∀ f, coreCheck s.table v 0 4 pX 4 = .error f → exec (.jmpc a) s = raiseCheck s .A v f ∧
     exec (.callc a) s = raiseCheck s .A v f) ∧
   (v.tag = true → s.table.entry v.index = some e → v.gen = e.gen → v.perms &&& 128 ≠ 0 → e.shared = false →
     exec (.crev d a) s = .next (s.onCtx (fun c => { c with wait := { c.wait with crev := some ⟨v.index, d, v, (s.ctx.rdCap a).2, none⟩ } })))) ∧
  (∀ (s : State) (index : Nat) (d : BitVec 4) (cap : CapV) (t : Taint) (step : Option Nat) (e : BufEntry),
     s.ctx.wait.crev = some ⟨index, d, cap, t, step⟩ → s.table.entry index = some e →
   (step = none → (e.gen + 1) % 4096 ≠ e.gfloor → s.released (some .pk) s.ctx.mem.aseq = true → ∃ u,
     exec .crevComplete s = .next u ∧ u.table.entry index = some { e with gen := (e.gen + 1) % 4096 } ∧
     u.ctx.wait.crev = some ⟨index, d, cap, t, some ((e.gen + 1) % 4096)⟩ ∧ SameFiles s.ctx u.ctx ∧
     u.core.tiles = s.core.tiles) ∧
   (step = none → (e.gen + 1) % 4096 ≠ e.gfloor → s.ctx.earlier s.ctx.mem.aseq ≠ [] → exec .crevComplete s = .next s) ∧
   (∀ g, step = some g → s.cardsName s.table.asid index e ((g + 4095) % 4096) = true → exec .crevComplete s = .next s) ∧
   (∀ g, step = some g → s.cardsName s.table.asid index e ((g + 4095) % 4096) = false → s.sweep.active = false → g < 4096 →
     ∃ u,
     exec .crevComplete s = .next u ∧ u.ctx.wait.crev = none ∧ (u.ctx.rdCd d).2 = t ∧ (u.ctx.rdCd d).1.gen = g ∧
     (u.ctx.rdCd d).1.tag = cap.tag ∧ (u.ctx.rdCd d).1.base = cap.base ∧ (u.ctx.rdCd d).1.top = cap.top ∧
     (u.ctx.rdCd d).1.perms = cap.perms ∧ u.ctx.i = s.ctx.i ∧ u.ctx.due = s.ctx.due ∧ SameBytes s u ∧
     Notice.revoked s.table.asid index e ∈ u.notices ∧
     (∀ c ∈ u.endCycle.allCtx, c.phase ≠ .vacant → (∃ p ∈ (u.spaceOf c.place.asid).entries,
       e.same s.table.asid index p.2 c.place.asid p.1 = true ∧ c.holdsIndex p.1 = true) → c.c.done.getLsbD 63 = true)))

/-- Scalar loads and stores, `lcap` and `scap` at issue (R204, R220, R225, R227, R230, R231, R267): when the check
passes at the word's address, size, alignment and permissions, the word issues one access of that place and size; a
load takes a load id, reserves the tail of its queue under that id (`lcap` empties its destination), a store takes its
data; a failing check traps its cause. Vector accesses at issue (R208, R228, R229): when the checks pass, a row access
has one 8-byte piece for each active lane at base + 8 lane, a gather or scatter at base plus its popped offset; a
wide-sum form is one access of 48 or 288 bytes at alignment 48; loads reserve the tail of their unit's queue under a
load id, stores take their data from the unit's store-data queue, whose head must be of the form's width, else the
word traps ILLEGAL. -/
def Obligations.AccessIssueResults : Prop :=
  ((∀ (q : DUnit) (ty : XType) (cd : BitVec 4) (a b : Src) (s : State) (e : BufEntry) (ad : Nat) (f : CheckFail),
     let i : Instr := match q with
       | .a => .ldA ty cd a b
       | .i => .ldI ty cd a b
       | .va => .ldA ty cd a b
       | .vb => .ldA ty cd a b
     let cap := (s.ctx.rdCd cd).1
     let off := (s.ctx.rdA 0 a).1.toInt + (s.ctx.rdA (qCount a) b).1.toInt
     let n := ty.w.bits / 8
     (q = .a ∨ q = .i) →
     (s.accCheck cap off n 1 n = .error f → exec i s = raiseCheck s .A cap f) ∧
     (s.accCheck cap off n 1 n = .ok (e, ad) → ∃ (x : Access) (k : Nat) (s1 : State),
       (s.onCtx (fun c => c.popLq .a (qCount a + qCount b))).enqueueLoad x = (k, s1) ∧
       exec i s = .next (s1.onCtx (fun c => c.setLq q (c.lq q ++ [⟨k, none, idBit k⟩]))) ∧
       x.op = .load q ty ∧ x.loc = (e.loc s.core.num ad).1 ∧ x.pieces = [⟨0, (e.loc s.core.num ad).2, 0⟩] ∧ x.size = n ∧
       x.addrTaint = ((s.ctx.rdCd cd).2 ||| (s.ctx.rdA 0 a).2 ||| (s.ctx.rdA (qCount a) b).2 ||| s.ctx.path))) ∧
   (∀ (w : Width) (cd : BitVec 4) (a b : Src) (s : State) (e : BufEntry) (ad : Nat) (f : CheckFail),
     let cap := (s.ctx.rdCd cd).1
     let va := s.ctx.rdA 0 a
     let vb := s.ctx.rdA (qCount a) b
     let n := w.bits / 8
     let head := s.ctx.sqVal .i 0
     let is (x : Access) (data : Nat) (dt at_ : Taint) : Prop := x.op = .store ∧ x.loc = (e.loc s.core.num ad).1 ∧
       x.pieces = [⟨0, (e.loc s.core.num ad).2, data⟩] ∧ x.size = n ∧ x.dataTaint = dt ∧
       x.addrTaint = ((s.ctx.rdCd cd).2 ||| at_ ||| s.ctx.path) ∧ x.id = none ∧ x.rel = none ∧ x.acq = none
     (s.accCheck cap va.1.toInt n 2 n = .error f → exec (.stA w cd a b) s = raiseCheck s .A cap f) ∧
     (s.accCheck cap va.1.toInt n 2 n = .ok (e, ad) → ∃ x : Access, is x (vb.1.toNat % 2 ^ w.bits) vb.2 va.2 ∧
       exec (.stA w cd a b) s = .next ((s.onCtx (fun c => c.popLq .a (qCount a + qCount b))).enqueue x)) ∧
     (s.accCheck cap (va.1.toInt + vb.1.toInt) n 2 n = .error f → exec (.stI w cd a b) s = raiseCheck s .A cap f) ∧
     (s.accCheck cap (va.1.toInt + vb.1.toInt) n 2 n = .ok (e, ad) → ∃ x : Access,
       is x (head.1.scalar.toNat % 2 ^ w.bits) head.2 (va.2 ||| vb.2) ∧ exec (.stI w cd a b) s =
         .next ((s.onCtx (fun c => (c.popLq .a (qCount a + qCount b)).popSq .i 1)).enqueue x))) ∧
   (∀ (d : BitVec 4) (a b : Src) (s : State) (e : BufEntry) (ad : Nat) (f : CheckFail),
     let cap := (s.ctx.rdCap a).1
     let off := (s.ctx.rdA 0 b).1.toInt
     (s.accCheck cap off 16 9 16 = .error f → exec (.lcap d a b) s = raiseCheck s .A cap f) ∧
     (s.accCheck cap off 16 9 16 = .ok (e, ad) → ∃ x : Access, exec (.lcap d a b) s =
         .next ((s.onCtx (fun c => ((c.popLq .a (qCount b)).cancelDue (.c (d.setWidth 5))).setEmpty
           (.c (d.setWidth 5)))).enqueueLoad x).2 ∧
       x.op = .lcap d ∧ x.size = 16 ∧ x.loc = (e.loc s.core.num ad).1 ∧
       x.pieces = [⟨0, (e.loc s.core.num ad).2, 0⟩])) ∧
   (∀ (cd : BitVec 4) (a b : Src) (s : State) (e : BufEntry) (ad : Nat) (f : CheckFail),
     let cap := (s.ctx.rdCd cd).1
     let off := (s.ctx.rdA 0 a).1.toInt
     let v := s.ctx.rdCap b
     let escapes : Prop := v.1.tag = true ∧ v.1.perms &&& 32 ≠ 0 ∧ e.kind ≠ .local
     (s.accCheck cap off 16 18 16 = .error f → exec (.scap cd a b) s = raiseCheck s .A cap f) ∧
     (s.accCheck cap off 16 18 16 = .ok (e, ad) → escapes → ∃ g : CheckFail, g.cause = .perm ∧
       exec (.scap cd a b) s = raiseCheck s .A cap g) ∧
     (s.accCheck cap off 16 18 16 = .ok (e, ad) → ¬ escapes → ∃ x : Access, exec (.scap cd a b) s =
         .next ((s.onCtx (fun c => c.popLq .a (qCount a))).enqueue x) ∧ x.op = .scap v.1.tag ∧ x.size = 16 ∧
       x.loc = (e.loc s.core.num ad).1 ∧ x.pieces = [⟨0, (e.loc s.core.num ad).2, v.1.bits.toNat⟩] ∧ x.dataTaint = v.2))) ∧
  (∀ (u : VUnit) (cd : BitVec 4) (a b : Src) (s : State) (e : BufEntry) (ws64 : Bool) (ad : Nat),
   let pick (x y : Instr) : Instr := match u with
     | .va => x
     | .vb => y
   let cap := (s.ctx.rdCd cd).1
   let base := (s.ctx.rdA 0 a).1.toInt
   let act := (s.ctx.rdA (qCount a) b).1
   let pops := qCount a + qCount b
   let head := s.ctx.sqVal u.dunit 0
   let second := s.ctx.sqVal u.dunit 1
   let lanes (off : Nat → Int) : List (Nat × Int) :=
     ((List.range 32).filter (fun k => act.getLsbD k)).map (fun k => (k, off k))
   let row : Nat → Int := fun k => base + 8 * (k : Int)
   let idx : Nat → Int := fun k => base + (head.1.vector.extractLsb' (64 * k) 64).toInt
   let piece (off : Nat → Int) (data : V2048) (k : Nat) : Piece :=
     ⟨k, (e.loc s.core.num ((cap.cursor : Int) + off k).toNat).2, (data.extractLsb' (64 * k) 64).toNat⟩
   let covers (x : Access) (off : Nat → Int) (data : V2048) : Prop :=
     x.pieces = ((List.range 32).filter (fun k => act.getLsbD k)).map (piece off data) ∧ x.size = 8 ∧ x.ent = some e
   let loads (i : Instr) (x : Access) (so : Nat) : Prop := ∃ (k : Nat) (s1 : State),
     (s.onCtx (fun c => (c.popLq .a pops).popSq u.dunit so)).enqueueLoad x = (k, s1) ∧
     exec i s = .next (s1.onCtx (fun c => c.setLq u.dunit (c.lq u.dunit ++ [⟨k, none, idBit k⟩])))
   let stores (i : Instr) (x : Access) (so : Nat) : Prop := exec i s =
     .next ((s.onCtx (fun c => (c.popLq .a pops).popSq u.dunit so)).enqueue x)
   let kind : VKind := if ws64 then .ws64 else .ws32
   let size := if ws64 then 288 else 48
   let right : Bool := if ws64 then head.1.isW64 else head.1.isW32
   (s.laneCheck cap base (lanes row) 1 false = .ok (e, 0) → ∃ x, x.op = .vload u ∧ covers x row 0 ∧
     loads (pick (.vldVA .lanes cd a b) (.vldVB .lanes cd a b)) x 0) ∧
   (head.1.isVec = true → s.laneCheck cap base (lanes row) 2 false = .ok (e, 0) → ∃ x, x.op = .store ∧
     covers x row head.1.vector ∧ stores (pick (.vstVA .lanes cd a b) (.vstVB .lanes cd a b)) x 1) ∧
   (head.1.isVec = true → s.laneCheck cap base (lanes idx) 1 false = .ok (e, 0) → ∃ x, x.op = .vload u ∧ covers x idx 0 ∧
     loads (pick (.vldgVA .lanes cd a b) (.vldgVB .lanes cd a b)) x 1) ∧
   (head.1.isVec = true → second.1.isVec = true → s.laneCheck cap base (lanes idx) 2 false = .ok (e, 0) →
     ∃ x, x.op = .store ∧ covers x idx second.1.vector ∧ stores (pick (.vstsVA .lanes cd a b) (.vstsVB .lanes cd a b)) x 2) ∧
   (s.accCheck cap base size 1 48 = .ok (e, ad) → ∃ x, x.op = .wload u ws64 ∧ x.size = size ∧
     loads (pick (.vldVA kind cd a b) (.vldVB kind cd a b)) x 0) ∧
   (right = true → s.accCheck cap base size 2 48 = .ok (e, ad) → ∃ x, x.op = .store ∧ x.size = size ∧
     stores (pick (.vstVA kind cd a b) (.vstVB kind cd a b)) x 1) ∧
   (head.1.isVec = false → exec (pick (.vstVA .lanes cd a b) (.vstVB .lanes cd a b)) s = raiseC s .illegal .A ∧
     exec (pick (.vldgVA .lanes cd a b) (.vldgVB .lanes cd a b)) s = raiseC s .illegal .A ∧
     exec (pick (.vstsVA .lanes cd a b) (.vstsVB .lanes cd a b)) s = raiseC s .illegal .A) ∧
   (∀ i, s.laneCheck cap base (lanes row) 1 false = .error i →
     exec (pick (.vldVA .lanes cd a b) (.vldVB .lanes cd a b)) s = raise s i) ∧
   (∀ (m : BitVec 2) (bad : BitVec 32), s.laneCheck cap base (lanes row) 1 true = .ok (e, bad) → ∃ t,
     exec (pick (.vldVA (.z m) cd a b) (.vldVB (.z m) cd a b)) s = .next t ∧
     ∃ (tt : Taint), t.ctx.due.getLast? = some ⟨1, s.ctx.bun.hand, [.mask u (m.setWidth 3) bad], tt, 0⟩))

/-- Atomics and `fence` at issue (R226, R232 to R234, R273): when the check for R, W and AT at the cursor passes, the
word issues one atomic access with its operand, its scope before it when the ordering releases and after it when it
acquires; `.ret` forms and `cas` take a load id and reserve the tail of A's load-data queue; `cas` takes its new value
from A's store-data queue and `amo.wsadd` its image from a vector unit's; `fence` is an access of its own. -/
def Obligations.AtomicIssue : Prop :=
  ∀ (w : Width) (ty : XType) (cd : BitVec 4) (sc : Scope) (ord : Ordering4) (b : Src) (u : VUnit) (ws64 : Bool)
    (s : State) (e : BufEntry) (ad : Nat),
  let cap := (s.ctx.rdCd cd).1
  let v := s.ctx.rdA 0 b
  let s0 := s.onCtx (fun c => c.popLq .a (qCount b))
  let before := if ord = .rel ∨ ord = .ar then some sc else none
  let after := if ord = .acq ∨ ord = .ar then some sc else none
  let here (x : Access) (n : Nat) (data : Nat) : Prop := x.loc = (e.loc s.core.num ad).1 ∧
    x.pieces = [⟨0, (e.loc s.core.num ad).2, data⟩] ∧ x.size = n ∧ x.rel = before ∧ x.acq = after
  let back (s0 : State) (x : Access) : State :=
    let r := s0.enqueueLoad x
    r.2.onCtx (fun c => c.setLq .a (c.lq .a ++ [⟨r.1, none, idBit r.1⟩]))
  let done (i : Bool → Instr) (op : AmoOp) (t : XType) : Prop :=
    s.accCheck cap 0 (t.w.bits / 8) 67 (t.w.bits / 8) = .ok (e, ad) → ∀ ret, ∃ x : Access,
      x.op = .amo op t ret ∧ here x (t.w.bits / 8) (v.1.toNat % 2 ^ t.w.bits) ∧ x.dataTaint = v.2 ∧
      exec (i ret) s = .next (if ret then back s0 x else s0.enqueue x)
  let plain : XType := ⟨true, w⟩
  let head := s.ctx.sqVal u.dunit 0
  let size := if ws64 then 288 else 48
  done (fun r => .amoAdd w r cd sc ord b) .add plain ∧ done (fun r => .amoAnd w r cd sc ord b) .and plain ∧
  done (fun r => .amoOr w r cd sc ord b) .or plain ∧ done (fun r => .amoXor w r cd sc ord b) .xor plain ∧
  done (fun r => .amoSwap w r cd sc ord b) .swap plain ∧ done (fun r => .amoMin ty r cd sc ord b) .min ty ∧
  done (fun r => .amoMax ty r cd sc ord b) .max ty ∧
  (s.accCheck cap 0 (w.bits / 8) 67 (w.bits / 8) = .ok (e, ad) → ∃ x : Access,
    x.op = .cas w ((s.ctx.sqVal .a 0).1.scalar.toNat % 2 ^ w.bits) ∧ here x (w.bits / 8) (v.1.toNat % 2 ^ w.bits) ∧
    exec (.cas w cd sc ord b) s = .next (back (s.onCtx (fun c => (c.popLq .a (qCount b)).popSq .a 1)) x)) ∧
  ((if ws64 then head.1.isW64 else head.1.isW32) = true → s.accCheck cap 0 size 67 48 = .ok (e, ad) → ∃ x : Access,
    x.op = .wsadd ws64 ∧ here x size (head.1.wide.toNat % 2 ^ (8 * size)) ∧
    exec (.amoWsadd u ws64 cd sc ord) s = .next ((s.onCtx (fun c => c.popSq u.dunit 1)).enqueue x)) ∧
  ((if ws64 then head.1.isW64 else head.1.isW32) = false → exec (.amoWsadd u ws64 cd sc ord) s = raiseC s .illegal .A) ∧
  (∀ k : FenceKind, ∃ x : Access, x.op = .fence none ∧ x.pieces = [] ∧ x.id = none ∧
    (x.rel = if k = .acq then none else some sc) ∧ (x.acq = if k = .rel then none else some sc) ∧
    exec (.fence k sc) s = .next (s.enqueue x))

/-- Translate handles, taint words, `xput` and `keep` (R122 to R126, R154 to R156, R242): `xlat` pins the extent and
empties the handle, `xrel` drops the pin; `tclr` and `tdep` rewrite a register with an empty or a joined taint set at
latency 1, or change the path taint; `xput` places a value in another unit's file at latency 2; `keep` pushes the tail
of a store-data queue; a pop of a wide-sum entry as a vector traps ILLEGAL. That `keepW32` stores the sum with its reserved bits cleared is the
model's reading (log entry 100). -/
def Obligations.TaintAndTransferWordResults : Prop :=
  (∀ (d : BitVec 3) (a b : Src) (s : State) (e : BufEntry) (ad : Nat),
    coreCheck s.table (s.ctx.rdCap a).1 (s.ctx.rdA 0 b).1.toInt 1 1 1 = .ok (e, ad) →
    (e.kind ≠ .local → ∃ t, exec (.xlat d a b) s = .next t ∧ t.ctx.isFull (.xh (d.setWidth 5)) = false ∧
      t.ctx.mem.pins[d.toNat]? = some (some ⟨e.extmap, ad / extentBytes⟩) ∧ (∃ x, t.ctx.mem.xlats = s.ctx.mem.xlats ++ [x] ∧
        x.handle = d ∧ x.pin = ⟨e.extmap, ad / extentBytes⟩) ∧ OnlyCtx s t) ∧
    (e.kind = .local → ∃ g : CheckFail, g.cause = .perm ∧ exec (.xlat d a b) s = raiseCheck s .A (s.ctx.rdCap a).1 g)) ∧
  (∀ (n : BitVec 5) (tr : Bool) (s : State), n.toNat < 8 → ∃ t, exec (.xrel (.main n tr)) s = .next t ∧
    t.ctx.mem.pins[n.toNat]? = some none ∧ SameFiles s.ctx t.ctx ∧ OnlyCtx s t) ∧
  (∀ (u : DUnit) (v : VUnit) (d n5 : BitVec 5) (d4 : BitVec 4) (a : Src) (tr : Bool) (x : XTgt) (s : State),
    let c := s.ctx
    let src := c.rdU u a
    let ok : Prop := c.wrongPopU u a = false
    let w := c.rdW v (.main n5 tr)
    exec (.tclrReg u d) s = .next (s.onCtx (fun c => c.putDue 1 [(c.rewrite u d).1] 0 0)) ∧
    exec (.tclrPath u) s = .next (s.onCtx (fun c => { c with bun := { c.bun with path := 0 } })) ∧
    exec (.tclrCap d4) s = .next (s.onCtx (fun c => c.putDue 1 [.cap d4 (c.rdCd d4).1] 0 0)) ∧
    exec (.tdepCap d4 a) s = .next (s.onCtx (fun c => (c.popLq .a (qCount a)).putDue 1 [.cap d4 (c.rdCd d4).1]
      ((c.rdCd d4).2 ||| (c.rdA 0 a).2) 0)) ∧
    (ok → exec (.tdepReg u d a) s = .next (s.onCtx (fun c =>
      (c.popLq u (qCount a)).putDue 1 [(c.rewrite u d).1] ((c.rewrite u d).2 ||| src.2.2) 0)) ∧
     exec (.tdepPath u a) s = .next (s.onCtx (fun c => (c.popLq u (qCount a)).addPath src.2.2)) ∧
     (∃ r : RegWrite, exec (.xput u x d a) s = .next (exposed s u (qCount a) 2 r src.2.2 0) ∧
       (x = .i → r = .int d src.1) ∧ (x = .a → r = .addr d src.1) ∧ (x = .k → r = .kx d src.1) ∧
       (x = .c → r = .gen (d.setWidth 3) src.1) ∧ (x = .va → r = .vec .va d src.2.1) ∧ (x = .vb → r = .vec .vb d src.2.1)) ∧
     (∃ q : QVal, exec (.keep u a) s = .next (s.onCtx (fun c =>
         (c.popLq u (qCount a)).setSq u ((c.popLq u (qCount a)).sq u ++ [⟨q, src.2.2⟩]))) ∧
       ((u = .a ∨ u = .i) → q = .s src.1) ∧ ((u = .va ∨ u = .vb) → q = .v src.2.1))) ∧
    (¬ ok → exec (.tdepReg u d a) s = raiseC s .illegal u.unit ∧ exec (.tdepPath u a) s = raiseC s .illegal u.unit ∧
     exec (.xput u x d a) s = raiseC s .illegal u.unit ∧ exec (.keep u a) s = raiseC s .illegal u.unit) ∧
    exec (.keepW32 v (.main n5 tr)) s = .next (s.onCtx (fun c =>
      c.setSq v.dunit (c.sq v.dunit ++ [⟨.w32 (BitVec.ofNat 2304 (w.1.toNat % 2 ^ 380)), w.2⟩]))) ∧
    exec (.keepW64 v (.main n5 tr)) s = .next (s.onCtx (fun c => c.setSq v.dunit (c.sq v.dunit ++ [⟨.w64 w.1, w.2⟩]))))

/-! ### Integer and floating point -/

/-- Integer operations without saturation (R35, R93, R112, R115): the low `w` bits of both sources as `w`-bit words,
the result extended to 64 bits by zeros, at latency 1, `mul` at 3, in register D; shift amounts are taken modulo the
width. Typed integer operations (R35, R93, R112): operands are values of the type, signed or unsigned; `mulh` is the
high half of the exact product, `min` and `max` compare values, the saturating forms clamp the exact result to the
type's range, `shl.sat` shifting by the low 6 bits of B; results extend by the type's sign. -/
def Obligations.IntegerResults : Prop :=
  (∀ (w : Width) (d : BitVec 5) (a b : Src) (i10 : BitVec 10) (i16 : BitVec 16) (i17 : BitVec 17) (s : State),
   let c := s.ctx
   let n := w.bits
   let t := (c.rdI 0 a).2 ||| (c.rdI (qCount a) b).2
   let x : BitVec n := (c.rdI 0 a).1.setWidth n
   let y : BitVec n := (c.rdI (qCount a) b).1.setWidth n
   let z : BitVec n := (c.rdId d).1.setWidth n
   let put (lat : Nat) (t : Taint) (r : BitVec n) : State :=
     exposed s .i (qCount a + qCount b) lat (.int d (r.setWidth 64)) t 0
   exec (.add w d a b) s = .next (put 1 t (x + y)) ∧
   exec (.sub w d a b) s = .next (put 1 t (x - y)) ∧
   exec (.mul w d a b) s = .next (put 3 t (x * y)) ∧
   exec (.and w d a b) s = .next (put 1 t (x &&& y)) ∧
   exec (.or w d a b) s = .next (put 1 t (x ||| y)) ∧
   exec (.xor w d a b) s = .next (put 1 t (x ^^^ y)) ∧
   exec (.andn w d a b) s = .next (put 1 t (x &&& ~~~y)) ∧
   exec (.shl w d a b) s = .next (put 1 t (x <<< (y.toNat % n))) ∧
   exec (.shr w d a b) s = .next (put 1 t (x >>> (y.toNat % n))) ∧
   exec (.sar w d a b) s = .next (put 1 t (x.sshiftRight (y.toNat % n))) ∧
   exec (.rot w d a b) s = .next (put 1 t (x.rotateLeft (y.toNat % n))) ∧
   exec (.sel w d a b) s = .next (put 1 (t ||| (c.rdId d).2) (if z = 0 then y else x)) ∧
   exec (.addi d a i10) s =
     .next (exposed s .i (qCount a) 1 (.int d ((c.rdI 0 a).1 + i10.signExtend 64)) (c.rdI 0 a).2 0) ∧
   exec (.movi d i17) s = .next (exposed s .i 0 1 (.int d (i17.signExtend 64)) 0 0) ∧
   exec (.movh d i16) s = .next (exposed s .i 0 1 (.int d ((c.rdId d).1.extractLsb' 0 48 ++ i16)) (c.rdId d).2 0)) ∧
  (∀ (ty : XType) (d : BitVec 5) (a b : Src) (s : State),
   let c := s.ctx
   let n := ty.w.bits
   let t := (c.rdI 0 a).2 ||| (c.rdI (qCount a) b).2
   let xw : BitVec n := (c.rdI 0 a).1.setWidth n
   let yw : BitVec n := (c.rdI (qCount a) b).1.setWidth n
   let val (r : BitVec n) : Int := if ty.uns then (r.toNat : Int) else r.toInt
   let lo : Int := if ty.uns then 0 else -(2 : Int) ^ (n - 1)
   let hi : Int := if ty.uns then (2 : Int) ^ n - 1 else (2 : Int) ^ (n - 1) - 1
   let x := val xw
   let y := val yw
   let put (lat : Nat) (v : Int) : State :=
     let r : BitVec n := BitVec.ofInt n v
     exposed s .i (qCount a + qCount b) lat (.int d (if ty.uns then r.setWidth 64 else r.signExtend 64)) t 0
   let clamp (v : Int) : Int := if v < lo then lo else if hi < v then hi else v
   exec (.mulh ty d a b) s = .next (put 3 (x * y / (2 : Int) ^ n)) ∧
   exec (.min ty d a b) s = .next (put 1 (min x y)) ∧
   exec (.max ty d a b) s = .next (put 1 (max x y)) ∧
   exec (.addSat ty d a b) s = .next (put 1 (clamp (x + y))) ∧
   exec (.subSat ty d a b) s = .next (put 1 (clamp (x - y))) ∧
   exec (.mulSat ty d a b) s = .next (put 3 (clamp (x * y))) ∧
   exec (.shlSat ty d a b) s = .next (put 1 (clamp (x * (2 : Int) ^ (yw.toNat % 64)))) ∧
   exec (.ext ty d a) s = .next (exposed s .i (qCount a) 1
     (.int d (if ty.uns then xw.setWidth 64 else xw.signExtend 64)) (c.rdI 0 a).2 0))

/-- Divisions (R24, R36, R114): a divisor whose low `w` bits are 0 traps IDIV; otherwise D is empty until the result
arrives, `div` giving the quotient toward zero and the minimum for minimum by -1, `div.sat` the maximum there, `rem`
the remainder with the dividend's sign. Integer vector divisions (R24, R36, R137): a zero divisor element traps IDIV
with the mask of the lanes that hold one; otherwise D is empty until the quotients toward zero arrive. A division that
traps writes no register, no flag and, where a handler takes the trap, no byte of memory and no due entry. -/
def Obligations.DivisionResults : Prop :=
  (∀ (ty : XType) (d : BitVec 5) (a b : Src) (s : State), d.toNat < 28 →
   let c := s.ctx
   let n := ty.w.bits
   let t := (c.rdI 0 a).2 ||| (c.rdI (qCount a) b).2
   let xw : BitVec n := (c.rdI 0 a).1.setWidth n
   let yw : BitVec n := (c.rdI (qCount a) b).1.setWidth n
   let put (r : BitVec n) : State :=
     pended s .i (qCount a + qCount b) (.int d (if ty.uns then r.setWidth 64 else r.signExtend 64)) t 0
   let hi : BitVec n := BitVec.ofInt n ((2 : Int) ^ (n - 1) - 1)
   (yw = 0 → exec (.div ty d a b) s = raiseC s .idiv .I ∧ exec (.rem ty d a b) s = raiseC s .idiv .I ∧
     exec (.divSat ty d a b) s = raiseC s .idiv .I) ∧
   (yw ≠ 0 → exec (.div ty d a b) s = .next (put (if ty.uns then xw / yw else xw.sdiv yw)) ∧
     exec (.rem ty d a b) s = .next (put (if ty.uns then xw % yw else xw.srem yw)) ∧
     exec (.divSat ty d a b) s = .next (put (if ty.uns then xw / yw
       else if xw.toInt = -(2 : Int) ^ (n - 1) ∧ yw.toInt = -1 then hi else xw.sdiv yw))) ∧
   (∀ r, (put r).ctx.isFull (.i d) = false)) ∧
  (∀ (u : VUnit) (ty : XType) (d : BitVec 5) (a b : Src) (s : State), d.toNat < 28 →
   s.ctx.wrongPop u 0 a = false → s.ctx.wrongPop u (qCount a) b = false →
   let n := ty.w.bits
   let x : V2048 := (s.ctx.rdV u n 0 a).1
   let y : V2048 := (s.ctx.rdV u n (qCount a) b).1
   let t := (s.ctx.rdV u n 0 a).2 ||| (s.ctx.rdV u n (qCount a) b).2
   let hi : BitVec n := BitVec.ofInt n ((2 : Int) ^ (n - 1) - 1)
   ((∀ e, e < 2048 / n → el y e n ≠ 0) →
     (∃ r : V2048, exec (.vdivInt u ty d a b) s = .next (pended s u.dunit (qCount a + qCount b) (.vec u d r) t 0) ∧
       ∀ e, e < 2048 / n → el r e n = if ty.uns then el x e n / el y e n else (el x e n).sdiv (el y e n)) ∧
     (∃ r : V2048, exec (.vdivSat u ty d a b) s = .next (pended s u.dunit (qCount a + qCount b) (.vec u d r) t 0) ∧
       ∀ e, e < 2048 / n → el r e n = if ty.uns then el x e n / el y e n
         else if (el x e n).toInt = -(2 : Int) ^ (n - 1) ∧ (el y e n).toInt = -1 then hi
         else (el x e n).sdiv (el y e n))) ∧
   ((∃ e, e < 2048 / n ∧ el y e n = 0) → ∃ (i : TrapInfo) (m : BitVec 32), exec (.vdivInt u ty d a b) s = raise s i ∧
     exec (.vdivSat u ty d a b) s = raise s i ∧ i.cause = .idiv ∧ i.unit = u.unit ∧ i.lanes = some m ∧
     ∀ k, k < 32 → (m.getLsbD k = true ↔ ∃ e, e < 2048 / n ∧ n * e / 64 = k ∧ el y e n = 0))) ∧
  (∀ (s t : State) (i : TrapInfo), raise s i = .next t → t.ctx.bun.trap = some i ∧ t.ctx.i = s.ctx.i ∧ t.ctx.va = s.ctx.va ∧
     t.ctx.vb = s.ctx.vb ∧ t.ctx.a = s.ctx.a ∧ t.ctx.st.fflags = s.ctx.st.fflags ∧
     (s.ctx.handler = false → s.ctx.place.handler ≠ none → SameBytes s t ∧ SameFiles s.ctx t.ctx ∧ t.ctx.due = s.ctx.due ∧
       t.ctx.mem = s.ctx.mem))

/-- Counts, comparisons and bit fields (R113, R116, R118): `clz`, `ctz` and `popc` count in the low `w` bits; `cmp`
compares values of its type into a predicate; `bfx` extracts the field at B[5:0] of B[11:6] + 1 bits cut at bit 63,
`bfi` replaces that field of D. -/
def Obligations.BitFieldResults : Prop :=
  ∀ (w : Width) (ty : XType) (p : BitVec 3) (d : BitVec 5) (a b : Src) (s : State),
  let c := s.ctx
  let x := c.rdI 0 a
  let y := c.rdI (qCount a) b
  let z := c.rdId d
  let pops := qCount a + qCount b
  let ones : List Nat := (List.range w.bits).filter (fun k => x.1.getLsbD k)
  let count (r : Nat) : State := exposed s .i (qCount a) 1 (.int d (BitVec.ofNat 64 r)) x.2 0
  let xw : BitVec ty.w.bits := x.1.setWidth ty.w.bits
  let yw : BitVec ty.w.bits := y.1.setWidth ty.w.bits
  let test (v : Bool) : State := exposed s .i pops 1 (.pred p v) (x.2 ||| y.2) 0
  let pos := y.1.toNat % 64
  let len := min (y.1.toNat / 64 % 64 + 1) (64 - pos)
  exec (.clz w d a) s = .next (count ((ones.getLast?).elim w.bits (fun k => w.bits - 1 - k))) ∧
  exec (.ctz w d a) s = .next (count ((ones.head?).getD w.bits)) ∧
  exec (.popc w d a) s = .next (count ones.length) ∧
  exec (.cmp ty .eq p a b) s = .next (test (decide (xw = yw))) ∧
  exec (.cmp ty .ne p a b) s = .next (test (decide (xw ≠ yw))) ∧
  exec (.cmp ty .lt p a b) s = .next (test (if ty.uns then xw.ult yw else xw.slt yw)) ∧
  exec (.cmp ty .le p a b) s = .next (test (if ty.uns then xw.ule yw else xw.sle yw)) ∧
  (∃ r : W64, exec (.bfx false d a b) s = .next (exposed s .i pops 1 (.int d r) (x.2 ||| y.2) 0) ∧
    ∀ k, k < 64 → r.getLsbD k = (decide (k < len) && x.1.getLsbD (pos + k))) ∧
  (∃ r : W64, exec (.bfx true d a b) s = .next (exposed s .i pops 1 (.int d r) (x.2 ||| y.2) 0) ∧
    ∀ k, k < 64 → r.getLsbD k = x.1.getLsbD (pos + min k (len - 1))) ∧
  (∃ r : W64, exec (.bfi d a b) s = .next (exposed s .i pops 1 (.int d r) (x.2 ||| y.2 ||| z.2) 0) ∧
    ∀ k, k < 64 → r.getLsbD k = if pos ≤ k ∧ k < pos + len then x.1.getLsbD (k - pos) else z.1.getLsbD k)

/-- Scalar floating point (R39, R42, R44, R119 to R121): each operation takes the low bits of its sources as codes and
places what the model's operation on codes gives in the mode of the issuing bundle (`fAdd`, `fSub`, `fMul`, `fFma`,
`fDiv`, `fSqrt`, and `cvtScalar` for a conversion) at its latency with its flags, `fdiv` and `fsqrt` as full/empty
results; `ffma` reads D as the addend. A NaN operand gives the canonical NaN, and NV only when one signals; an
infinity less itself, 0 times an infinity, 0/0, an infinity over an infinity and the root of a value below zero give
the canonical NaN and NV, a nonzero value over zero a signed infinity and DZ, the root of -0 gives -0. `fmin` and
`fmax` give the lesser or greater operand with -0 below +0, the other operand for one NaN; `fcmp` sets the one bit of
the relation that holds. That `ffma` raises NV for an infinity times 0 with a quiet NaN as its addend is the model's choice
(log entry 115). -/
def Obligations.ScalarFloatResults : Prop :=
  ∀ (f : FType) (rs : RSel) (k1 k2 : CvtCode) (d : BitVec 5) (a b : Src) (s : State),
  let c := s.ctx
  let x := (c.rdI 0 a).1.toNat % 2 ^ f.wd
  let y := (c.rdI (qCount a) b).1.toNat % 2 ^ f.wd
  let z := (c.rdId d).1.toNat % 2 ^ f.wd
  let t := (c.rdI 0 a).2 ||| (c.rdI (qCount a) b).2
  let rm : Rm := Rm.ofField c.st.rm
  let n := qCount a + qCount b
  let put (lat : Nat) (t : Taint) (r : Nat × BitVec 5) : State := exposed s .i n lat (.int d (BitVec.ofNat 64 r.1)) t r.2
  let late (n : Nat) (t : Taint) (r : Nat × BitVec 5) : State := pended s .i n (.int d (BitVec.ofNat 64 r.1)) t r.2
  let nan (v : Nat) : Prop := (unpack f v).isNan = true
  let inf (v : Nat) : Prop := (unpack f v).isInf = true
  let zero (v : Nat) : Prop := (unpack f v).isZero = true
  let neg (v : Nat) : Bool := (unpack f v).neg
  let quiet (r : Nat × BitVec 5) : Prop := nan x ∨ nan y → r = (f.canon, nvOf f [x, y])
  let invalid (r : Nat × BitVec 5) : Prop := r = (f.canon, 1)
  (∃ r, exec (.fadd f d a b) s = .next (put 4 t r) ∧ r = fAdd f rm x y ∧ quiet r ∧
    (inf x → inf y → neg x ≠ neg y → invalid r)) ∧
  (∃ r, exec (.fsub f d a b) s = .next (put 4 t r) ∧ r = fSub f rm x y ∧ quiet r ∧
    (inf x → inf y → neg x = neg y → invalid r)) ∧
  (∃ r, exec (.fmul f d a b) s = .next (put 4 t r) ∧ r = fMul f rm x y ∧ quiet r ∧
    ((inf x ∧ zero y) ∨ (zero x ∧ inf y) → invalid r)) ∧
  (∃ r, exec (.fdiv f d a b) s = .next (late n t r) ∧ r = fDiv f rm x y ∧ quiet r ∧
    ((inf x ∧ inf y) ∨ (zero x ∧ zero y) → invalid r) ∧
    (zero y → ¬ nan x → ¬ inf x → ¬ zero x →
      r = (f.infBits + (if neg x = neg y then 0 else 2 ^ (f.wd - 1)), 2))) ∧
  (∃ r, exec (.fsqrt f d a) s = .next (late (qCount a) (c.rdI 0 a).2 r) ∧ r = fSqrt f rm x ∧
    (nan x → r = (f.canon, nvOf f [x])) ∧ (¬ nan x → neg x = true → ¬ zero x → invalid r) ∧ (zero x → r = (x, 0))) ∧
  (∃ r, exec (.ffma f d a b) s = .next (put 4 (t ||| (c.rdId d).2) r) ∧ r = fFma f rm false false x y z ∧
    (nan x ∨ nan y → r = (f.canon, nvOf f [x, y, z])) ∧ ((inf x ∧ zero y) ∨ (zero x ∧ inf y) → invalid r) ∧
    (nan z → ¬ (inf x ∧ zero y) → ¬ (zero x ∧ inf y) → r = (f.canon, nvOf f [x, y, z]))) ∧
  (∃ r, exec (.fmin f d a b) s = .next (put 2 t r) ∧ r.2 = nvOf f [x, y] ∧ (nan x → nan y → r.1 = f.canon) ∧
    (nan x → ¬ nan y → r.1 = y) ∧ (¬ nan x → nan y → r.1 = x) ∧ (¬ nan x → ¬ nan y → (r.1 = x ∨ r.1 = y) ∧
      (Below f x y → r.1 = x) ∧ (Below f y x → r.1 = y) ∧
      (¬ Below f x y → ¬ Below f y x → neg r.1 = (neg x || neg y)))) ∧
  (∃ r, exec (.fmax f d a b) s = .next (put 2 t r) ∧ r.2 = nvOf f [x, y] ∧ (nan x → nan y → r.1 = f.canon) ∧
    (nan x → ¬ nan y → r.1 = y) ∧ (¬ nan x → nan y → r.1 = x) ∧ (¬ nan x → ¬ nan y → (r.1 = x ∨ r.1 = y) ∧
      (Below f x y → r.1 = y) ∧ (Below f y x → r.1 = x) ∧
      (¬ Below f x y → ¬ Below f y x → neg r.1 = (neg x && neg y)))) ∧
  (∃ r, exec (.fcmp f d a b) s = .next (put 2 t r) ∧ r.2 = nvOf f [x, y] ∧ (nan x ∨ nan y → r.1 = 8) ∧
    (¬ nan x → ¬ nan y → (Below f x y → r.1 = 1) ∧ (Below f y x → r.1 = 4) ∧
      (¬ Below f x y → ¬ Below f y x → r.1 = 2))) ∧
  (∃ r : W64 × BitVec 5, exec (.fcvt rs k1 k2 d a) s = .next (exposed s .i (qCount a) 4 (.int d r.1) (c.rdI 0 a).2 r.2) ∧
    r = cvtScalar (rs.mode rm) k1 k2 (c.rdI 0 a).1.toNat ∧
    (∀ (g : FType) (uns : Bool) (w : Nat), cvtSplit k1 = .inr g → cvtSplit k2 = .inl (uns, w) →
      (unpack g ((c.rdI 0 a).1.toNat % 2 ^ g.wd)).isNan = true → r = (0, 1)) ∧
    (∀ g h : FType, cvtSplit k1 = .inr g → cvtSplit k2 = .inr h →
      (unpack g ((c.rdI 0 a).1.toNat % 2 ^ g.wd)).isNan = true →
      r = (BitVec.ofNat 64 h.canon, nvOf g [(c.rdI 0 a).1.toNat % 2 ^ g.wd])))

/-- Addition, subtraction and multiplication are exact where they can be (R37, R40, R41, R119): when the exact sum,
difference or product of two finite codes is itself a nonzero value of the format, then in every rounding mode the
result has exactly that value and no flag is raised. -/
def Obligations.FloatExactWhenRepresentable : Prop :=
  ∀ (f : FType) (rm : Rm) (x y z : Nat) (vx vy vz : ℚ), codeVal f x = some vx → codeVal f y = some vy →
  codeVal f z = some vz → vz ≠ 0 →
  (vx + vy = vz → codeVal f (fAdd f rm x y).1 = some vz ∧ (fAdd f rm x y).2 = 0) ∧
  (vx - vy = vz → codeVal f (fSub f rm x y).1 = some vz ∧ (fSub f rm x y).2 = 0) ∧
  (vx * vy = vz → codeVal f (fMul f rm x y).1 = some vz ∧ (fMul f rm x y).2 = 0)

/-! ### Vectors -/

/-- Integer vector operations (R22, R35, R127, R131 to R134): for every unit, width and element, the result's element
is the operation on the elements of both sources as `w`-bit words, an immediate standing in every element; latency 2. -/
def Obligations.VectorIntegerResults : Prop :=
  ∀ (u : VUnit) (w : Width) (ty : XType) (d : BitVec 5) (a b : Src) (s : State),
  s.ctx.wrongPop u 0 a = false → s.ctx.wrongPop u (qCount a) b = false →
  let c := s.ctx
  let n := w.bits
  let x (m : Nat) : V2048 := (c.rdV u m 0 a).1
  let y (m : Nat) : V2048 := (c.rdV u m (qCount a) b).1
  let t (m : Nat) : Taint := (c.rdV u m 0 a).2 ||| (c.rdV u m (qCount a) b).2
  let two (i : Instr) (f : BitVec n → BitVec n → BitVec n) : Prop := ∃ r : V2048,
    exec i s = .next (exposed s u.dunit (qCount a + qCount b) 2 (.vec u d r) (t n) 0) ∧
    ∀ e, e < 2048 / n → el r e n = f (el (x n) e n) (el (y n) e n)
  let one (i : Instr) (f : BitVec n → BitVec n) : Prop := ∃ r : V2048,
    exec i s = .next (exposed s u.dunit (qCount a) 2 (.vec u d r) (c.rdV u n 0 a).2 0) ∧
    ∀ e, e < 2048 / n → el r e n = f (el (x n) e n)
  let k := ty.w.bits
  let val (r : BitVec k) : Int := if ty.uns then (r.toNat : Int) else r.toInt
  let lo : Int := if ty.uns then 0 else -(2 : Int) ^ (k - 1)
  let hi : Int := if ty.uns then (2 : Int) ^ k - 1 else (2 : Int) ^ (k - 1) - 1
  let clamp (v : Int) : Int := if v < lo then lo else if hi < v then hi else v
  let typed (i : Instr) (f : Int → Int → Int) : Prop := ∃ r : V2048,
    exec i s = .next (exposed s u.dunit (qCount a + qCount b) 2 (.vec u d r) (t k) 0) ∧
    ∀ e, e < 2048 / k → el r e k = BitVec.ofInt k (f (val (el (x k) e k)) (val (el (y k) e k)))
  two (.vadd u (.int w) d a b) (fun p q => p + q) ∧ two (.vsub u (.int w) d a b) (fun p q => p - q) ∧
  two (.vmul u (.int w) d a b) (fun p q => p * q) ∧ two (.vand u w d a b) (fun p q => p &&& q) ∧
  two (.vor u w d a b) (fun p q => p ||| q) ∧ two (.vxor u w d a b) (fun p q => p ^^^ q) ∧
  two (.vshl u w d a b) (fun p q => p <<< (q.toNat % n)) ∧ two (.vshr u w d a b) (fun p q => p >>> (q.toNat % n)) ∧
  two (.vsar u w d a b) (fun p q => p.sshiftRight (q.toNat % n)) ∧
  one (.vnot u w d a) (fun p => ~~~p) ∧ one (.vneg u (.int w) d a) (fun p => -p) ∧
  one (.vabs u (.int w) d a) (fun p => if p.msb then -p else p) ∧
  typed (.vaddSat u ty d a b) (fun p q => clamp (p + q)) ∧ typed (.vsubSat u ty d a b) (fun p q => clamp (p - q)) ∧
  typed (.vminInt u ty d a b) (fun p q => min p q) ∧ typed (.vmaxInt u ty d a b) (fun p q => max p q)

/-- IEEE vector operations (R39, R42, R44, R131, R133 to R138): for every element, the operation of its scalar
counterpart on the elements of the sources, in the mode of the issuing bundle; the flags of all elements joined;
`vfma`, `vfms` and `vnfma` read D; `vdiv` and `vsqrt` are full/empty results; `vabs` clears and `vneg` inverts the
sign bit alone. -/
def Obligations.VectorFloatResults : Prop :=
  ∀ (u : VUnit) (f : FType) (d : BitVec 5) (a b : Src) (s : State),
  s.ctx.wrongPop u 0 a = false → s.ctx.wrongPop u (qCount a) b = false →
  let c := s.ctx
  let n := f.wd
  let x : V2048 := (c.rdV u n 0 a).1
  let y : V2048 := (c.rdV u n (qCount a) b).1
  let z : V2048 := (c.rdVd u d).1
  let ta := (c.rdV u n 0 a).2
  let t := ta ||| (c.rdV u n (qCount a) b).2
  let rm : Rm := Rm.ofField c.st.rm
  let each (r : V2048) (fl : BitVec 5) (g : Nat → Nat → Nat → Nat × BitVec 5) : Prop :=
    (∀ e, e < 2048 / n → (el r e n).toNat = (g (el x e n).toNat (el y e n).toNat (el z e n).toNat).1 % 2 ^ n) ∧
    (∀ k, fl.getLsbD k = true ↔ ∃ e, e < 2048 / n ∧
      (g (el x e n).toNat (el y e n).toNat (el z e n).toNat).2.getLsbD k = true)
  let now (i : Instr) (pops lat : Nat) (t : Taint) (g : Nat → Nat → Nat → Nat × BitVec 5) : Prop :=
    ∃ (r : V2048) (fl : BitVec 5), exec i s = .next (exposed s u.dunit pops lat (.vec u d r) t fl) ∧ each r fl g
  let later (i : Instr) (pops : Nat) (t : Taint) (g : Nat → Nat → Nat → Nat × BitVec 5) : Prop :=
    ∃ (r : V2048) (fl : BitVec 5), exec i s = .next (pended s u.dunit pops (.vec u d r) t fl) ∧ each r fl g
  let na := qCount a
  let nb := qCount a + qCount b
  now (.vadd u (.fp f) d a b) nb 4 t (fun p q _ => fAdd f rm p q) ∧
  now (.vsub u (.fp f) d a b) nb 4 t (fun p q _ => fSub f rm p q) ∧
  now (.vmul u (.fp f) d a b) nb 4 t (fun p q _ => fMul f rm p q) ∧
  now (.vfma u f d a b) nb 4 (t ||| (c.rdVd u d).2) (fun p q o => fFma f rm false false p q o) ∧
  now (.vfms u f d a b) nb 4 (t ||| (c.rdVd u d).2) (fun p q o => fFma f rm false true p q o) ∧
  now (.vnfma u f d a b) nb 4 (t ||| (c.rdVd u d).2) (fun p q o => fFma f rm true false p q o) ∧
  now (.vminFp u f d a b) nb 2 t (fun p q _ => fMinMax f false p q) ∧
  now (.vmaxFp u f d a b) nb 2 t (fun p q _ => fMinMax f true p q) ∧
  now (.vabs u (.fp f) d a) na 2 ta (fun p _ _ => (p % 2 ^ (n - 1), 0)) ∧
  now (.vneg u (.fp f) d a) na 2 ta (fun p _ _ => (p ^^^ 2 ^ (n - 1), 0)) ∧
  now (.vrcpe u f d a) na 3 ta (fun p _ _ => fRcpe f p) ∧ now (.vrsqe u f d a) na 3 ta (fun p _ _ => fRsqe f p) ∧
  later (.vdivFp u f d a b) nb t (fun p q _ => fDiv f rm p q) ∧ later (.vsqrt u f d a) na ta (fun p _ _ => fSqrt f rm p)

/-- Comparisons, selection and masks (R128, R129, R139 to R142): a lane's bit of `vcmp` is 1 when every element of the
lane meets the condition; `vsel` takes whole lanes; mask operations act on 32 bits at latency 1; `vmpop` and `vmff`
place the count and the lowest index, 32 for none, in every lane. Moves and lane movements (R22, R143 to R145):
`vmovi` places its immediate in every lane, `vidx` counts up from element 0 of its source, and each movement takes
element `e` of the result from the element of A that its rule names, the counts being lane 0 of B. The flags of a
floating-point `vcmp` are those of its elements' comparisons, joined. An immediate stands in every element at the width of the
word, which is 64 bits for `vsel`, and a count is read from lane 0 of the vector so made: the model's readings (log entries
95 and 30). -/
def Obligations.VectorSelectMoveResults : Prop :=
  (∀ (u : VUnit) (f : FType) (fc : FCond) (ty : XType) (ic : ICond) (m d3 : BitVec 3) (d : BitVec 5) (a b : Src) (s : State),
   let c := s.ctx
   let lane (n : Nat) (k : Nat) (p : Nat → Prop) : Prop := ∀ e, e < 2048 / n → n * e / 64 = k → p e
   let ka := c.rdM u a
   let kb := c.rdM u b
   let ones : List Nat := (List.range 32).filter (fun k => ka.1.getLsbD k)
   let all (v : Nat) (r : V2048) : Prop := ∀ e, e < 32 → (el r e 64).toNat = v
   (s.ctx.wrongPop u 0 a = false → s.ctx.wrongPop u (qCount a) b = false →
     let pops := qCount a + qCount b
     let rd (n : Nat) : (V2048 × V2048) × Taint :=
       (((c.rdV u n 0 a).1, (c.rdV u n (qCount a) b).1), (c.rdV u n 0 a).2 ||| (c.rdV u n (qCount a) b).2)
     (∃ (r : BitVec 32) (fl : BitVec 5),
       exec (.vcmpFp u f fc d3 a b) s = .next (exposed s u.dunit pops 2 (.mask u d3 r) (rd f.wd).2 fl) ∧
       ∀ k, k < 32 → (r.getLsbD k = true ↔ lane f.wd k (fun e =>
         (fCond f fc (el (rd f.wd).1.1 e f.wd).toNat (el (rd f.wd).1.2 e f.wd).toNat).1 = true)) ∧
       ∀ k, fl.getLsbD k = true ↔ ∃ e, e < 2048 / f.wd ∧
         (fCond f fc (el (rd f.wd).1.1 e f.wd).toNat (el (rd f.wd).1.2 e f.wd).toNat).2.getLsbD k = true) ∧
     (∃ r : BitVec 32,
       exec (.vcmpInt u ty ic d3 a b) s = .next (exposed s u.dunit pops 2 (.mask u d3 r) (rd ty.w.bits).2 0) ∧
       ∀ k, k < 32 → (r.getLsbD k = true ↔ lane ty.w.bits k (fun e =>
         let p := el (rd ty.w.bits).1.1 e ty.w.bits
         let q := el (rd ty.w.bits).1.2 e ty.w.bits
         match ic with
         | .eq => p = q
         | .ne => p ≠ q
         | .lt => if ty.uns then p.toNat < q.toNat else p.toInt < q.toInt
         | .le => if ty.uns then p.toNat ≤ q.toNat else p.toInt ≤ q.toInt))) ∧
     (∃ r : V2048,
       exec (.vsel u m d a b) s = .next (exposed s u.dunit pops 2 (.vec u d r) ((rd 64).2 ||| (c.rdSel u (.m m)).2) 0) ∧
       ∀ k, k < 32 → el r k 64 =
         if (c.rdSel u (.m m)).1.getLsbD k then el (rd 64).1.1 k 64 else el (rd 64).1.2 k 64)) ∧
   exec (.vmand u d3 a b) s = .next (exposed s u.dunit 0 1 (.mask u d3 (ka.1 &&& kb.1)) (ka.2 ||| kb.2) 0) ∧
   exec (.vmor u d3 a b) s = .next (exposed s u.dunit 0 1 (.mask u d3 (ka.1 ||| kb.1)) (ka.2 ||| kb.2) 0) ∧
   exec (.vmnot u d3 a) s = .next (exposed s u.dunit 0 1 (.mask u d3 (~~~ka.1)) ka.2 0) ∧
   (∃ r : V2048, exec (.vmpop u d a) s = .next (exposed s u.dunit 0 2 (.vec u d r) ka.2 0) ∧ all ones.length r) ∧
   (∃ r : V2048, exec (.vmff u d a) s = .next (exposed s u.dunit 0 2 (.vec u d r) ka.2 0) ∧
     all ((ones.head?).getD 32) r)) ∧
  (∀ (u : VUnit) (w : Width) (d : BitVec 5) (a b : Src) (imm : BitVec 17) (s : State),
   let c := s.ctx
   let n := w.bits
   let m := 2048 / n
   let x : V2048 := (c.rdV u n 0 a).1
   let y : V2048 := (c.rdV u n (qCount a) b).1
   let t := (c.rdV u n 0 a).2 ||| (c.rdV u n (qCount a) b).2
   let cnt := (el y 0 64).toNat
   let move (i : Instr) (f : Nat → BitVec n) : Prop := ∃ r : V2048,
     exec i s = .next (exposed s u.dunit (qCount a + qCount b) 3 (.vec u d r) t 0) ∧ ∀ e, e < m → el r e n = f e
   (∃ r : V2048, exec (.vmovi u d imm) s = .next (exposed s u.dunit 0 1 (.vec u d r) 0 0) ∧
     ∀ e, e < 32 → el r e 64 = imm.signExtend 64) ∧
   (s.ctx.wrongPop u 0 a = false →
     (∃ r : V2048, exec (.vidx u w d a) s = .next (exposed s u.dunit (qCount a) 2 (.vec u d r) (c.rdV u n 0 a).2 0) ∧
       ∀ e, e < m → el r e n = el x 0 n + BitVec.ofNat n e) ∧
     (s.ctx.wrongPop u (qCount a) b = false →
       move (.vbcast u w d a b) (fun _ => el x (cnt % m) n) ∧
       move (.vperm u w d a b) (fun e => el x ((el y e n).toNat % m) n) ∧
       move (.vrot u w d a b) (fun e => el x ((e + cnt) % m) n) ∧
       move (.vslideDn u w d a b) (fun e => if e + cnt < m then el x (e + cnt) n else 0) ∧
       move (.vslideUp u w d a b) (fun e => if cnt ≤ e then el x (e - cnt) n else 0))) ∧
   (s.ctx.wrongPop u 0 a = true → exec (.vidx u w d a) s = raiseC s .illegal u.unit ∧
     exec (.vbcast u w d a b) s = raiseC s .illegal u.unit))

/-- Conversions and reductions (R39, R43, R57, R58, R146 to R148): `vcvt` converts each element by `cvtFromInt` or
`cvtToInt`; `vpack` narrows every element of A by `narrowElem` into one half of D and keeps the other half, `vunpk`
widens one half of A by `widenElem`; the flags of the elements converted are joined; a `.q` form whose format register
is 0 traps ILLEGAL. A reduction combines the active elements in the tree of R57, an absent operand passing the other
on, and places the one value in every element with the flags of the combinations made: sums modulo 2^w or clamped,
`fAdd` in the mode of the bundle, the greater or lesser value, `fMinMax` on IEEE types; with no active element 0, the
canonical NaN or the type's extreme value. A NaN that has passed the tree without a combination is made canonical and
raises nothing, as no combination was made: the model's reading of R39 and R57 (log entry 99). -/
def Obligations.VectorConversionReductionResults : Prop :=
  ∀ (u : VUnit) (f : FType) (toFp uns hi : Bool) (rs : RSel) (pair : PackPair) (mode : BitVec 2) (fmt : BitVec 4)
    (ty : XType) (w : Width) (d : BitVec 5) (a : Src) (sel : MaskSel) (s : State), s.ctx.wrongPop u 0 a = false →
  let c := s.ctx
  let rm : Rm := Rm.ofField c.st.rm
  let src (n : Nat) : V2048 := (c.rdV u n 0 a).1
  let ts (n : Nat) : Taint := (c.rdV u n 0 a).2
  let wide := packWide pair
  let narrow := packNarrow pair
  let half := 2048 / wide
  let desc := if pair.isNarrow then ((c.s.f[fmt.toNat]?).getD ⟨0, 0⟩).val.toNat else 0
  let prm : Rm := (packSel mode).mode rm
  let joined (fl : BitVec 5) (m : Nat) (g : Nat → BitVec 5) : Prop :=
    ∀ k, k < 5 → (fl.getLsbD k = true ↔ ∃ e, e < m ∧ (g e).getLsbD k = true)
  let cvt (e : Nat) : Nat × BitVec 5 :=
    let p := el (src f.wd) e f.wd
    if toFp then cvtFromInt f (rs.mode rm) (if uns then (p.toNat : Int) else p.toInt)
    else cvtToInt (unpack f p.toNat) (rs.mode rm) uns f.wd
  let narrowed (e : Nat) : Nat × BitVec 5 := narrowElem pair mode prm desc (el (src wide) e wide).toNat
  let widened (e : Nat) : Nat × BitVec 5 :=
    widenElem pair mode prm desc (el (src narrow) (if hi then half + e else e) narrow).toNat
  let levels (n : Nat) : Nat := if n = 64 then 5 else if n = 32 then 6 else if n = 16 then 7 else 8
  let present (n e : Nat) : Option Nat :=
    if (c.rdSel u sel).1.getLsbD (n * e / 64) then some (el (src n) e n).toNat else none
  let tree (n : Nat) (g : Nat → Nat → Nat × BitVec 5) : Option Nat × BitVec 5 := halves g (present n) (levels n) 0
  let reduced (i : Instr) (n lat v : Nat) (fl : BitVec 5) : Prop := ∃ r : V2048,
    exec i s = .next (exposed s u.dunit (qCount a) lat (.vec u d r) (ts n ||| (c.rdSel u sel).2) fl) ∧
    ∀ e, e < 2048 / n → (el r e n).toNat = v
  let ints (i : Instr) (n none : Nat) (g : Nat → Nat → Nat) : Prop :=
    reduced i n 4 ((tree n (fun p q => (g p q, 0))).1.getD none) 0
  let floats (i : Instr) (lat none : Nat) (g : Nat → Nat → Nat × BitVec 5) : Prop :=
    let v := (tree f.wd g).1.getD none
    reduced i f.wd lat (if (unpack f v).isNan then f.canon else v) (tree f.wd g).2
  let k := ty.w.bits
  (∃ (r : V2048) (fl : BitVec 5),
    exec (.vcvt u f toFp uns rs d a) s = .next (exposed s u.dunit (qCount a) 4 (.vec u d r) (ts f.wd) fl) ∧
    joined fl (2048 / f.wd) (fun e => (cvt e).2) ∧
    ∀ e, e < 2048 / f.wd → (el r e f.wd).toNat = (cvt e).1 % 2 ^ f.wd) ∧
  (pair.isNarrow = true → desc = 0 → exec (.vpack u pair hi mode fmt d a) s = raiseC s .illegal u.unit ∧
    exec (.vunpk u pair hi mode fmt d a) s = raiseC s .illegal u.unit) ∧
  ((pair.isNarrow = true → desc ≠ 0) →
    (∃ (r : V2048) (fl : BitVec 5), exec (.vpack u pair hi mode fmt d a) s =
        .next (exposed s u.dunit (qCount a) 4 (.vec u d r) (ts wide ||| (c.rdVd u d).2) fl) ∧
      joined fl half (fun e => (narrowed e).2) ∧
      (∀ e, e < half → (el r (if hi then half + e else e) narrow).toNat = (narrowed e).1 % 2 ^ narrow) ∧
      ∀ e, e < half → el r (if hi then e else half + e) narrow = el (c.rdVd u d).1 (if hi then e else half + e) narrow) ∧
    (∃ (r : V2048) (fl : BitVec 5), exec (.vunpk u pair hi mode fmt d a) s =
        .next (exposed s u.dunit (qCount a) 4 (.vec u d r) (ts narrow) fl) ∧
      joined fl half (fun e => (widened e).2) ∧ ∀ e, e < half → (el r e wide).toNat = (widened e).1 % 2 ^ wide)) ∧
  ints (.vredsum u (.int w) d a sel) w.bits 0 (fun p q => (p + q) % 2 ^ w.bits) ∧
  ints (.vredsumSat u ty d a sel) k 0 (fun p q => clamped ty.uns k (intOf ty.uns k p + intOf ty.uns k q)) ∧
  ints (.vredmaxInt u ty d a sel) k (if ty.uns then 0 else 2 ^ (k - 1))
    (fun p q => if intOf ty.uns k p ≤ intOf ty.uns k q then q else p) ∧
  ints (.vredminInt u ty d a sel) k (if ty.uns then 2 ^ k - 1 else 2 ^ (k - 1) - 1)
    (fun p q => if intOf ty.uns k p ≤ intOf ty.uns k q then p else q) ∧
  floats (.vredsum u (.fp f) d a sel) 8 0 (fAdd f rm) ∧
  floats (.vredmaxFp u f d a sel) 4 f.canon (fMinMax f true) ∧ floats (.vredminFp u f d a sel) 4 f.canon (fMinMax f false)

/-- Wide sums (R54 to R56, R150 to R153): `wsadd` queues, to land at latency 4, the exact sum of the finite active
elements in units of the sum's lowest bit, the status bits of the NaNs and infinities among them, and NV when one
signals; `wsrnd` places the value of R56 in every element, `roundZ` rounding the sum in its mode; `wsclr` and the moves
place images whose reserved status bits are 0; `wsmov.pop` of an entry that is no wide sum traps ILLEGAL. Kitty words
(R295 to R299): `kdef` of the active lanes writes one 48-byte entry for
each at the tail, in lane order, counts them and joins their taint sets to the kitty's; with no active lane it does
nothing, and beyond CAP it traps KITTY; `ktake` takes up to 32 entries from the head and places header, values and mask
as one result; a region outside the scratchpad traps BOUND; `kcnt` places COUNT in every lane. That `wsmov` reads an immediate as a
vector of 64-bit elements, and that reserved bits of a moved sum are cleared, are the model's readings (log entries 95 and
100). -/
def Obligations.WideSumKittyResults : Prop :=
  (∀ (u : VUnit) (ty : WsAddTy) (tr : WsRndTy) (w : BitVec 2) (d : BitVec 5) (a : Src) (sel : MaskSel) (rs : RSel) (s : State),
   let c := s.ctx
   let x := c.rdW u a
   let rm : Rm := Rm.ofField c.st.rm
   let q := c.lqVal u.dunit 0
   let n := ty.elem.wd
   let elm (e : Nat) : Nat := (el (c.rdV u n 0 a).1 e n).toNat
   let act (e : Nat) : Prop := e < 2048 / n ∧ (c.rdSel u sel).1.getLsbD (n * e / 64) = true
   let bits : Nat := if tr.ws64 then 2296 else 376
   let lowest : Nat := if tr.ws64 then 1074 else 149
   let set (k : Nat) : Bool := x.1.getLsbD (bits + k)
   let t := tr.target
   let rounded : Nat × BitVec 5 :=
     if set 2 || (set 0 && set 1) then (t.canon, 0) else if set 0 then (t.infBits, 0)
     else if set 1 then (t.infBits + 2 ^ (t.wd - 1), 0) else if set 3 then (t.canon, 1)
     else roundZ t (rs.mode rm) (x.1.extractLsb' 0 bits).toInt (-(lowest : Int)) false
   (s.ctx.wrongPop u 0 a = false → ∃ (inc : Int) (st : BitVec 8) (fl : BitVec 5), exec (.wsadd u ty w a sel) s =
     .next (s.onCtx (fun c => (c.popLq u.dunit (qCount a)).putDue 4 [.wsinc u w ty.ws64 inc st]
       ((c.rdV u n 0 a).2 ||| (c.rdSel u sel).2) fl)) ∧
     (inc : ℚ) = (((List.range (2048 / n)).filter (fun e => (c.rdSel u sel).1.getLsbD (n * e / 64))).map
       (fun e => ((codeVal ty.elem (elm e)).getD 0) * 2 ^ (if ty.ws64 then 1074 else 149))).sum ∧
     (st.getLsbD 2 = true ↔ ∃ e, act e ∧ (unpack ty.elem (elm e)).isNan = true) ∧
     (st.getLsbD 0 = true ↔ ∃ e, act e ∧ unpack ty.elem (elm e) = .inf false) ∧
     (st.getLsbD 1 = true ↔ ∃ e, act e ∧ unpack ty.elem (elm e) = .inf true) ∧ st.toNat < 8 ∧
     ((∃ e, act e ∧ (unpack ty.elem (elm e)).isSnan = true) → fl = 1) ∧
     ((∀ e, act e → (unpack ty.elem (elm e)).isSnan = false) → fl = 0)) ∧
   (∃ r : V2048, exec (.wsrnd u tr d a rs) s = .next (exposed s u.dunit 0 6 (.vec u d r) x.2 rounded.2) ∧
     ∀ e, e < 2048 / t.wd → (el r e t.wd).toNat = rounded.1 % 2 ^ t.wd) ∧
   exec (.wsclr u w) s = .next (exposed s u.dunit 0 1 (.wsum u w 0) 0 0) ∧
   (s.ctx.wrongPop u 0 a = false → exec (.wsmovW u w a) s = .next (exposed s u.dunit (qCount a) 2
     (.wsum u w (((c.rdV u 64 0 a).1.extractLsb' 0 380).setWidth 2304)) (c.rdV u 64 0 a).2 0)) ∧
   exec (.wsmovV u d a) s = .next (exposed s u.dunit 0 2 (.vec u d ((x.1.extractLsb' 0 380).setWidth 2048)) x.2 0) ∧
   exec (.wsmov u w a) s = .next (exposed s u.dunit 0 2 (.wsum u w ((x.1.extractLsb' 0 2300).setWidth 2304)) x.2 0) ∧
   (q.1.isWide = true → exec (.wsmovPop u w) s = .next (exposed s u.dunit 1 2
     (.wsum u w ((q.1.wide.extractLsb' 0 (if q.1.isW64 then 2300 else 380)).setWidth 2304)) q.2 0)) ∧
   (q.1.isWide = false → exec (.wsmovPop u w) s = raiseC s .illegal u.unit) ∧
   (s.ctx.wrongPop u 0 a = true → exec (.wsadd u ty w a sel) s = raiseC s .illegal u.unit ∧
     exec (.wsmovW u w a) s = raiseC s .illegal u.unit)) ∧
  (∀ (u : VUnit) (cnt kt : BitVec 2) (path m : BitVec 3) (d : BitVec 5) (a : Src) (sel : MaskSel) (s : State),
   let c := s.ctx
   let k : Kitty := (c.st.kitty[kt.toNat]?).getD ⟨0, 0, 0, 0, 0⟩
   let act := (c.rdSel u sel).1
   let lanes : List Nat := (List.range 32).filter (fun i => act.getLsbD i)
   let outside : Option Nat := c.firstOutside (48 * k.base) (48 * k.cap)
   let at_ (j : Nat) : Nat := 48 * (k.base + j % k.cap)
   let joined : Taint := orT ((List.range (cnt.toNat + 1)).map (fun r => (c.kdefSrc u a r).2)) ||| (c.rdSel u sel).2
   (act = 0 → exec (.kdef u cnt kt path a sel) s = .next s) ∧
   (∀ o, outside = some o → exec (.ktake u cnt kt d m) s = raiseLa s u.unit o ∧
     (act ≠ 0 → exec (.kdef u cnt kt path a sel) s = raiseLa s u.unit o)) ∧
   (act ≠ 0 → outside = none → k.cap < k.count + lanes.length → ∃ i : TrapInfo, i.cause = .kitty ∧ i.lanes = some act ∧
     exec (.kdef u cnt kt path a sel) s = raise s i) ∧
   (act ≠ 0 → outside = none → k.count + lanes.length ≤ k.cap → Memory.wf s.core.la = true → ∃ t : State, exec (.kdef u cnt kt path a sel) s = .next t ∧
     t.ctx.st.kitty = c.st.kitty.setIfInBounds kt.toNat
       { k with count := k.count + lanes.length, taint := k.taint ||| joined } ∧
     SameFiles c t.ctx ∧ t.ctx.due = c.due ∧ t.mem = s.mem ∧
     (∀ j, (hj : j < lanes.length) → Memory.read t.core.la (at_ (k.head + k.count + j)) 48 =
       kittyEntry lanes[j] path.toNat ((List.range (cnt.toNat + 1)).map (fun r =>
         (el (c.kdefSrc u a r).1 lanes[j] 64).toNat))) ∧
     (∀ o, (∀ j, j < lanes.length → ¬ (at_ (k.head + k.count + j) ≤ o ∧ o < at_ (k.head + k.count + j) + 48)) →
       Memory.get t.core.la o = Memory.get s.core.la o)) ∧
   (outside = none → let n := min k.count 32
     ∃ (ws : List RegWrite) (k2 : Kitty), exec (.ktake u cnt kt d m) s = .next (s.onCtx (fun c =>
       { c.putDue 6 ws k.taint 0 with st := { c.st with kitty := c.st.kitty.setIfInBounds kt.toNat k2 } })) ∧
     ws.length = cnt.toNat + 3 ∧ ws.getLast? = some (.mask u m (BitVec.ofNat 32 (2 ^ n - 1))) ∧ k2.count = k.count - n ∧
     k2.head = (if n = 0 then k.head else (k.head + n) % k.cap) ∧
     k2.base = k.base ∧ k2.cap = k.cap ∧ (k2.count = 0 → k2.taint = 0) ∧ (k2.count ≠ 0 → k2.taint = k.taint) ∧
     (
       let ent (j : Nat) : Nat := bytesToNat (Memory.read s.core.la (at_ (k.head + j)) 48)
       (∃ h : V2048, ws[0]? = some (.vec u d h) ∧
         ∀ j, j < 32 → (el h j 64).toNat = if j < n then ent j % 2 ^ 16 else 0) ∧
       ∀ r, r ≤ cnt.toNat → ∃ v : V2048, ws[r + 1]? = some (.vec u (d + BitVec.ofNat 5 (r + 1)) v) ∧
         ∀ j, j < 32 → (el v j 64).toNat = if j < n then ent j / 2 ^ (64 + 64 * r) % 2 ^ 64 else 0)) ∧
   (∃ r : V2048, exec (.kcnt u d kt) s = .next (exposed s u.dunit 0 2 (.vec u d r) k.taint 0) ∧
     ∀ e, e < 32 → (el r e 64).toNat = k.count % 2 ^ 64))

/-- Adding to a wide sum is exact and the order does not matter (R55): for increments and a sum whose results stay in
range, landing two increments in either order gives one image, whose value is the sum of the three and whose status
bits are those of the three joined. -/
def Obligations.WideSumOrderFree : Prop :=
  ∀ (ws64 : Bool) (x : Nat) (i j : Int) (p q : Nat),
  let half : Int := 2 ^ (if ws64 then 2295 else 375)
  let inside (v : Int) : Prop := -half ≤ v ∧ v < half
  inside (wsF ws64 x + i) → inside (wsF ws64 x + j) → inside (wsF ws64 x + i + j) →
  p < 16 → q < 16 →
  wsStatus ws64 (wsAddInc ws64 (wsAddInc ws64 x i p) j q) = (wsStatus ws64 x ||| p ||| q) ∧
  wsAddInc ws64 (wsAddInc ws64 x i p) j q = wsAddInc ws64 (wsAddInc ws64 x j q) i p ∧
  wsF ws64 (wsAddInc ws64 (wsAddInc ws64 x i p) j q) = wsF ws64 x + i + j

/-! ### Matrix, tables, cards at issue -/

/-- M operations at issue (R161, R163, R164, R168, R173, R176, R178 to R180, R247): a word whose tiles the context
owns and whose rows lie in its scratchpad joins the tail of the M queue with what it reads, its tiles become empty,
and a done bit it will set is cleared with BUSY in its status; a tile not owned traps PERM, an odd pair ILLEGAL, a row
outside BOUND, an `mstat` place that is no multiple of 48 bytes ALIGN; a pass whose formats, kind or steps are not
allowed traps ILLEGAL, one whose grist lies outside the context's window BOUND. -/
def Obligations.MatrixIssueResults : Prop :=
  ∀ (z : BitVec 5) (sd nb : BitVec 3) (gp : BitVec 2) (cp : BitVec 8) (f pair : Bool) (db : BitVec 6) (s : State),
  db.toNat < 60 →
  let c := s.ctx
  let d := c.sd sd
  let tiles (p : Bool) : List Nat := if p then [z.toNat, z.toNat + 1] else [z.toNat]
  let owned (p : Bool) : Prop := ∀ k ∈ tiles p, k < 32 ∧ c.place.zown.getLsbD k = true
  let even (p : Bool) : Prop := p = true → z.toNat % 2 = 0
  let queued (i : Instr) (op : MOp) (t : Taint) (zs : List Nat) (done : Option Nat) : Prop := ∃ u, exec i s = .next u ∧
    u.ctx.mem.mq = c.mem.mq ++ [⟨op, t ||| c.path, c.mem.aseq, none⟩] ∧ u.ctx.mem.aseq = c.mem.aseq + 1 ∧
    (∀ k, k < 32 → (u.core.tiles[k]?).map (fun (t : Tile) => (t.full, t.val, t.taint)) =
      (s.core.tiles[k]?).map (fun (t : Tile) => (if zs.contains k then false else t.full, t.val, t.taint))) ∧
    (∀ k, done = some k → u.ctx.c.done.getLsbD k = false ∧ u.ctx.st.jstat[k]? = some 0x2000 ∧
      u.ctx.st.dfault.getLsbD k = false) ∧
    u.ctx.i = c.i ∧ u.ctx.a = c.a ∧ u.ctx.va = c.va ∧ u.ctx.vb = c.vb ∧ SameBytes s u
  let outside (stride rows : Nat) (p : Bool) : Option Nat :=
    c.rowsOutside (sdBase d.1) stride (if p then 256 else 128) rows
  let inside (stride rows : Nat) (p : Bool) : Prop := outside stride rows p = none
  let form : MwForm := if pair then .pair else .single
  (owned pair → even pair → queued (.mzero pair z) (.zero z.toNat pair) 0 (tiles pair) none) ∧
  (owned pair → even pair → inside (sdStride d.1) 32 pair → queued (.mread pair z sd db)
    (.read z.toNat pair (sdBase d.1) (sdStride d.1) db.toNat) d.2 (tiles pair) (some db.toNat)) ∧
  (owned pair → even pair → inside (sdStride d.1) 32 pair →
    queued (.mwrite form z sd db) (.write z.toNat form (sdBase d.1) (sdStride d.1) db.toNat d.2) d.2 (tiles pair)
      (some db.toNat)) ∧
  (owned false → inside 0 1 false → queued (.mwrite .bc z sd db)
    (.write z.toNat .bc (sdBase d.1) (sdStride d.1) db.toNat d.2) d.2 (tiles false) (some db.toNat)) ∧
  (sdBase d.1 % 3 = 0 → c.firstOutside (16 * sdBase d.1) 48 = none →
    queued (.mstat sd db) (.stat (sdBase d.1) db.toNat) d.2 [] (some db.toNat)) ∧
  (¬ owned pair → exec (.mzero pair z) s = raiseC s .perm .M ∧ exec (.mread pair z sd db) s = raiseC s .perm .M ∧
    exec (.mwrite form z sd db) s = raiseC s .perm .M) ∧
  (¬ owned false → exec (.mwrite .bc z sd db) s = raiseC s .perm .M) ∧
  (owned true → z.toNat % 2 = 1 → exec (.mzero true z) s = raiseC s .illegal .M ∧
    exec (.mread true z sd db) s = raiseC s .illegal .M ∧ exec (.mwrite .pair z sd db) s = raiseC s .illegal .M) ∧
  (∀ o, owned pair → even pair → outside (sdStride d.1) 32 pair = some o → exec (.mread pair z sd db) s = raiseLa s .M o ∧
    exec (.mwrite form z sd db) s = raiseLa s .M o) ∧
  (∀ o, owned false → outside 0 1 false = some o → exec (.mwrite .bc z sd db) s = raiseLa s .M o) ∧
  (sdBase d.1 % 3 ≠ 0 → ∃ i : TrapInfo, i.cause = .align ∧ exec (.mstat sd db) s = raise s i) ∧
  (∀ o, sdBase d.1 % 3 = 0 → c.firstOutside (16 * sdBase d.1) 48 = some o → exec (.mstat sd db) s = raiseLa s .M o) ∧
  (let g : TV (BitVec 32) := (c.m.gp[gp.toNat]?).getD ⟨0, 0⟩
   let fa : TV (BitVec 32) := (c.s.f[sdAfmt d.1]?).getD ⟨0, 0⟩
   let fb : TV (BitVec 32) := (c.s.f[sdBfmt d.1]?).getD ⟨0, 0⟩
   let qa : TV (BitVec 512) := (c.s.q[sdQa d.1]?).getD ⟨0, 0⟩
   let qb : TV (BitVec 512) := (c.s.q[sdQb d.1]?).getD ⟨0, 0⟩
   let aq := sdAtype d.1 == 12
   let bq := sdBtype d.1 == 12
   let is64 := sdAtype d.1 == 11 && sdBtype d.1 == 11
   let off := g.val.toNat % 2 ^ 13
   let blocks := nb.toNat + 1
   let formats : Prop := (aq = true → fa.val ≠ 0) ∧ (bq = true → fb.val ≠ 0)
   let kind := passKind (sdAtype d.1) fa.val.toNat (sdBtype d.1) fb.val.toNat
   let steps (k : PassKind) : Prop :=
     (k = .f64 → z.toNat % 2 = 0) ∧ ∀ j, j < 4 → stepOk k (aq && bq) (cpStep cp.toNat j) = true
   let rows := c.rowsOutside (sdBase d.1) (sdStride d.1) (8 * opSw (sdAtype d.1) fa.val.toNat * blocks) 32
   let window : Prop := c.place.gLo ≤ off ∧ off + blocks * opSw (sdBtype d.1) fb.val.toNat / 4 ≤ c.place.gHi
   let t := d.2 ||| g.taint ||| (if sdQen d.1 then qa.taint ||| qb.taint else 0) ||| (if aq then fa.taint else 0) |||
     (if bq then fb.taint else 0)
   let i := Instr.mpass z sd gp cp nb f
   (¬ owned is64 → exec i s = raiseC s .perm .M) ∧
   (owned is64 → ¬ formats → exec i s = raiseC s .illegal .M) ∧
   (owned is64 → formats → kind = none → exec i s = raiseC s .illegal .M) ∧
   ∀ k, owned is64 → formats → kind = some k →
     (¬ steps k → exec i s = raiseC s .illegal .M) ∧
     (∀ o, steps k → rows = some o → exec i s = raiseLa s .M o) ∧
     (steps k → rows = none → ¬ window → exec i s = raiseC s .bound .M) ∧
     (steps k → rows = none → window → queued i
       (.pass z.toNat k.num nb.toNat cp.toNat f d.1 off fa.val fb.val qa.val qb.val t) d.2 (tiles is64) none))

/-- Descriptors, grist pointers, formats and scales (R181, R182, R184 to R190): each is an exposed result of latency
1, 6 for `sld`, that replaces the fields its word names and keeps the others; `gset.add` adds modulo 8,192; `sld`
outside the context's scratchpad traps BOUND. `kset` while no sweep is active (R212, R213, R244): words and
capabilities of a job card, and kc and kx registers, as exposed results of latency 1, `kset.bnd` 2 and rounding
inward, `kset.lc` 6 from the core's own array. -/
def Obligations.TableWordResults : Prop :=
  (∀ (sd : BitVec 3) (v : BitVec 16) (aty af bty bf qa qb f q : BitVec 4) (qen valid fmt : Bool) (gp : BitVec 2)
     (off : BitVec 13) (unit : BitVec 17) (n : BitVec 5) (tr : Bool) (s : State),
   let c := s.ctx
   let d := (c.sd sd).1
   let g : TV (BitVec 32) := (c.m.gp[gp.toNat]?).getD ⟨0, 0⟩
   let put (lat : Nat) (w : RegWrite) (t : Taint) : State := s.onCtx (fun c => c.putDue lat [w] t 0)
   let sets (i : Instr) (r : BitVec 256) : Prop := exec i s = .next (put 1 (.sd sd r) (c.sd sd).2)
   sets (.msetBase sd v) (d.extractLsb' 16 240 ++ v) ∧
   sets (.msetStride sd v) (d.extractLsb' 32 224 ++ v ++ d.extractLsb' 0 16) ∧
   sets (.msetFmt sd aty af bty bf) (d.extractLsb' 48 208 ++ (bf ++ bty ++ af ++ aty) ++ d.extractLsb' 0 32) ∧
   sets (.msetScale sd qa qb qen) (d.extractLsb' 57 199 ++ (BitVec.ofBool qen ++ qb ++ qa) ++ d.extractLsb' 0 48) ∧
   exec (.gset gp off) s = .next (put 1 (.gp gp (off.setWidth 32)) 0) ∧
   exec (.gsetAdd gp off) s = .next (put 1 (.gp gp ((g.val.setWidth 13 + off).setWidth 32)) g.taint) ∧
   exec (.fset f valid v) s = .next (put 1 (.fmt f (BitVec.ofBool valid ++ 0#15 ++ v)) 0) ∧
   (∃ r : BitVec 512, exec (.sset q v) s = .next (put 1 (.scale q r) 0) ∧ ∀ k, k < 32 → r.extractLsb' (16 * k) 16 = v) ∧
   (c.firstOutside (16 * unit.toNat) 64 = none → ∃ r : BitVec 512, exec (.sld q unit) s = .next (put 6 (.scale q r) 0) ∧
     r.toNat = bytesToNat (Memory.read s.core.la (16 * unit.toNat) 64)) ∧
   (∀ o, c.firstOutside (16 * unit.toNat) 64 = some o → exec (.sld q unit) s = raiseLa s .S o) ∧
   exec (.sclr fmt q) s = .next (put 1 (if fmt then .fmt q 0 else .scale q 0) 0) ∧
   (n.toNat < 16 →
     let fr : TV (BitVec 32) := (c.s.f[n.toNat]?).getD ⟨0, 0⟩
     let qr : TV (BitVec 512) := (c.s.q[n.toNat]?).getD ⟨0, 0⟩
     exec (.smov true q (.main n tr)) s = .next (put 1 (.fmt q fr.val) fr.taint) ∧
     exec (.smov false q (.main n tr)) s = .next (put 1 (.scale q qr.val) qr.taint))) ∧
  (∀ (j : BitVec 3) (k : BitVec 2) (dst : Bool) (d4 : BitVec 4) (d5 : BitVec 5) (a b : Src) (s : State),
   s.sweep.active = false →
   let c := s.ctx
   let x := c.rdKx b
   let v := c.rdKc a
   let put (lat : Nat) (w : RegWrite) (t : Taint) : State := s.onCtx (fun c => c.putDue lat [w] t 0)
   let top := v.1.cursor + x.1.toNat
   exec (.ksetW j k b) s = .next (put 1 (.kjWord j k x.1) x.2) ∧
   exec (.ksetC j dst b) s = .next (put 1 (.kjSlot j dst (c.rdKc b).1) (c.rdKc b).2) ∧
   exec (.ksetAdd d5 a b) s = .next (put 1 (.kx d5 ((c.rdKx a).1 + x.1)) ((c.rdKx a).2 ||| x.2)) ∧
   (∃ r : CapV, exec (.ksetCur d4 a b) s = .next (put 1 (.kc d4 r) (v.2 ||| x.2)) ∧ r.tag = v.1.tag ∧
     r.cursor = x.1.toNat % 2 ^ 40 ∧ r.bits >>> 40 = v.1.bits >>> 40) ∧
   (v.1.tag = true → v.1.base ≤ v.1.cursor → top ≤ v.1.top → top ≤ 2 ^ 40 →
     ∃ r : CapV, exec (.ksetBnd d4 a b) s = .next (put 2 (.kc d4 r) (v.2 ||| x.2)) ∧ r.tag = true ∧
       r.perms = v.1.perms ∧ (r.base < r.top → v.1.cursor ≤ r.base ∧ r.top ≤ top)) ∧
   (v.1.tag = false → exec (.ksetBnd d4 a b) s = raiseCap s .K .untag v.1) ∧
   (∀ (e : BufEntry) (o : Nat), s.accCheck v.1 x.1.toInt 16 9 16 = .ok (e, o) → e.isOwn s.core.num = true →
     ∃ r : CapV, exec (.ksetLc d4 a b) s = .next (put 6 (.kc d4 r) (v.2 ||| x.2)) ∧
       r.bits.toNat = bytesToNat (Memory.read s.core.la (48 * e.loff + o) 16) ∧
       (e.shared = true → r.tag = false)))

/-- Cards at issue (R245 to R250, R380, R381): when the checks pass, the card joins the tail of the dependency table
with the fields of its kj register and its footprints, its done bit and done-fault bit are cleared and BUSY is set in
its status; nothing is copied yet. `kcoll`, `kstat`, `kpf` and `kcan` (R251 to R253, R373, R374, R379): a job with
legal fields, a valid group of the ASID with no job outstanding and a step above its last, and sides that pass, opens
the group's job and joins the dependency table; `kstat` issues a store of 8 bytes of the status register; a prefetch
changes no extent counter, one into the L2 or the memory-side cache nothing but that cache, a dropped one counts in
sy.hintdrop; `kcan` without such a card
does nothing, and a `kcopy`, `kfill` or `kmc` that it names leaves the table with its done bit set. -/
def Obligations.CardIssueResults : Prop :=
  (∀ (j : BitVec 3) (db : BitVec 6) (n : BitVec 5) (fence tags : Bool) (s : State) (se de te : BufEntry)
     (ds : List (CapV × BufEntry)), db.toNat < 60 →
   let c := s.ctx
   let jc := (c.kj j).1
   let fs := ((c.s.f[jc.sfmt]?).getD ⟨0, 0⟩).val.toNat
   let fd := ((c.s.f[jc.dfmt]?).getD ⟨0, 0⟩).val.toNat
   let row := jc.wbytes fs fd
   let ns := (jc.rows - 1) * jc.sstride + jc.rbytes
   let nd := (jc.rows - 1) * jc.dstride + row
   let strides : Bool := !tags || (jc.sstride % 16 == 0 && jc.rbytes % 16 == 0)
   let rd := s.footprint se jc.src.index jc.src.cursor ns
   let wr := s.footprint de jc.dst.index jc.dst.cursor nd
   let joins (i : Instr) (reads writes : List Footprint) : Prop := ∃ (u : State) (k : Card), exec i s = .next u ∧
     u.core.cards = s.core.cards ++ [k] ∧ k.card = jc ∧ k.db = db.toNat ∧ k.fence = fence ∧ k.started = false ∧
     k.slot = c.place.slot ∧ k.launch = c.place.launch ∧ k.reads = reads ∧ k.writes = writes ∧
     u.ctx.c.done.getLsbD db.toNat = false ∧ u.ctx.st.jstat[db.toNat]? = some 0x2000 ∧
     u.ctx.st.dfault.getLsbD db.toNat = false ∧ SameBytes s u ∧ u.ctx.i = c.i ∧ u.ctx.k = c.k
   (jc.fieldsOk fs fd = true → jc.w7 = 0 → (tags && jc.cen) = false →
     s.cardSide jc.src ns (if tags then 9 else 1) (sideAlign jc tags jc.stype fs) strides = .ok se →
     s.cardSide jc.dst nd (if tags then 18 else 2) (sideAlign jc tags jc.dtype fd) (!tags || jc.dstride % 16 == 0) = .ok de →
     rd.meets wr = false → joins (.kcopy j db fence tags) [rd] [wr]) ∧
   (jc.fieldsOk fs fd = true → jc.w7.toNat < 2 ^ 13 → jc.rows ≤ 32 → row % 32 = 0 →
     s.cardSide jc.src ns 1 (sideAlign jc false jc.stype fs) true = .ok se →
     c.place.gLo ≤ jc.goff → jc.goff + row / 32 ≤ c.place.gHi →
     joins (.kfill j db fence) [rd] [⟨.grist s.clus.num s.core.num, 32 * jc.goff, 32 * jc.goff + row⟩]) ∧
   (jc.fieldsOk 0 0 = true → jc.w6 = 0 → jc.w7 = 0 →
     s.cardSide jc.src ns (if tags then 9 else 1) (if tags then 16 else 1) strides = .ok se →
     capCheck s.table jc.dst 9 jc.dst.cursor = .ok te → te.isOwn s.core.num = true →
     s.cardSide jc.dst (16 * (n.toNat + 1)) 9 16 true = .ok de →
     s.kmcDests jc tags rd ((List.range (n.toNat + 1)).map (fun i =>
       (i, s.core.laReadCap (48 * te.loff + jc.dst.cursor + 16 * i)))) = .ok ds →
     joins (.kmc j db n fence tags) [rd] (ds.map (fun (d : CapV × BufEntry) =>
       s.footprint d.2 d.1.index d.1.cursor ((jc.rows - 1) * jc.dstride + jc.rbytes)))) ∧
   ((jc.fieldsOk fs fd = false ∨ jc.w7 ≠ 0) → exec (.kcopy j db fence tags) s = raiseC s .illegal .K)) ∧
  ((∀ (j : BitVec 3) (db gid : BitVec 6) (kind : CollKind) (op : CollOp) (fence : Bool) (s : State) (g : Group)
     (se de : BufEntry), db.toNat < 60 →
     let jc := (s.ctx.kj j).1
     let al := if kind = .fp then collEs kind jc.stype else 48
     let rd := s.footprint se jc.src.index jc.src.cursor jc.rbytes
     let wr := s.footprint de jc.dst.index jc.dst.cursor (collOut op jc.rbytes g.entry.g)
     s.groups.find? (fun g => g.entry.gid == gid.toNat) = some g → jc.collOk op kind g.entry.g = true →
     g.entry.valid = true → g.entry.asid = s.table.asid → (∀ x ∈ s.coll, x.gid ≠ gid.toNat) →
     (∀ l, g.lastStep = some l → l < jc.step) →
     s.cardSide jc.src jc.rbytes 1 al true = .ok se →
     s.cardSide jc.dst (collOut op jc.rbytes g.entry.g) 2 al true = .ok de →
     (rd.meets wr = false ∨ (rd = wr ∧ (op = .ar ∨ op = .bc))) →
     ∃ (u : State) (k : Card), exec (.kcoll j db gid kind op fence) s = .next u ∧ u.core.cards = s.core.cards ++ [k] ∧
       k.db = db.toNat ∧ k.isJob gid.toNat = true ∧ k.started = false ∧ k.reads = [rd] ∧ k.writes = [wr] ∧
       (∃ x ∈ u.coll, x.gid = gid.toNat) ∧ u.ctx.c.done.getLsbD db.toNat = false) ∧
   (∀ (d : BitVec 4) (a : Src) (db : BitVec 6) (s : State) (e : BufEntry) (ad : Nat),
     let cap : TV CapV := (s.ctx.k.kc[d.toNat]?).getD ⟨CapV.null, 0⟩
     s.accCheck cap.val (s.ctx.rdKx a).1.toInt 8 2 8 = .ok (e, ad) → ∃ x : Access,
       exec (.kstat d a db) s = .next (s.enqueue x) ∧ x.op = .store ∧ x.size = 8 ∧ x.loc = (e.loc s.core.num ad).1 ∧
       x.pieces = [⟨0, (e.loc s.core.num ad).2, ((s.ctx.st.jstat[db.toNat]?).getD 0).toNat⟩]) ∧
   (∀ (j : BitVec 3) (lv : PfLevel) (s : State), ∃ u, exec (.kpf j lv) s = .next u ∧ u.exts = s.exts ∧
     (s.prefetchDrops (s.ctx.kj j).1 lv = true →
       u = s.onCtx (fun c => { c with st := { c.st with hintdrop := c.st.hintdrop + 1 } })) ∧
     (s.prefetchDrops (s.ctx.kj j).1 lv = false → (lv = .l2 → ∃ l, u = { s with l2 := l }) ∧
       (lv = .msc → ∃ l, u = { s with msc := l }))) ∧
   (∀ (db : BitVec 6) (s : State), s.cardOfDone db.toNat = none → exec (.kcan db) s = .next s) ∧
   (∀ (db : BitVec 6) (s : State) (k : Nat) (c : Card), s.cardOfDone db.toNat = some k → s.core.cards[k]? = some c →
     db.toNat < 60 → (∀ g, c.isJob g = false) → s.ctx.place.cluster = s.clus.num → s.ctx.place.core = s.core.num →
     ∃ u, exec (.kcan db) s = .next u ∧ u.core.cards = s.core.cards.eraseIdx k ∧
       u.ctx.c.done.getLsbD db.toNat = true))

/-! ### Frames -/

/-- Frame of the words of the C, A and I units with one exposed result (R25 to R28): when the word does not trap,
nothing outside the context and no byte of memory changes, no register, flag or special register changes now, and one
entry of the due queue holds a write of the destination alone. -/
def Obligations.ScalarWordFrame : Prop :=
  ∀ (w : Width) (ty : XType) (f : FType) (rs : RSel) (sc dc : CvtCode) (sx : Bool) (ac : ACond) (ic : ICond) (k : PsetMode)
    (k6 : BitVec 6) (d : BitVec 5) (p : BitVec 3) (q : BitVec 4) (pm : BitVec 8) (g : CapSel) (a b : Src) (i10 : BitVec 10)
    (i16 : BitVec 16) (i17 : BitVec 17) (s t : State), s.ctx.bun.trap = none → t.ctx.bun.trap = none →
  (∀ i ∈ [Instr.add w d a b, .sub w d a b, .mul w d a b, .and w d a b, .or w d a b, .xor w d a b, .andn w d a b,
      .shl w d a b, .shr w d a b, .sar w d a b, .rot w d a b, .sel w d a b, .mulh ty d a b, .min ty d a b, .max ty d a b,
      .addSat ty d a b, .subSat ty d a b, .mulSat ty d a b, .shlSat ty d a b, .addi d a i10, .movi d i17, .movh d i16,
      .clz w d a, .ctz w d a, .popc w d a, .ext ty d a, .bfx sx d a b, .bfi d a b, .fadd f d a b, .fsub f d a b,
      .fmul f d a b, .ffma f d a b, .fmin f d a b, .fmax f d a b, .fcmp f d a b, .fcvt rs sc dc d a],
    exec i s = .next t → ExposedFrame s t (toInt d)) ∧
  (∀ i ∈ [Instr.aadd d a b, .asub d a b, .ashl d a b, .ashr d a b, .aand d a b, .aor d a b, .aaddi d a i10, .amovi d i17,
      .amovh d i16, .cget d a g],
    exec i s = .next t → ExposedFrame s t (toAddr d)) ∧
  (∀ i ∈ [Instr.cmov q a, .cclr q a, .ccur q a b, .cinc q a b, .cbnd q a b, .cbndr q a b, .cperm q a pm, .ctag q a b],
    exec i s = .next t → ExposedFrame s t (toCap q)) ∧
  (∀ i ∈ [Instr.acmp ac p a b, .cmp ty ic p a b, .pand p a b, .por p a b, .pxor p a b, .pnot p a, .pset p a k k6],
    exec i s = .next t → ExposedFrame s t (toPred p))

/-- The same frame for the words of VA and VB with one exposed result, and for those of M, S and K that write a
descriptor, a grist pointer, a format, a scale or a K register (R25 to R28, R131). Frame of the words with a
full/empty result (R24, R25): when the word does not trap, nothing outside the context and no byte of memory changes;
the destination alone becomes empty, its pending exposed results are cancelled, and one result for it is on its way. -/
def Obligations.VectorWordFrame : Prop :=
  (∀ (u : VUnit) (w : Width) (wt : WType) (ty : XType) (f : FType) (fc : FCond) (ic : ICond) (pp : PackPair) (md : BitVec 2)
     (x y : Bool) (rs : RSel) (sel : MaskSel) (wa : WsAddTy) (wr : WsRndTy) (d : BitVec 5) (m : BitVec 3) (n : BitVec 2)
     (q : BitVec 4) (v : BitVec 16) (v17 : BitVec 17) (off : BitVec 13) (a b : Src) (s t : State),
     s.ctx.bun.trap = none → t.ctx.bun.trap = none →
   (∀ i ∈ [Instr.vadd u wt d a b, .vsub u wt d a b, .vmul u wt d a b, .vaddSat u ty d a b, .vsubSat u ty d a b,
       .vfma u f d a b, .vfms u f d a b, .vnfma u f d a b, .vrcpe u f d a, .vrsqe u f d a, .vminFp u f d a b,
       .vmaxFp u f d a b, .vminInt u ty d a b, .vmaxInt u ty d a b, .vabs u wt d a, .vneg u wt d a, .vand u w d a b,
       .vor u w d a b, .vxor u w d a b, .vshl u w d a b, .vshr u w d a b, .vsar u w d a b, .vnot u w d a, .vsel u m d a b,
       .vmpop u d a, .vmff u d a, .vmovi u d v17, .vidx u w d a, .vbcast u w d a b, .vperm u w d a b, .vrot u w d a b,
       .vslideDn u w d a b, .vslideUp u w d a b, .vcvt u f x y rs d a, .vpack u pp x md q d a, .vunpk u pp x md q d a,
       .vredsum u wt d a sel, .vredsumSat u ty d a sel, .vredmaxFp u f d a sel, .vredminFp u f d a sel,
       .vredmaxInt u ty d a sel, .vredminInt u ty d a sel, .wsrnd u wr d a rs, .wsmovV u d a, .kcnt u d n],
     exec i s = .next t → ExposedFrame s t (toVec u d)) ∧
   (∀ i ∈ [Instr.vcmpFp u f fc m a b, .vcmpInt u ty ic m a b, .vmand u m a b, .vmor u m a b, .vmnot u m a],
     exec i s = .next t → ExposedFrame s t (toMask u m)) ∧
   (∀ i ∈ [Instr.wsclr u n, .wsmovW u n a, .wsmov u n a, .wsmovPop u n],
     exec i s = .next t → ExposedFrame s t (fun r => ∃ z, r = .wsum u n z)) ∧
   (exec (.wsadd u wa n a sel) s = .next t → ExposedFrame s t (fun r => ∃ z g h, r = .wsinc u n z g h)) ∧
   (∀ i ∈ [Instr.msetBase m v, .msetStride m v, .msetFmt m q q q q, .msetScale m q q x],
     exec i s = .next t → ExposedFrame s t (fun r => ∃ z, r = .sd m z)) ∧
   (∀ i ∈ [Instr.gset n off, .gsetAdd n off], exec i s = .next t → ExposedFrame s t (fun r => ∃ z, r = .gp n z)) ∧
   (∀ i ∈ [Instr.sset q v, .sld q v17, .smov false q a, .sclr false q],
     exec i s = .next t → ExposedFrame s t (fun r => ∃ z, r = .scale q z)) ∧
   (∀ i ∈ [Instr.fset q x v, .smov true q a, .sclr true q],
     exec i s = .next t → ExposedFrame s t (fun r => ∃ z, r = .fmt q z)) ∧
   (∀ i ∈ [Instr.ksetBnd q a b, .ksetCur q a b, .ksetLc q a b],
     exec i s = .next t → ExposedFrame s t (fun r => ∃ z, r = .kc q z)) ∧
   (exec (.ksetAdd d a b) s = .next t → ExposedFrame s t (fun r => ∃ z, r = .kx d z)) ∧
   (exec (.ksetW m n b) s = .next t → ExposedFrame s t (fun r => ∃ z, r = .kjWord m n z)) ∧
   (exec (.ksetC m x b) s = .next t → ExposedFrame s t (fun r => ∃ z, r = .kjSlot m x z))) ∧
  (∀ (u : VUnit) (ty : XType) (f : FType) (d : BitVec 5) (a b : Src) (s t : State), d.toNat < 28 →
     s.ctx.bun.trap = none → t.ctx.bun.trap = none →
   let frame (r : RegRef) : Prop := OnlyCtx s t ∧ SameBytes s t ∧ SameFiles (s.ctx.setEmpty r) t.ctx ∧
     SameSpecial s.ctx t.ctx ∧ t.ctx.due = (s.ctx.cancelDue r).due ∧ t.ctx.isFull r = false ∧
     ∃ p : Pending, t.ctx.mem.pend = s.ctx.mem.pend ++ [p] ∧ p.write.ref = some r
   (∀ i ∈ [Instr.div ty d a b, .rem ty d a b, .divSat ty d a b, .fdiv f d a b, .fsqrt f d a],
     exec i s = .next t → frame (.i d)) ∧
   (∀ i ∈ [Instr.vdivFp u f d a b, .vsqrt u f d a, .vdivInt u ty d a b, .vdivSat u ty d a b],
     exec i s = .next t → frame (.v u d)))

/-- An exposed result becoming visible (R22, R23, R26, R28, R42, R55, R150): whatever register of the C, A, I, VA, VB, M, K or
S unit it names takes its value and taint set and is full (predicate 0 stays 1); a word or slot of a kj register replaces
that field alone and joins its taint set; an increment is added to its wide sum and its taint set joins. The latch of that
unit takes the same, but for a translate handle, and for a loop counter where `lend` counts it down. The entry's flags join
sy.fflags. Every other register, every other unit's latch, the queues, the due queue and the special registers stay. -/
def Obligations.ResultLands : Prop :=
  ∀ (c : Ctx) (w : RegWrite) (t : Taint) (fl : BitVec 5) (rem : Nat) (hand : Bool),
  let r := c.landEntry ⟨rem, hand, [w], t, fl⟩
  (r.due = c.due ∧ r.mem = c.mem ∧ r.st = { c.st with fflags := c.st.fflags ||| fl } ∧ r.pc = c.pc ∧ r.path = c.path ∧
   r.place = c.place ∧ r.phase = c.phase ∧ r.handler = c.handler ∧ r.bun = c.bun ∧ r.c.done = c.c.done ∧
   r.c.rstk = c.c.rstk ∧ r.c.depth = c.c.depth) ∧
  ((latchOf w ≠ some .C → r.c.latch = c.c.latch) ∧ (latchOf w ≠ some .A → r.a.latch = c.a.latch) ∧
   (latchOf w ≠ some .I → r.i.latch = c.i.latch) ∧ (latchOf w ≠ some .M → r.m.latch = c.m.latch) ∧
   (latchOf w ≠ some .K → r.k.latch = c.k.latch) ∧ (latchOf w ≠ some .S → r.s.latch = c.s.latch) ∧
   (∀ u : VUnit, latchOf w ≠ some u.unit → (r.vf u).latch = (c.vf u).latch)) ∧
  ((∀ (n : BitVec 5) (v : W64), w = .int n v → r.rdId n = (v, t) ∧ r.i.latch = ⟨v, t⟩ ∧ (n.toNat < 28 → r.isFull (.i n) = true)) ∧
   (∀ (n : BitVec 5), (∀ v : W64, w ≠ .int n v) → r.rdId n = c.rdId n ∧ r.isFull (.i n) = c.isFull (.i n)) ∧
   (∀ (n : BitVec 5) (v : W64), w = .addr n v → r.rdAd n = (v, t) ∧ r.a.latch = ⟨⟨v.setWidth 128, false⟩, t⟩ ∧
     (n.toNat < 28 → r.isFull (.a n) = true)) ∧
   (∀ (n : BitVec 5), (∀ v : W64, w ≠ .addr n v) → r.rdAd n = c.rdAd n ∧ r.isFull (.a n) = c.isFull (.a n)) ∧
   (∀ (n : BitVec 4) (v : CapV), w = .cap n v → r.rdCd n = (v, t) ∧ r.a.latch = ⟨v, t⟩ ∧ r.isFull (.c (n.setWidth 5)) = true) ∧
   (∀ (n : BitVec 4), (∀ v : CapV, w ≠ .cap n v) → r.a.c[n.toNat]? = c.a.c[n.toNat]?) ∧
   (∀ (n : BitVec 3) (v : W64), w = .handle n v → r.a.xh[n.toNat]? = some ⟨v, t, true⟩) ∧
   (∀ (n : BitVec 3), (∀ v : W64, w ≠ .handle n v) → r.a.xh[n.toNat]? = c.a.xh[n.toNat]?)) ∧
  ((∀ (u : VUnit) (n : BitVec 5) (v : V2048), w = .vec u n v → r.rdVd u n = (v, t) ∧ (r.vf u).latch = ⟨v, t⟩ ∧
     (n.toNat < 28 → r.isFull (.v u n) = true)) ∧
   (∀ (u : VUnit) (n : BitVec 5), (∀ v : V2048, w ≠ .vec u n v) →
     r.rdVd u n = c.rdVd u n ∧ r.isFull (.v u n) = c.isFull (.v u n)) ∧
   (∀ (u : VUnit) (m : BitVec 3) (v : BitVec 32), w = .mask u m v → (r.vf u).m[m.toNat]? = some ⟨v, t⟩ ∧
     (r.vf u).latch = ⟨v.setWidth 2048, t⟩) ∧
   (∀ (u : VUnit) (m : BitVec 3), (∀ v : BitVec 32, w ≠ .mask u m v) → (r.vf u).m[m.toNat]? = (c.vf u).m[m.toNat]?) ∧
   (∀ (u : VUnit) (n : BitVec 2) (v : WSum), w = .wsum u n v → (r.vf u).w[n.toNat]? = some ⟨v, t⟩ ∧
     (r.vf u).latch = ⟨v.setWidth 2048, t⟩) ∧
   (∀ (u : VUnit) (n : BitVec 2) (ws64 : Bool) (inc : Int) (st : BitVec 8) (e : TV WSum), w = .wsinc u n ws64 inc st →
     (c.vf u).w[n.toNat]? = some e →
     let sum : WSum := BitVec.ofNat 2304 (wsAddInc ws64 e.val.toNat inc st.toNat)
     (r.vf u).w[n.toNat]? = some ⟨sum, e.taint ||| t⟩ ∧ (r.vf u).latch = ⟨sum.setWidth 2048, e.taint ||| t⟩) ∧
   (∀ (u : VUnit) (n : BitVec 2), (∀ v : WSum, w ≠ .wsum u n v) →
     (∀ (b : Bool) (inc : Int) (st : BitVec 8), w ≠ .wsinc u n b inc st) → (r.vf u).w[n.toNat]? = (c.vf u).w[n.toNat]?)) ∧
  ((∀ (p : BitVec 3) (v : Bool), p ≠ 0 → w = .pred p v → r.pred p = (v, t) ∧ r.c.latch = ⟨if v then 1 else 0, t⟩) ∧
   (∀ (p : BitVec 3), p = 0 ∨ (∀ v : Bool, w ≠ .pred p v) → r.pred p = c.pred p) ∧
   (∀ (g : BitVec 3) (v : W64), w = .gen g v → r.c.g[g.toNat]? = some ⟨v, t⟩ ∧ r.c.latch = ⟨v, t⟩) ∧
   (∀ (g : BitVec 3), (∀ v : W64, w ≠ .gen g v) → r.c.g[g.toNat]? = c.c.g[g.toNat]?) ∧
   (∀ (l : BitVec 2) (v : BitVec 32) (x : Bool), w = .loop l v x → r.c.l[l.toNat]? = some ⟨v, t⟩ ∧
     (x = true → r.c.latch = ⟨v.setWidth 64, t⟩)) ∧
   (∀ (l : BitVec 2), (∀ (v : BitVec 32) (x : Bool), w ≠ .loop l v x) → r.c.l[l.toNat]? = c.c.l[l.toNat]?)) ∧
  ((∀ (n : BitVec 3) (v : BitVec 256), w = .sd n v → r.m.sd[n.toNat]? = some ⟨v, t⟩ ∧ r.m.latch = ⟨v.setWidth 64, t⟩) ∧
   (∀ (n : BitVec 3), (∀ v : BitVec 256, w ≠ .sd n v) → r.m.sd[n.toNat]? = c.m.sd[n.toNat]?) ∧
   (∀ (n : BitVec 2) (v : BitVec 32), w = .gp n v → r.m.gp[n.toNat]? = some ⟨v, t⟩ ∧ r.m.latch = ⟨v.setWidth 64, t⟩) ∧
   (∀ (n : BitVec 2), (∀ v : BitVec 32, w ≠ .gp n v) → r.m.gp[n.toNat]? = c.m.gp[n.toNat]?) ∧
   (∀ (n : BitVec 4) (v : BitVec 32), w = .fmt n v → r.s.f[n.toNat]? = some ⟨v, t⟩ ∧ r.s.latch = ⟨v.setWidth 64, t⟩) ∧
   (∀ (n : BitVec 4), (∀ v : BitVec 32, w ≠ .fmt n v) → r.s.f[n.toNat]? = c.s.f[n.toNat]?) ∧
   (∀ (n : BitVec 4) (v : BitVec 512), w = .scale n v → r.s.q[n.toNat]? = some ⟨v, t⟩ ∧ r.s.latch = ⟨v.setWidth 64, t⟩) ∧
   (∀ (n : BitVec 4), (∀ v : BitVec 512, w ≠ .scale n v) → r.s.q[n.toNat]? = c.s.q[n.toNat]?)) ∧
  ((∀ (n : BitVec 4) (v : CapV), w = .kc n v → r.k.kc[n.toNat]? = some ⟨v, t⟩ ∧ r.k.latch = ⟨v, t⟩) ∧
   (∀ (n : BitVec 4), (∀ v : CapV, w ≠ .kc n v) → r.k.kc[n.toNat]? = c.k.kc[n.toNat]?) ∧
   (∀ (n : BitVec 5) (v : W64), n.toNat < 28 → w = .kx n v → r.k.kx[n.toNat]? = some ⟨v, t⟩ ∧
     r.k.latch = ⟨⟨v.setWidth 128, false⟩, t⟩) ∧
   (∀ (n : BitVec 5), (∀ v : W64, w ≠ .kx n v) → r.k.kx[n.toNat]? = c.k.kx[n.toNat]?) ∧
   (∀ (n : BitVec 3) (k : BitVec 2) (v : W64) (e : TV JobCard), w = .kjWord n k v → c.k.kj[n.toNat]? = some e →
     r.k.latch = ⟨⟨v.setWidth 128, false⟩, t⟩ ∧ r.k.kj[n.toNat]? = some ⟨{ e.val with
       w4 := if k = 0 then v else e.val.w4, w5 := if k = 1 then v else e.val.w5
       w6 := if k = 2 then v else e.val.w6, w7 := if k = 3 then v else e.val.w7 }, e.taint ||| t⟩) ∧
   (∀ (n : BitVec 3) (dst : Bool) (v : CapV) (e : TV JobCard), w = .kjSlot n dst v → c.k.kj[n.toNat]? = some e →
     r.k.latch = ⟨v, t⟩ ∧ r.k.kj[n.toNat]? = some ⟨{ e.val with
       src := if dst then e.val.src else v, dst := if dst then v else e.val.dst }, e.taint ||| t⟩) ∧
   (∀ (n : BitVec 3), (∀ (k : BitVec 2) (v : W64), w ≠ .kjWord n k v) → (∀ (dst : Bool) (v : CapV), w ≠ .kjSlot n dst v) →
     r.k.kj[n.toNat]? = c.k.kj[n.toNat]?))

/-! ### Results and accesses on their way -/

/-- DUE_ENTRY_VISIBLE, FULL_EMPTY_RESULT_ARRIVE, YIELD_EXPIRE and XLAT_HANDLE_FILL (R23 to R28, R42, R105, R242):
expired entries land in issue order and leave the due queue (while no sweep tests their capabilities); an arriving full/empty result fills its register with its
value and taint set, leaves the latch, and its flags wait for a read of it; a yield ends when its cycles have run out
or the other slot is empty; a translate whose extent is resident fills its handle. ASYNC_FAULT_TAKEN (R239, R325): at
a boundary the oldest pending fault that may be taken leaves the list and is taken as a trap whose RADDR is the next
bundle's address; in handler mode a fault of the program's own accesses stays pending; with nothing to take nothing
happens. -/
def Obligations.ResultEventResults : Prop :=
  ((∀ s : State, s.sweep.active = false → exec .dueEntryVisible s = .next (s.withCtx
     { (s.ctx.due.filter (fun e => e.rem == 0)).foldl Ctx.landEntry s.ctx with
       due := s.ctx.due.filter (fun e => e.rem != 0) })) ∧
   (∀ (s : State) (e : DueEntry), s.sweep.active = false → s.ctx.due = [e] → e.rem = 0 →
     exec .dueEntryVisible s = .next (s.withCtx { s.ctx.landEntry e with due := [] })) ∧
   (∀ (k : Nat) (s : State) (d : BitVec 5) (v : W64) (t : Taint) (fl : BitVec 5), s.ctx.mem.pend[k]? = some ⟨.int d v, t, fl⟩ →
     d.toNat < 28 → ∃ u, exec (.fullEmptyResultArrive k) s = .next u ∧ OnlyCtx s u ∧ u.ctx.rdId d = (v, t) ∧
       u.ctx.isFull (.i d) = true ∧ u.ctx.i.latch = s.ctx.i.latch ∧ u.ctx.st.fflags = s.ctx.st.fflags ∧
       u.ctx.st.loose = (if fl = 0 then s.ctx.st.loose else s.ctx.st.loose ++ [(.i d, fl)]) ∧
       u.ctx.mem.pend = s.ctx.mem.pend.eraseIdx k ∧ (∀ n, n ≠ d → u.ctx.rdId n = s.ctx.rdId n) ∧ u.ctx.a = s.ctx.a ∧
       u.ctx.va = s.ctx.va ∧ u.ctx.vb = s.ctx.vb ∧ u.ctx.c = s.ctx.c) ∧
   (∀ (k : Nat) (s : State) (u : VUnit) (d : BitVec 5) (v : V2048) (t : Taint) (fl : BitVec 5),
     s.ctx.mem.pend[k]? = some ⟨.vec u d v, t, fl⟩ → d.toNat < 28 → ∃ x, exec (.fullEmptyResultArrive k) s = .next x ∧
       OnlyCtx s x ∧ x.ctx.rdVd u d = (v, t) ∧ x.ctx.isFull (.v u d) = true ∧ (x.ctx.vf u).latch = (s.ctx.vf u).latch ∧
       x.ctx.st.fflags = s.ctx.st.fflags ∧
       x.ctx.st.loose = (if fl = 0 then s.ctx.st.loose else s.ctx.st.loose ++ [(.v u d, fl)]) ∧
       x.ctx.mem.pend = s.ctx.mem.pend.eraseIdx k ∧ (∀ w n, w ≠ u ∨ n ≠ d → x.ctx.rdVd w n = s.ctx.rdVd w n) ∧
       x.ctx.a = s.ctx.a ∧ x.ctx.i = s.ctx.i ∧ x.ctx.c = s.ctx.c) ∧
   (∀ (k : Nat) (s : State) (d : BitVec 4) (v : CapV) (t : Taint), s.sweep.active = false →
     s.ctx.mem.pend[k]? = some ⟨.cap d v, t, 0⟩ → ∃ x, exec (.fullEmptyResultArrive k) s = .next x ∧ OnlyCtx s x ∧
       x.ctx.rdCd d = (v, t) ∧ x.ctx.isFull (.c (d.setWidth 5)) = true ∧ x.ctx.a.latch = s.ctx.a.latch ∧
       x.ctx.mem.pend = s.ctx.mem.pend.eraseIdx k ∧ (∀ n, n ≠ d → x.ctx.rdCd n = s.ctx.rdCd n) ∧ x.ctx.a.a = s.ctx.a.a ∧
       x.ctx.i = s.ctx.i ∧ x.ctx.va = s.ctx.va ∧ x.ctx.vb = s.ctx.vb ∧ x.ctx.c = s.ctx.c) ∧
   (∀ s : State, s.ctx.wait.bar = none → s.ctx.wait.crev = none → s.peerOccupied = false ∨ s.ctx.wait.yield = 0 →
     s.settleWait.2 = false) ∧
   (∀ (s : State) (n : Nat), s.agenda = [] → s.acted = false → s.delivered = true → s.ctx.nextFault = none →
     s.poolHolds = false → s.peerOccupied = true → s.ctx.wait = ⟨n + 1, none, none⟩ →
     step s = .next { (s.withCtx { s.ctx with wait := ⟨n, none, none⟩ }).stall with acted := true }) ∧
   (∀ s : State, s.peerOccupied = false →
     exec .yieldExpire s = .next (s.withCtx { s.ctx with wait := { s.ctx.wait with yield := 0 } })) ∧
   (∀ s : State, s.peerOccupied = true → exec .yieldExpire s = .next s) ∧
   (∀ (k : Nat) (s : State) (x : XlatWait), s.ctx.mem.xlats[k]? = some x → s.extentHolds x.pin.map x.pin.ext = false →
     ∃ u, exec (.xlatHandleFill k) s = .next u ∧ OnlyCtx s u ∧ u.ctx.a.xh[x.handle.toNat]? = some ⟨x.value, x.taint, true⟩ ∧
       u.ctx.mem.xlats = s.ctx.mem.xlats.eraseIdx k ∧ u.ctx.mem.pins = s.ctx.mem.pins ∧ u.ctx.a.a = s.ctx.a.a ∧
       u.ctx.i = s.ctx.i) ∧
   (∀ (k : Nat) (s : State) (x : XlatWait), s.ctx.mem.xlats[k]? = some x → s.extentHolds x.pin.map x.pin.ext = true →
     exec (.xlatHandleFill k) s = .next s)) ∧
  ((∀ s : State, (∀ f ∈ s.ctx.ports, s.ctx.handler = true ∧ f.hand = false) → exec .asyncFaultTaken s = .next s) ∧
   (∀ (s : State) (k h : Nat) (f : PortFault), s.ctx.phase = .running → s.ctx.ports[k]? = some f →
     (∀ j, j < k → ∀ g, s.ctx.ports[j]? = some g → s.ctx.handler = true ∧ g.hand = false) →
     s.ctx.handler = false → s.ctx.place.handler = some h →
     ∃ u, exec .asyncFaultTaken s = .next u ∧ OnlyCtx s u ∧ u.ctx.ports = s.ctx.ports.eraseIdx k ∧ u.ctx.pc = h ∧
       u.ctx.handler = true ∧ u.ctx.savedPath = s.ctx.path ∧
       u.ctx.st.frec = frecBits { f.info with raddr := s.ctx.pc } s.ctx.st.bundles ∧ SameFiles s.ctx u.ctx) ∧
   (∀ (s : State) (f : PortFault), s.ctx.phase = .running → s.ctx.ports = [f] → s.ctx.handler = false →
     s.ctx.place.handler = none → ∃ u, exec .asyncFaultTaken s = .next u ∧ u.ctx.phase = .frozen ∧ u.ctx.ports = []))

/-- STORE_PERFORM of a store with neither release nor acquire (R205, R218, R259, R261): once nothing holds it and its
port check passes, the bytes of its place are its data, little-endian, in the local array (but where a live kitty entry
lies, each aligned word either takes its bytes or stays whole, R296) or, for memory, as the cluster reads them (where its
cache holds the sectors, or has room for the line and none of it); every other byte of memory and every register, flag and
special register stays, and the store leaves the queue. LOAD_PERFORM of a scalar load (R205, R225, R259, R264, R265): once nothing holds it and its port
check passes, the queue entry reserved under its load id takes the bytes of its place as the machine reads them,
little-endian, extended as its type says, and the id is free with the cluster clock as its perform epoch; from memory
this holds where no L1 copy of the line stands and the cluster's copy is young enough and holds the sectors, or there is
none and room for it. LOAD_PERFORM of an `lcap` from a local array (R230): the capability register is full with the 16 bytes,
tagged where the granule's tag is set, its buffer is not shared and the bits are well formed, under the taint of its load
id. -/
def Obligations.LoadStorePerformResults : Prop :=
  (∀ (k : Nat) (s : State) (x : Access) (p : Piece), s.ctx.mem.outs[k]? = some x → x.op = .store → x.pieces = [p] →
     x.rel = none → x.acq = none → x.id = none → s.canPerform x = true → s.badPieces x = [] →
   let within (a : Nat) : Prop := p.addr ≤ a ∧ a < p.addr + x.size
   let held (map n : Nat) : Prop :=
     (findLine s.clus.lines map (p.addr / 192) = none ∧ s.clus.lines.length < 4096) ∨
     ∃ l, findLine s.clus.lines map (p.addr / 192) = some l ∧
       ∀ a, p.addr ≤ a → a < p.addr + n → l.sects[a % 192 / 48]? = some true
   (∀ n, x.loc = .loc n → HasCore s n → ArrInv s → ∃ u, exec (.storePerform k) s = .next u ∧
     (NoKitty s n p.addr x.size → ∀ a, within a → arrayByte u n a = byteAt p.data (a - p.addr)) ∧
     (∀ w, (∀ a, a / 8 = w → arrayByte u n a = arrayByte s n a) ∨
       (∀ a, a / 8 = w → within a → arrayByte u n a = byteAt p.data (a - p.addr))) ∧ (∀ a, ¬ within a → arrayByte u n a = arrayByte s n a) ∧
     (∀ m a, m ≠ n → HasCore s m → arrayByte u m a = arrayByte s m a) ∧ (∀ map a, homeByte u map a = homeByte s map a) ∧
     (∀ map a, seenByte u map a = seenByte s map a) ∧ SameFiles s.ctx u.ctx ∧ SameSpecial s.ctx u.ctx ∧
     u.ctx.mem.outs = s.ctx.mem.outs.filter (fun y => y.seq != x.seq)) ∧
   (∀ map, x.loc = .mem map → p.addr % 192 + x.size ≤ 192 → p.addr + 192 ≤ 2 ^ 40 → s.clus.clock + 1 < 65536 →
     (∀ l ∈ s.clus.lines, l.bytes.length = 192 ∧ l.sects.length = 4) → held map x.size →
     ∃ u, exec (.storePerform k) s = .next u ∧
     (∀ a, within a → seenByte u map a = byteAt p.data (a - p.addr)) ∧
     (∀ m a, m ≠ map ∨ ¬ within a → seenByte u m a = seenByte s m a) ∧
     (∀ m a, homeByte u m a = homeByte s m a) ∧ (∀ n a, arrayByte u n a = arrayByte s n a) ∧
     SameFiles s.ctx u.ctx ∧ SameSpecial s.ctx u.ctx ∧
     u.ctx.mem.outs = s.ctx.mem.outs.filter (fun y => y.seq != x.seq))) ∧
  (∀ (id : Nat) (s : State) (x : Access) (p : Piece) (d : DUnit) (ty : XType), id < 16 →
     s.ctx.mem.outs.find? (fun y => y.id == some id && y.isLoad) = some x → x.op = .load d ty → x.pieces = [p] →
     x.size = ty.w.bits / 8 → x.rel = none → x.acq = none → s.canPerform x = true →
     s.readsPoison x = false → s.badPieces x = [] →
   let ext (v : Nat) : W64 := if ty.uns then BitVec.ofNat 64 v else (BitVec.ofNat ty.w.bits v).signExtend 64
   let done (v : Nat) : Prop := ∃ u, exec (.loadPerform id) s = .next u ∧
     u.ctx.lq d = (s.ctx.lq d).map (fun q =>
       if q.id = id ∧ q.data = none then { q with data := some (.s (ext v)) } else q) ∧
     (∃ t, u.ctx.mem.ids[id]? = some ⟨false, t⟩) ∧ SameFiles s.ctx u.ctx ∧ SameSpecial s.ctx u.ctx ∧
     u.ctx.mem.outs = s.ctx.mem.outs.filter (fun y => y.seq != x.seq)
   (∀ n, x.loc = .loc n → done (numAt (arrayByte s n) p.addr x.size)) ∧
   (∀ map, x.loc = .mem map → p.addr % 192 + x.size ≤ 192 → p.addr + 192 ≤ 2 ^ 40 → s.clus.clock + 1 < 65536 →
     (∀ l ∈ s.clus.lines, l.bytes.length = 192 ∧ l.sects.length = 4) → findLine s.core.l1 map (p.addr / 192) = none →
     ((findLine s.clus.lines map (p.addr / 192) = none ∧ s.clus.lines.length < 4096) ∨
      ∃ l, findLine s.clus.lines map (p.addr / 192) = some l ∧ s.ctx.needEpoch x ≤ l.epoch ∧
        ∀ a, p.addr ≤ a → a < p.addr + x.size → l.sects[a % 192 / 48]? = some true) →
     done (numAt (seenByte s map) p.addr x.size))) ∧
  (∀ (id n : Nat) (s : State) (x : Access) (p : Piece) (d : BitVec 4) (e : BufEntry), id < 16 →
     s.ctx.mem.outs.find? (fun y => y.id == some id && y.isLoad) = some x → x.op = .lcap d → x.pieces = [p] → x.size = 16 →
     x.loc = .loc n → x.ent = some e → s.sweep.active = false → s.canPerform x = true → s.readsPoison x = false →
     s.badPieces x = [] →
   ∃ u, exec (.loadPerform id) s = .next u ∧ u.ctx.isFull (.c (d.setWidth 5)) = true ∧
     (u.ctx.rdCd d).2 = BitVec.ofNat 16 (2 ^ id) ∧
     (u.ctx.rdCd d).1.bits.toNat = numAt (arrayByte s n) p.addr 16 ∧
     ((u.ctx.rdCd d).1.tag = true ↔
       (s.coreAt n).laTags.contains (p.addr / 16) = true ∧ e.shared = false ∧ (u.ctx.rdCd d).1.wellFormed = true) ∧
     (∃ t, u.ctx.mem.ids[id]? = some ⟨false, t⟩) ∧ u.ctx.i = s.ctx.i ∧ u.ctx.a.a = s.ctx.a.a ∧
     (∀ m, m ≠ d → u.ctx.rdCd m = s.ctx.rdCd m) ∧ SameBytes s u)

/-- Atomics performing (R55, R232 to R234, R273): the old value is read where the access stands; where the word asks for it,
it is delivered to the queue of A under the load id, and otherwise no queue changes; the new value stands there, that of
`amo.wsadd` being the sum of two wide-sum images; a compare-and-swap writes only where the old value is the one expected;
every other byte stays. At the home of a memory buffer, where the cluster holds no copy of the lines; and in a local array,
where no live kitty entry lies. -/
def Obligations.AtomicPerformResults : Prop :=
  ∀ (k : Nat) (s : State) (x : Access) (p : Piece) (op : AmoOp) (ty : XType) (w : Width) (new : Nat) (ws64 : Bool),
    s.ctx.mem.outs[k]? = some x → x.pieces = [p] → x.rel = none → x.acq = none →
    s.canPerform x = true → s.readsPoison x = false → s.badPieces x = [] →
  let within (a : Nat) : Prop := p.addr ≤ a ∧ a < p.addr + x.size
  let answers (u : State) (v : W64) : Prop := ∃ id, x.id = some id ∧ u.ctx.lq .a = (s.ctx.lq .a).map (fun q =>
    if q.id = id ∧ q.data = none then { q with data := some (.s v) } else q)
  let silent (u : State) : Prop := u.ctx.lq .a = s.ctx.lq .a
  let rest (u : State) : Prop := SameFiles s.ctx u.ctx ∧ SameSpecial s.ctx u.ctx ∧
    u.ctx.lq .i = s.ctx.lq .i ∧ u.ctx.mem.outs = s.ctx.mem.outs.filter (fun y => y.seq != x.seq)
  let each (old : Nat) (leaves : Nat → (State → Prop) → Prop) : Prop :=
    (∀ id, x.id = some id → x.op = .amo op ty true → x.size = ty.w.bits / 8 →
      leaves (amoNew op ty.uns ty.w.bits old p.data) (fun u => answers u (extend64 (!ty.uns) ty.w.bits old))) ∧
    (x.id = none → x.op = .amo op ty false → x.size = ty.w.bits / 8 →
      leaves (amoNew op ty.uns ty.w.bits old p.data) silent) ∧
    (∀ id, x.id = some id → x.op = .cas w new → x.size = w.bits / 8 →
      leaves (if old = p.data % 2 ^ w.bits then new % 2 ^ w.bits else old) (fun u => answers u (BitVec.ofNat 64 old))) ∧
    (x.id = none → x.op = .wsadd ws64 → x.size = (if ws64 then 288 else 48) →
      leaves (wsAddInc ws64 old (wsF ws64 p.data) (wsStatus ws64 p.data)) silent)
  (∀ map, x.loc = .mem map → MemInv s → p.addr + x.size ≤ 2 ^ 40 →
    (∀ l ∈ linesOf p.addr x.size, findLine s.clus.lines map l = none) →
    let old := numAt (homeByte s map) p.addr x.size
    each old (fun v result => ∃ u, exec (.storePerform k) s = .next u ∧ result u ∧ rest u ∧
      (∀ a, a < 2 ^ 40 → within a → homeByte u map a = byteAt v (a - p.addr)) ∧
      (∀ m a, a < 2 ^ 40 → m ≠ map ∨ ¬ within a → homeByte u m a = homeByte s m a) ∧
      (∀ n a, arrayByte u n a = arrayByte s n a) ∧ (old = v → ∀ m a, homeByte u m a = homeByte s m a))) ∧
  (∀ n, x.loc = .loc n → HasCore s n → ArrInv s → NoKitty s n p.addr x.size →
    let old := numAt (arrayByte s n) p.addr x.size
    each old (fun v result => ∃ u, exec (.storePerform k) s = .next u ∧ result u ∧ rest u ∧
      (∀ a, within a → arrayByte u n a = byteAt v (a - p.addr)) ∧
      (∀ a, ¬ within a → arrayByte u n a = arrayByte s n a) ∧
      (∀ m a, m ≠ n → HasCore s m → arrayByte u m a = arrayByte s m a) ∧
      (∀ m a, homeByte u m a = homeByte s m a) ∧ (∀ m a, seenByte u m a = seenByte s m a)))

/-- SIDE_LOG_REPLAY (R239): the oldest logged store performs at its home, once nothing holds it and its port check
passes: its bytes there are its data and every other byte of memory stays; an entry that is held stays logged.
Residency (R237, R238, R241, R411): an extent that something touches and that is in no frame gets a free frame of its stack,
which joins those being zeroed, under its buffer's owner and world; with no frame free nothing happens. When zeros have been
written to every row, an absent extent enters the frame and every byte of it reads zero, every other byte as before; a frame
for an extent in SCM or held remote waits, clean, for its bytes, with which the extent becomes resident in it. A migration
inward marks the extent and gives it a frame; one outward takes a resident extent that is neither pinned nor logged and has
the lowest counter to a free frame of SCM. Halving halves every counter. But for the zeros no byte of memory changes. That the
bytes of an extent arrive in an event of their own, and which extents move when, are the model's choices (log entries 29 and
118). -/
def Obligations.ReplayExtentResults : Prop :=
  ((∀ s : State, s.ctx.mem.slog = [] → exec .sideLogReplay s = .next s) ∧
   (∀ (s : State) (x : Access) (r : List Access), s.ctx.mem.slog = x :: r → s.canPerform x = false →
     exec .sideLogReplay s = .next s) ∧
   (∀ (s : State) (x : Access) (r : List Access) (p : Piece) (map : Nat), s.ctx.mem.slog = x :: r →
     s.canPerform x = true → x.op = .store → x.pieces = [p] → x.loc = .mem map → s.badPieces x = [] → MemInv s →
     p.addr + x.size ≤ 2 ^ 40 → (∀ l ∈ linesOf p.addr x.size, findLine s.clus.lines map l = none) →
     ∃ u, exec .sideLogReplay s = .next u ∧
       (∀ a, p.addr ≤ a → a < p.addr + x.size → homeByte u map a = byteAt p.data (a - p.addr)) ∧
       (∀ m a, a < 2 ^ 40 → m ≠ map ∨ a < p.addr ∨ p.addr + x.size ≤ a → homeByte u m a = homeByte s m a) ∧
       (∀ n a, arrayByte u n a = arrayByte s n a) ∧ SameFiles s.ctx u.ctx ∧ SameSpecial s.ctx u.ctx ∧
       u.ctx.mem.slog = r.filter (fun y => y.seq != x.seq))) ∧
  (∀ (map ext : Nat) (s : State),
   let takes (b : BufEntry) (f : Nat) : List Frame :=
     s.zeroing ++ [⟨frameStack b ext, f, map, ext, b.owner, b.world, false⟩]
   (∀ b : BufEntry, s.extent map ext = none → s.needer map ext = some b → b.extmap = map → s.allocated map ext = none →
     (s.freeOn (frameStack b ext) = none → exec (.extentFirstTouch map ext) s = .next s) ∧
     (∀ f, s.freeOn (frameStack b ext) = some f →
       exec (.extentFirstTouch map ext) s = .next { s with zeroing := takes b f } ∧ f < 48 * 2 ^ 30 / 3145728 ∧
       (∀ e ∈ s.exts, e.state = .hbm → e.stack = frameStack b ext → e.frame ≠ f) ∧
       (∀ g ∈ s.zeroing, g.stack = frameStack b ext → g.num ≠ f))) ∧
   (∀ f : Frame, s.zeroing.find? (fun g => g.stack == f.stack && g.num == f.num && !g.clean) = some f →
     (s.extent f.map f.ext = none → (f.ext + 1) * 3145728 ≤ 2 ^ 40 → MemInv s →
       ∃ u, exec (.frameZeroComplete f.stack f.num) s = .next u ∧
       u.exts = s.exts ++ [⟨f.map, f.ext, .hbm, false, f.stack, f.num, 0, f.owner, f.world, 0⟩] ∧
       u.zeroing = s.zeroing.filter (fun g => !(g.stack == f.stack && g.num == f.num)) ∧
       (∀ a, a < 2 ^ 40 → a / 3145728 = f.ext → homeByte u f.map a = 0) ∧
       (∀ a, a < 2 ^ 40 → a / 3145728 = f.ext → u.memTags.contains (memKey f.map a / 16) = false) ∧
       (∀ m a, a < 2 ^ 40 → m ≠ f.map ∨ a / 3145728 ≠ f.ext → homeByte u m a = homeByte s m a) ∧
       (∀ n a, arrayByte u n a = arrayByte s n a) ∧ u.ctx = s.ctx) ∧
     (∀ e, s.extent f.map f.ext = some e → e.state = .scm ∨ e.state = .remote →
       exec (.frameZeroComplete f.stack f.num) s = .next { s with zeroing := s.zeroing.map (fun g =>
         if g.stack == f.stack && g.num == f.num then { g with clean := true } else g) })) ∧
   (∀ e : Extent, s.extent map ext = some e → e.state = .hbm → exec (.extentFirstTouch map ext) s = .next s ∧
     exec (.extentResident map ext) s = .next s ∧ exec (.extentMigrate map ext true) s = .next s) ∧
   (∀ e : Extent, s.extent map ext = some e → s.allocated map ext = none → exec (.extentResident map ext) s = .next s) ∧
   (∀ (e : Extent) (f : Frame), s.extent map ext = some e → s.allocated map ext = some f →
     (f.clean = false → exec (.extentResident map ext) s = .next s) ∧
     (f.clean = true → e.state = .scm ∨ e.state = .remote → ∃ u, exec (.extentResident map ext) s = .next u ∧
       u.extent map ext = some { e with state := .hbm, mig := false, stack := f.stack, frame := f.num, peer := 0 } ∧
       SameBytes s u ∧ u.memTags = s.memTags ∧ u.ctx = s.ctx)) ∧
   (∀ (e : Extent) (b : BufEntry) (f : Nat), s.extent map ext = some e → e.state = .scm ∨ e.state = .remote →
     s.entryOfMap map = some b → s.allocated map ext = none → s.freeOn (frameStack b ext) = some f →
     ∃ u, exec (.extentMigrate map ext true) s = .next u ∧ u.extent map ext = some { e with mig := true } ∧
       u.zeroing = takes b f ∧ SameBytes s u ∧ u.ctx = s.ctx) ∧
   (∀ (e : Extent) (f : Nat), s.extent map ext = some e → s.code = .vpm9mh → s.movable e = true → s.freeInScm = some f →
     (∀ y ∈ s.exts, s.movable y = true → e.counter ≤ y.counter) → ∃ u, exec (.extentMigrate map ext false) s = .next u ∧
     u.extent map ext = some { e with state := .scm, mig := false, frame := f } ∧ SameBytes s u ∧ u.ctx = s.ctx) ∧
   (s.freeInScm = none → exec (.extentMigrate map ext false) s = .next s) ∧
   (∀ e : Extent, s.extent map ext = some e → s.pinned map ext = true →
     exec (.extentMigrate map ext false) s = .next s) ∧
   exec .accessCounterHalve s = .next { s with exts := s.exts.map (fun e => { e with counter := e.counter / 2 }) })

/-- M_OP_START and M_OP_END (R162, R173, R176, R178 to R180): the head of a context's queue starts when the array
takes it, with what the local array and the grist hold, and nothing else changes; at its end it leaves the queue, and
where no byte that it reads has changed since its start and it has written none before: `mzero` leaves its tile zero, full and without
taint; `mread` leaves entry (i, j) in four bytes at its row and column and nothing else in any array, its tile full
and its done bit set; `mwrite` fills the tile from such rows with the taint set it carries; `mstat` writes 48 bytes at
its place (where no live kitty entry lies under what is written, R296). -/
def Obligations.MatrixOperationResults : Prop :=
  ∀ (s : State) (e : MEntry) (r : List MEntry) (z base stride db seq : Nat) (t t2 : Taint), s.ctx.mem.mq = e :: r →
    z < 32 → db < 60 →
  let entry (u : State) (i j : Nat) : Option (BitVec 32) :=
    (u.core.tiles[z]?).map (fun (x : Tile) => x.val.extractLsb' (32 * (32 * i + j)) 32)
  let row (i : Nat) : Nat := 16 * (base + i * stride)
  let tile (u : State) (taint : Taint) : Prop := ∃ v a, u.core.tiles[z]? = some ⟨v, true, taint, a⟩
  let others (u : State) : Prop := u.ctx.mem.mq = r ∧ (∀ k, k ≠ z → u.core.tiles[k]? = s.core.tiles[k]?) ∧
    (∀ map a, homeByte u map a = homeByte s map a) ∧ SameFiles { s.ctx with c := u.ctx.c } u.ctx
  let sets (u : State) : Prop := u.ctx.c.done.getLsbD db = true ∧ u.ctx.st.jstat[db]? = some 0
  (s.mStarts = true → ∃ u, exec .mOpStart s = .next u ∧
    u.ctx.mem.mq = { e with run := some ⟨s.core.la, s.core.gristOf s.ctx.place.asid, []⟩ } :: r ∧
    u.core.tiles = s.core.tiles ∧ SameBytes s u ∧ SameFiles s.ctx u.ctx) ∧
  (e.run = none → exec .mOpEnd s = .next s) ∧
  (∀ run, e = ⟨.zero z false, t, seq, some run⟩ → ∃ u, exec .mOpEnd s = .next u ∧ tile u 0 ∧
    (∀ i j, i < 32 → j < 32 → entry u i j = some 0) ∧ others u ∧ SameBytes s u ∧ u.ctx.c = s.ctx.c) ∧
  (∀ la g, e = ⟨.read z false base stride db, t, seq, some ⟨la, g, []⟩⟩ → 8 ≤ stride → ArrInv s →
    (∀ i, i < 32 → NoKitty s s.core.num (row i) 128) → ∃ u, exec .mOpEnd s = .next u ∧
    (∀ i j b, i < 32 → j < 32 → b < 4 → ∀ w, entry s i j = some w →
      arrayByte u s.core.num (row i + 4 * j + b) = byteAt w.toNat b) ∧
    (∀ a, (∀ i, i < 32 → a < row i ∨ row i + 128 ≤ a) → arrayByte u s.core.num a = arrayByte s s.core.num a) ∧
    (∀ n a, n ≠ s.core.num → HasCore s n → arrayByte u n a = arrayByte s n a) ∧
    (u.core.tiles[z]?).map (fun (x : Tile) => (x.full, x.val)) = (s.core.tiles[z]?).map (fun (x : Tile) => (true, x.val)) ∧
    others u ∧ sets u) ∧
  (∀ g, e = ⟨.write z .single base stride db t2, t, seq, some ⟨s.core.la, g, []⟩⟩ → ArrInv s → ∃ u, exec .mOpEnd s = .next u ∧ tile u t2 ∧
    (∀ i j, i < 32 → j < 32 →
      entry u i j = some (BitVec.ofNat 32 (numAt (arrayByte s s.core.num) (row i + 4 * j) 4))) ∧
    others u ∧ sets u ∧ SameBytes s u) ∧
  (∀ la g, e = ⟨.stat base db, t, seq, some ⟨la, g, []⟩⟩ → ArrInv s → NoKitty s s.core.num (16 * base) 48 → ∃ u, exec .mOpEnd s = .next u ∧ u.ctx.mem.mq = r ∧ sets u ∧
    numAt (arrayByte u s.core.num) (16 * base) 8 = s.ctx.st.passes.toNat ∧
    numAt (arrayByte u s.core.num) (16 * base + 8) 4 = s.ctx.place.zown.toNat ∧
    (∀ a, a < 16 * base ∨ 16 * base + 48 ≤ a → arrayByte u s.core.num a = arrayByte s s.core.num a) ∧
    u.core.tiles = s.core.tiles ∧ ∀ map a, homeByte u map a = homeByte s map a)

/-- What a pass leaves in its tile or tile pair (R49 to R52, R158, R160, R167 to R173), where no store has changed what it reads
since it started. Signed 8-bit operands under multiply-add in every k-block give exact matrix multiplication modulo 2^32: entry
(i, j) becomes the old entry, or 0 where the pass overwrites, plus the sum of A(i, e) times B(j, e), A in the rows of the local
array that the descriptor names, B in the columns of the grist from the pointer's offset on. In general, of any kind, operand
types and cell-op pattern, entry (i, j) is its start (the old entry, or the identity of step 0) put through the step of each
k-block in turn, over 64 codes of row i of A and of column j of B, read at the storage widths of their types, 0 in a grist region
of another ASID; the tiles are full, the flags of all entries join sy.fflags, and the taint set is the operation's, with the
tiles' own unless the pass overwrites. The steps of an INT k-block act on exact integers, modulo 2^32. The steps of a
floating-point block act on exact values wherever the window cuts nothing off: multiply-add adds the scaled sum of products and
ADA the sum of absolute differences to the entry in one rounding (a sum of zero leaves it as it is), and MXP and MNP keep the
entry that no sum beats. A NaN among the operands gives the canonical NaN, infinities of one sign among the products infinity.
That a kept entry stays bit for bit is the model's reading (log entry 96). -/
def Obligations.MatrixPassIsExact : Prop :=
  (∀ (s : State) (r : List MEntry) (z n off seq : Nat) (ow : Bool) (d : BitVec 256) (fa fb : BitVec 32) (qa qb : BitVec 512)
    (t t2 : Taint),
    s.ctx.mem.mq = ⟨.pass z 0 n 0 ow d off fa fb qa qb t2, t, seq, some ⟨s.core.la, s.core.gristOf s.ctx.place.asid, []⟩⟩ :: r →
    ArrInv s → z < 32 → d.extractLsb' 32 4 = 0#4 →
    d.extractLsb' 40 4 = 0#4 →
    (∀ e, e < 64 * (n + 1) → s.core.gristAsid[(32 * off + e) / 4096]? = some (some s.ctx.place.asid)) →
   let base := (d.extractLsb' 0 16).toNat
   let stride := (d.extractLsb' 16 16).toNat
   let entry (u : State) (i j : Nat) : Option (BitVec 32) :=
     (u.core.tiles[z]?).map (fun (x : Tile) => x.val.extractLsb' (32 * (32 * i + j)) 32)
   let a (i e : Nat) : Int := (arrayByte s s.core.num (16 * (base + i * stride) + e)).toInt
   let b (j e : Nat) : Int := (Memory.get s.core.grist (262144 * j + 32 * off + e)).toInt
   ∃ u, exec .mOpEnd s = .next u ∧
     (∀ i j w, i < 32 → j < 32 → entry s i j = some w → entry u i j =
       some (BitVec.ofInt 32 ((if ow then 0 else w.toInt) + ∑ e ∈ Finset.range (64 * (n + 1)), a i e * b j e))) ∧
     (u.core.tiles[z]?).map (fun (x : Tile) => x.full) = some true ∧ u.ctx.mem.mq = r ∧
     u.ctx.st.passes = s.ctx.st.passes + 1 ∧ u.ctx.st.fflags = s.ctx.st.fflags ∧ SameBytes s u ∧
     (∀ k, k ≠ z → u.core.tiles[k]? = s.core.tiles[k]?)) ∧
  (∀ (s : State) (r : List MEntry) (kind : PassKind) (z n cp off seq : Nat) (ow : Bool) (d : BitVec 256) (fa fb : BitVec 32)
    (qa qb : BitVec 512) (t t2 : Taint),
    s.ctx.mem.mq = ⟨.pass z kind.num n cp ow d off fa fb qa qb t2, t, seq,
      some ⟨s.core.la, s.core.gristOf s.ctx.place.asid, []⟩⟩ :: r → ArrInv s →
   let pair : Bool := kind = .f64
   let ta := (d.extractLsb' 32 4).toNat
   let tb := (d.extractLsb' 40 4).toNat
   let sw (ty : Nat) (f : BitVec 32) : Nat := opSw ty f.toNat
   let base := (d.extractLsb' 0 16).toNat
   let stride := (d.extractLsb' 16 16).toNat
   let grist (j o : Nat) : Byte :=
     if s.core.gristAsid[(32 * off + o) / 4096]? = some (some s.ctx.place.asid) then
       Memory.get s.core.grist (262144 * j + 32 * off + o) else 0
   let code (f : Nat → Byte) (w e : Nat) : Nat :=
     numAt f (e * w / 8) ((w + 7) / 8) / (if w = 4 then 16 ^ (e % 2) else 1) % 2 ^ w
   let a (i e : Nat) : Nat := code (fun o => arrayByte s s.core.num (16 * (base + i * stride) + o)) (sw ta fa) e
   let b (j e : Nat) : Nat := code (grist j) (sw tb fb) e
   let word (u : State) (z i j : Nat) : Nat :=
     ((u.core.tiles[z]?).map (fun (x : Tile) => (x.val.extractLsb' (32 * (32 * i + j)) 32).toNat)).getD 0
   let entry (u : State) (i j : Nat) : Nat := word u z i j + if pair then word u (z + 1) i j * 2 ^ 32 else 0
   let scale (q : BitVec 512) (j : Nat) : FVal :=
     if d.getLsbD 56 then unpack .b (q.extractLsb' (16 * j) 16).toNat else .fin false 1 0
   let step (k : Nat) : Nat := cp / 4 ^ (k % 4) % 4
   let block (i j k acc : Nat) : Nat × BitVec 5 :=
     if kind = .int then (kblockI (step k) acc ((List.range 64).map (fun e =>
       (opInt ta fa.toNat (a i (64 * k + e)), opInt tb fb.toNat (b j (64 * k + e))))), 0)
     else kblockF kind (step k) (scale qa i) (scale qb j) acc ((List.range 64).map (fun e =>
       (opVal ta fa.toNat (a i (64 * k + e)), opVal tb fb.toNat (b j (64 * k + e)))))
   let result (i j : Nat) : Nat × BitVec 5 := (List.range (n + 1)).foldl (fun acc k =>
     ((block i j k acc.1).1, acc.2 ||| (block i j k acc.1).2)) (if ow then stepIdentity kind (step 0) else entry s i j, 0)
   let taint : Taint := t2 ||| if ow then 0 else tilesTaint s.core z pair
   z + (if pair then 1 else 0) < 32 → 32 * off + 8 * sw tb fb * (n + 1) ≤ 262144 →
   ∃ u, exec .mOpEnd s = .next u ∧
     (∀ i j, i < 32 → j < 32 → entry u i j = (result i j).1 % 2 ^ (if pair then 64 else 32)) ∧
     (u.core.tiles[z]?).map (fun (x : Tile) => (x.full, x.taint)) = some (true, taint) ∧
     (pair = true → (u.core.tiles[z + 1]?).map (fun (x : Tile) => (x.full, x.taint)) = some (true, taint)) ∧
     (∀ k, u.ctx.st.fflags.getLsbD k = true ↔
       s.ctx.st.fflags.getLsbD k = true ∨ ∃ i j, i < 32 ∧ j < 32 ∧ (result i j).2.getLsbD k = true) ∧
     u.ctx.mem.mq = r ∧ u.ctx.st.passes = s.ctx.st.passes + 1 ∧ SameBytes s u ∧
     (∀ k, k ≠ z → (pair = true → k ≠ z + 1) → u.core.tiles[k]? = s.core.tiles[k]?)) ∧
  ((∀ (acc : Nat) (l : List (Int × Int)),
     let x : Int := (BitVec.ofNat 32 acc).toInt
     let low (v : Int) : Nat := (BitVec.ofInt 32 v).toNat
     kblockI 0 acc l = low (x + (l.map (fun p => p.1 * p.2)).sum) ∧
     kblockI 1 acc l = low (x + (l.map (fun p => |p.1 - p.2|)).sum) ∧
     kblockI 2 acc l = low ((l.map (fun p => p.1 + p.2)).foldl max x) ∧
     kblockI 3 acc l = low ((l.map (fun p => p.1 + p.2)).foldl min x)) ∧
   (∀ (v : Nat) (f : Nat), opInt 0 f v = (BitVec.ofNat 8 v).toInt ∧ opInt 1 f v = (BitVec.ofNat 16 v).toInt ∧
     opInt 4 f v = (v % 256 : Nat) ∧ opInt 5 f v = (v % 65536 : Nat))) ∧
  (∀ (t : FType) (n acc : Nat) (w : Int) (sa sb : FVal) (l : List (FVal × FVal)),
   let val (x : FVal) : ℚ := (ratOf x).getD 0
   let whole (f : FVal × FVal → Int × Int) : Prop := ∀ p ∈ l, ∀ q ∈ l, (f p).1 ≠ 0 → (f q).1 ≠ 0 →
     (Nat.log2 (f q).1.natAbs : Int) + (f q).2 + Nat.log2 n + 1 ≤ (f p).2 + w
   let sum : ℚ := val sa * val sb * (l.map (fun p => val p.1 * val p.2)).sum
   let away : ℚ := (l.map (fun p => |val p.1 - val p.2|)).sum
   let once (r : Nat × BitVec 5) (v : ℚ) : Prop :=
     (v = 0 → r = (acc, 0)) ∧ (v ≠ 0 → ∃ x : FVal, ratOf x = some v ∧ r = accAdd t acc x 0)
   (sa.isFinite = true → sb.isFinite = true → (∀ p ∈ l, p.1.isFinite = true ∧ p.2.isFinite = true) →
     (whole (fun p => (p.1.dyadic.1 * p.2.dyadic.1, p.1.dyadic.2 + p.2.dyadic.2)) → once (madBlock t n w sa sb acc l) sum) ∧
     (whole (fun p => p.1.exactSub p.2) → once (adaBlock t n w acc l) away) ∧
     (∀ v : ℚ, codeVal t acc = some v →
       ((∀ p ∈ l, val p.1 + val p.2 ≤ v) → mxBlock t true acc l = (acc % 2 ^ t.wd, 0)) ∧
       ((∀ p ∈ l, v ≤ val p.1 + val p.2) → mxBlock t false acc l = (acc % 2 ^ t.wd, 0)) ∧
       (∀ p ∈ l, v < val p.1 + val p.2 → (∀ q ∈ l, val q.1 + val q.2 ≤ val p.1 + val p.2) →
         ∃ x : FVal, ratOf x = some (val p.1 + val p.2) ∧ mxBlock t true acc l = addV t .rne x (.fin false 0 0)) ∧
       (∀ p ∈ l, val p.1 + val p.2 < v → (∀ q ∈ l, val p.1 + val p.2 ≤ val q.1 + val q.2) →
         ∃ x : FVal, ratOf x = some (val p.1 + val p.2) ∧ mxBlock t false acc l = addV t .rne x (.fin false 0 0)))) ∧
   ((∃ p ∈ l, p.1.isNan = true ∨ p.2.isNan = true) → (madBlock t n w sa sb acc l).1 = t.canon ∧
     (adaBlock t n w acc l).1 = t.canon ∧ (∀ mx, (mxBlock t mx acc l).1 = t.canon)) ∧
   (∀ neg : Bool, sa = .fin false 1 0 → sb = .fin false 1 0 → (unpack t acc).isFinite = true →
     (∀ p ∈ l, p.1.isNan = false ∧ p.2.isNan = false ∧
       (p.1.isInf = true ∨ p.2.isInf = true → p.1.isZero = false ∧ p.2.isZero = false ∧ (p.1.neg != p.2.neg) = neg)) →
     (∃ p ∈ l, p.1.isInf = true ∨ p.2.isInf = true) →
     madBlock t n w sa sb acc l = (t.infBits + (if neg then 2 ^ (t.wd - 1) else 0), 0)))

/-- CARD_START, CARD_COMPLETE and KMC_DEST_STOP (R238, R245, R248 to R250, R382): a card that may start and whose
footprints are resident starts, one with a footprint that is not is held (of a multicast its source); a `kcopy` between two buffers of memory
without conversion leaves each row of its destination equal to the row of its source, but for the sectors it has moved
before, and every other byte as it was, leaves the table, and sets its done bit with cause 0; a destination of a running
multicast with sectors left to write that meets a port fault, an uncorrectable sector or a holder away too long stops, and
is noted with that cause. -/
def Obligations.CardEventResults : Prop :=
  ∀ (k : Nat) (s : State) (c : Card), s.core.cards[k]? = some c →
  (s.cardReady k = false → exec (.cardStart k) s = .next s) ∧
  (s.cardReady k = true → s.cardHeld c = true →
    exec (.cardStart k) s = .next { s with core := { s.core with cards := s.core.cards.set k { c with held := true } } }) ∧
  (s.cardReady k = true → s.cardHeld c = false →
    (∀ g, c.isJob g = false) → exec (.cardStart k) s =
      .next { s with core := { s.core with cards := s.core.cards.set k { c with held := false, started := true } } }) ∧
  (∀ e : BufEntry, c.started = true → c.flags = 0 → c.kind = .copy false → c.dstEnt = some e →
    c.card.cen = false →
    c.srcEnt.kind = .memory → e.kind = .memory → c.srcEnt.extmap ≠ e.extmap → s.poison = [] → s.clus.lines = [] →
    MemInv s → c.db < 60 → c.late = [] → s.cardHeld c = false →
    (∀ i, s.chunkCause c (some (e, c.card.dst.cursor)) c.card.rbytes i = 0) →
    c.slot = s.ctx.place.slot → c.launch = s.ctx.place.launch → s.ctx.place.cluster = s.clus.num →
    s.ctx.place.core = s.core.num → c.card.rbytes ≤ c.card.dstride ∨ c.card.rows ≤ 1 →
    c.card.src.cursor + c.card.rows * c.card.sstride + c.card.rbytes ≤ 2 ^ 40 →
    c.card.dst.cursor + c.card.rows * c.card.dstride + c.card.rbytes ≤ 2 ^ 40 →
    ∃ u, exec (.cardComplete k) s = .next u ∧
      (∀ r i, r < c.card.rows → i < c.card.rbytes → homeByte u e.extmap (c.card.dst.cursor + r * c.card.dstride + i) =
        if r * c.card.rbytes + i < 48 * c.movedAt 0 then homeByte s e.extmap (c.card.dst.cursor + r * c.card.dstride + i)
        else homeByte s c.srcEnt.extmap (c.card.src.cursor + r * c.card.sstride + i)) ∧
      (∀ m a, a < 2 ^ 40 → (m = e.extmap → ∀ r, r < c.card.rows → a < c.card.dst.cursor + r * c.card.dstride ∨
        c.card.dst.cursor + r * c.card.dstride + c.card.rbytes ≤ a) → homeByte u m a = homeByte s m a) ∧
      (∀ n a, arrayByte u n a = arrayByte s n a) ∧ u.core.cards = s.core.cards.eraseIdx k ∧
      u.ctx.c.done.getLsbD c.db = true ∧ u.ctx.st.jstat[c.db]? = some 0 ∧ u.ctx.st.dfault = s.ctx.st.dfault ∧
      u.ctx.i = s.ctx.i ∧ u.ctx.a = s.ctx.a) ∧
  (c.started = false → exec (.cardComplete k) s = .next s) ∧
  (∀ (tags : Bool) (ds : List (CapV × BufEntry)) (t : CapV × BufEntry) (dest cause : Nat), c.kind = .mcast tags ds →
    ds[dest]? = some t → c.started = true → (∀ y ∈ c.stops, y.1 ≠ dest) → c.movedAt dest < c.sectors c.row → c.late = [] →
    cause ≠ 0 → s.destCause c dest = cause → ∃ u, exec (.kmcDestStop k dest cause) s = .next u ∧
      u.core.cards = s.core.cards.set k { c with stops := c.stops ++ [(dest, cause)] } ∧ SameBytes s u)

/-- SPAWN_PERFORM, JOIN_PERFORM and POOL_HANDOVER (R282 to R290): a spawn that performs enters its stage as a record
in the lowest free slot, with byte 4 zero and only the priority in byte 5, and queues it; a join that performs takes 1
from the counter of its slot, and a parked record whose counter is then 0 is queued; a slot that waits, with nothing
of its own outstanding and the record in reach, takes the record the pool unit chooses, which leaves the queue: its first bundle at the
record's address, its arguments in g0 and g1, every integer register zero. -/
def Obligations.PoolEventResults : Prop :=
  (∀ (k j off : Nat) (s : State) (x : Access) (l : Launch), s.ctx.mem.outs[k]? = some x → x.op = .spawn →
    x.rel = some .pk → x.acq = some .pk → x.id = none → x.pieces = [⟨0, off, 0⟩] → x.loc = .mem l.pool.map →
    s.canPerform x = true → s.badPieces x = [] → s.curLaunch = some l → l.pool.freeSlot = some j → s.clus.lines = [] →
    s.present l.pool.map (64 * j / 3145728) = true → MemInv s → j < l.pool.size → 64 * l.pool.size ≤ off → off + 64 ≤ 2 ^ 40 →
    ∃ (u : State) (m : Launch), exec (.spawnPerform k) s = .next u ∧ u.launchOf l.id = some m ∧
      m.pool.queue = l.pool.queue ++ [j] ∧ m.pool.slots = l.pool.slots ++ [⟨j, 0, false⟩] ∧
      (∀ i, i < 64 → i ≠ 4 → i ≠ 5 → homeByte u l.pool.map (64 * j + i) = homeByte s l.pool.map (off + i)) ∧
      homeByte u l.pool.map (64 * j + 4) = 0 ∧
      homeByte u l.pool.map (64 * j + 5) = homeByte s l.pool.map (off + 5) &&& 3 ∧
      (∀ n a, a < 2 ^ 40 → n ≠ l.pool.map ∨ a < 64 * j ∨ 64 * j + 64 ≤ a → homeByte u n a = homeByte s n a)) ∧
  (∀ (k slot : Nat) (s : State) (x : Access) (l : Launch), s.ctx.mem.outs[k]? = some x → x.op = .join slot →
    s.canPerform x = true → s.curLaunch = some l →
    ∃ (u : State) (m : Launch), exec (.joinPerform k) s = .next u ∧ u.launchOf l.id = some m ∧
      m.pool.slots = l.pool.slots.map (fun (y : PoolSlot) =>
        if y.slot = slot then { y with counter := counter32 (y.counter - 1) } else y) ∧
      ((∃ y ∈ m.pool.slots, y.slot = slot ∧ y.parked = true ∧ y.counter = 0) →
        m.pool.queue = l.pool.queue ++ [slot]) ∧
      ((∀ y ∈ m.pool.slots, y.slot = slot → y.parked = false ∨ y.counter ≠ 0) → m.pool.queue = l.pool.queue)) ∧
  (∀ z : Int, -(2 : Int) ^ 31 ≤ z → z < 2 ^ 31 → counter32 z = z) ∧
  (∀ (s : State) (l : Launch) (slot pos : Nat), s.ctx.phase = .waiting → s.ctx.mem.outs = [] → s.ctx.mem.slog = [] →
    s.ctx.mem.mq = [] → s.ctx.wait.crev = none →
    s.poolShed = false → s.curLaunch = some l → s.choose l s.ctx.place.clord = some (slot, pos) →
    s.poolHeld l (64 * slot) 64 = false → s.present l.pool.map (64 * slot / 3145728) = true →
    (∀ y ∈ l.pool.slots, y.slot = slot → y.parked = false) → 64 * slot + 64 ≤ 2 ^ 40 →
    ∃ (u : State) (m : Launch), exec .poolHandover s = .next u ∧ u.ctx.phase = .running ∧ u.ctx.place.contSlot = slot ∧
      u.ctx.pc = numAt (homeByte s l.pool.map) (64 * slot) 4 ∧
      (u.ctx.c.g[0]?).map (fun (e : TV W64) => e.val.toNat) = some (numAt (homeByte s l.pool.map) (64 * slot + 48) 8) ∧
      (u.ctx.c.g[1]?).map (fun (e : TV W64) => e.val.toNat) = some (numAt (homeByte s l.pool.map) (64 * slot + 56) 8) ∧
      (∀ n, u.ctx.rdId n = (0, 0)) ∧ u.ctx.due = [] ∧ u.ctx.mem.floor = s.clus.clock ∧
      u.launchOf l.id = some m ∧ m.pool.queue = l.pool.queue.filter (fun q => q != slot)) ∧
  (∀ s : State, s.ctx.phase ≠ .waiting → exec .poolHandover s = .next s)

/-! ### Streams, launches, stops, the sweep -/

/-- The stream registers and the records WAIT, SIGNAL and FENCE (R301 to R303): a doorbell write sets the tail alone;
a write of cmd.ctl to a stream whose partition is not secure sets SIZE, LEVEL and WEIGHT, a WEIGHT of 0 counting as 1;
a record with nonzero reserved fields halts its stream; a WAIT whose word is at least VALUE ends, else it stands until
it is; a SIGNAL writes or adds its value at its word, where the word's extent is absent the one it finds there being 0, and
nothing else in memory; a FENCE ends. A write that would change LEVEL or WEIGHT is refused while the partition is secure,
which moves its TDI to ERROR, and in ERROR (R352). That cmd.head passes a record that halts its stream, and that a SIZE below 4
halts it, are the model's readings (log entry 37). -/
def Obligations.StreamResults : Prop :=
  ∀ (n : Nat) (s : State), n < 64 →
  let st := s.streamOf n
  let took (u : State) : Prop := (u.streamOf n).head = (st.head + 1) % 2 ^ st.size ∧ (u.streamOf n).waiting = false
  let halted (u : State) : Prop := took u ∧ (u.streamOf n).state = 3
  let served (r type : Nat) : Prop := s.headRecord n = some r ∧ recBytes r 0 1 = type ∧ s.mayServe n = true
  (∀ v : W64, s.power.phase = .on → exec (.cmdTailWrite n v) s =
    .next (s.modStream n (fun x => { x with tail := v.toNat % 2 ^ 32 })) ∧
    (∀ m, m ≠ n → (s.modStream n (fun x => { x with tail := v.toNat % 2 ^ 32 })).streamOf m = s.streamOf m)) ∧
  (∀ v : W64, s.power.phase ≠ .on → exec (.cmdTailWrite n v) s = .next s ∧ exec (.cmdCtlWrite n v) s = .next s) ∧
  (∀ v : W64, s.power.phase = .on → (v.extractLsb' 8 2).toNat ≠ st.level ∨ max 1 (v.extractLsb' 12 4).toNat ≠ st.weight →
    ((s.partOf n).tdi = .error → exec (.cmdCtlWrite n v) s = .next s) ∧
    ((s.partOf n).tdi.secure = true → exec (.cmdCtlWrite n v) s = .next (s.failTdi n) ∧
      ((s.failTdi n).partOf n).tdi = .error)) ∧
  (∀ v : W64, s.power.phase = .on → (s.partOf n).tdi = .unlocked → v.getLsbD 0 = false →
    ∃ u, exec (.cmdCtlWrite n v) s = .next u ∧ (u.streamOf n).enable = false ∧
      (u.streamOf n).size = (v.extractLsb' 4 4).toNat ∧ (u.streamOf n).level = (v.extractLsb' 8 2).toNat ∧
      (u.streamOf n).weight = max 1 (v.extractLsb' 12 4).toNat ∧ (u.streamOf n).head = st.head ∧ SameBytes s u) ∧
  (∀ v : W64, s.power.phase = .on → (s.partOf n).tdi = .unlocked → v.getLsbD 0 = true → st.enable = false →
    st.owed = [] → s.lostBegins = [] → s.streamBusy n = false → st.waiting = false →
    ∃ u, exec (.cmdCtlWrite n v) s = .next u ∧ (u.streamOf n).enable = true ∧
      (u.streamOf n).state = (if (v.extractLsb' 4 4).toNat < 4 then 3 else 0)) ∧
  (∀ r, served r 3 → parseCmd r = .bad → ∃ u, exec (.waitRecord n) s = .next u ∧ halted u) ∧
  (∀ r, served r 4 → parseCmd r = .bad → ∃ u, exec (.signal n) s = .next u ∧ halted u) ∧
  (∀ r, served r 5 → parseCmd r = .bad → ∃ u, exec (.fenceRecord n) s = .next u ∧ halted u) ∧
  (∀ r, served r 5 → parseCmd r = .fence → ∃ u, exec (.fenceRecord n) s = .next u ∧ took u ∧ SameBytes s u) ∧
  (∀ r asid buf off value (e : BufEntry), served r 3 → parseCmd r = .wait asid buf off value →
    s.syncEntry n asid buf off = some e → s.engineHeld e off 8 = false → ∃ u, exec (.waitRecord n) s = .next u ∧
      (value ≤ s.syncWord e off → took u) ∧
      (s.syncWord e off < value → (u.streamOf n).head = st.head ∧ (u.streamOf n).waiting = true) ∧ SameBytes s u) ∧
  (∀ asid buf off value (e : BufEntry), s.waitingCmd n = some (.wait asid buf off value) →
    s.syncEntry n asid buf off = some e → s.engineHeld e off 8 = false →
    (s.syncWord e off < value → exec (.waitRecheck n) s = .next s) ∧
    (value ≤ s.syncWord e off → ∃ u, exec (.waitRecheck n) s = .next u ∧ took u ∧ SameBytes s u)) ∧
  (∀ r add asid buf off value (e : BufEntry), served r 4 → parseCmd r = .signal add asid buf off value →
    s.syncEntry n asid buf off = some e → MemInv s → off + 8 ≤ 2 ^ 40 →
    (∀ l ∈ linesOf off 8, findLine s.clus.lines e.extmap l = none) →
    (s.extent e.extmap (off / 3145728) = none → ∃ u, exec (.signal n) s = .next u ∧ took u ∧
      (∀ i, i < 8 → homeByte u e.extmap (off + i) = byteAt value i)) ∧
    (s.present e.extmap (off / 3145728) = true →
    let new := if add then numAt (homeByte s e.extmap) off 8 + value else value
    ∃ u, exec (.signal n) s = .next u ∧ took u ∧
      (∀ i, i < 8 → homeByte u e.extmap (off + i) = byteAt new i) ∧
      (∀ m a, a < 2 ^ 40 → m ≠ e.extmap ∨ a < off ∨ off + 8 ≤ a → homeByte u m a = homeByte s m a) ∧
      (∀ k a, arrayByte u k a = arrayByte s k a)))

/-- LAUNCH, GRAPH and GRAPH_NODE_START (R303 to R309, R314, R315, R322, R403): a record that the launch sequence
refuses writes its completion entry, STATUS 2 and the cause, into the completion ring and BEGIN and END entries into
the launch journal; one that starts opens a launch over its rectangle, with one pool record and one running context
for each core of each cluster, and its BEGIN entry; an accepted GRAPH record, whose image has a node, opens a graph with the
nodes and edges of its image, patched, and its BEGIN entry, and starts nothing yet; a ready graph node, while its TDI is open
and the journal has room, starts its launch the same way, a refused one
ends its node, a bad one with CAUSE 0x05; records are taken from their stream. LAUNCH_END writes the entry of a launch
that is over and drops it. A VPM9-P keeps no launch journal (R1). That a bad node is refused with 0x05 is the model's
reading of R308 (log entry 34), that a bad record is taken its reading of R303 (log entry 37). -/
def Obligations.LaunchResults : Prop :=
  ∀ (n : Nat) (s : State), n < 64 →
  let st := s.streamOf n
  let took (u : State) : Prop := (u.streamOf n).head = (st.head + 1) % 2 ^ st.size ∧ (u.streamOf n).waiting = false ∧
    (u.streamOf n).begun = none
  let entry (u : State) (tag : W64) (status cause ticks : Nat) : Prop :=
    u.hostMem = Memory.write s.hostMem (st.cqbase + 16 * st.cqtail) (completionEntry tag status cause ticks)
  let journalled (u : State) (e : Nat × Nat × W64 × Nat × Nat) : Prop :=
    (s.code = .vpm9mh → u.ljournal.getLast?.map (fun (x : LJEntry) => (x.type, x.stream, x.tag, x.status, x.cause)) = some e) ∧
    (s.code = .vpm9p → u.ljournal = s.ljournal)
  let opened (u : State) (r : LaunchRec) (row col : Nat) (node : Option (Nat × Nat)) : Prop :=
    ∃ l : Launch, u.launchOf s.nextId = some l ∧ l.lrec = r ∧ l.state = .running ∧ l.stream = n ∧ l.node = node ∧
      l.clusters = rectClusters row col r.rows r.cols ∧ l.pool.slots.length = r.initial ∧
      ∀ k, k < r.initial → ∃ c ∈ u.allCtx, c.place.launch = s.nextId ∧ c.phase = .running ∧ c.place.contSlot = k ∧
        c.place.clord = k / (setBits 8 r.cores).length
  (∀ r l cause, s.headRecord n = some r → recBytes r 0 1 = 1 → parseCmd r = .launch l → s.mayServe n = true →
    s.planHead n l = .refuse cause → st.restored = false → ∃ u, exec (.launch n) s = .next u ∧ took u ∧
      entry u l.tag 2 cause 0 ∧ u.launches = s.launches ∧ journalled u (2, n, l.tag, 2, cause)) ∧
  (∀ r l (p : ImageParts) row col, s.headRecord n = some r → recBytes r 0 1 = 1 → parseCmd r = .launch l →
    s.mayServe n = true → s.planHead n l = .start p row col → (∀ x ∈ s.launches, x.id < s.nextId) →
    ∃ u, exec (.launch n) s = .next u ∧ took u ∧ opened u l row col none ∧
      (st.begun = none → journalled u (1, n, l.tag, 0, 0)) ∧
      u.hostMem = s.hostMem) ∧
  (∀ r, s.headRecord n = some r → recBytes r 0 1 = 1 → parseCmd r = .bad → s.mayServe n = true →
    ∃ u, exec (.launch n) s = .next u ∧ took u ∧ (u.streamOf n).state = 3) ∧
  (∀ r asid image patch tag, s.headRecord n = some r → recBytes r 0 1 = 2 → s.mayServe n = true →
    parseCmd r = .graph asid image patch tag → s.graphCause n asid image patch ≠ 0 → st.restored = false →
    ∃ u, exec (.graph n) s = .next u ∧ took u ∧ entry u tag 2 (s.graphCause n asid image patch) 0 ∧
      u.graphs = s.graphs) ∧
  (∀ r asid image patch tag (e p : BufEntry), s.headRecord n = some r → recBytes r 0 1 = 2 → s.mayServe n = true →
    parseCmd r = .graph asid image patch tag → s.graphCause n asid image patch = 0 →
    (s.spaceOf asid).entry image = some e → (s.spaceOf asid).entry patch = some p → (∀ g ∈ s.graphs, g.id < s.nextId) →
    (s.readGraph asid e.extmap p.extmap).1 ≠ [] →
    ∃ u, exec (.graph n) s = .next u ∧ took u ∧ (∃ j, u.graphs = s.graphs ++ [⟨s.nextId, n, j, none, tag,
        (s.readGraph asid e.extmap p.extmap).1, (s.readGraph asid e.extmap p.extmap).2.1⟩]) ∧ u.nextId = s.nextId + 1 ∧
      u.launches = s.launches ∧ u.hostMem = s.hostMem ∧ journalled u (1, n, tag, 0, 0)) ∧
  (∀ (g : Graph) (x : GNode) (node cause : Nat) (y : GNode), s.graphs = [g] → g.stream = n →
    g.nodes.find? (fun (z : GNode) => z.num == node && z.state == .pending) = some x → g.nodeReady node = true →
    s.noHigher st.level = true → s.power.phase = .on → s.tdiOpen n = true → s.ljFree = true →
    (x.bad = true ∧ cause = 5 ∨ x.bad = false ∧ s.planLaunch n 0 x.lrec = .refuse cause) →
    y ∈ g.nodes → y.num ≠ node → y.state = .running →
    ∃ (u : State) (h : Graph), exec (.graphNodeStart g.id node) s = .next u ∧ u.graphs = [h] ∧
      ∀ z ∈ h.nodes, z.num = node → z.state = .ended 2 cause) ∧
  (∀ (g : Graph) (x : GNode) (node : Nat) (p : ImageParts) row col, s.graphs = [g] → g.stream = n →
    g.nodes.find? (fun (z : GNode) => z.num == node && z.state == .pending) = some x → g.nodeReady node = true →
    s.noHigher st.level = true → s.power.phase = .on → s.tdiOpen n = true → s.ljFree = true → x.bad = false → s.planLaunch n 0 x.lrec = .start p row col →
    (∀ y ∈ s.launches, y.id < s.nextId) →
    ∃ u, exec (.graphNodeStart g.id node) s = .next u ∧ opened u x.lrec row col (some (g.id, node)) ∧
      ∃ h : Graph, u.graphs = [h] ∧ ∀ z ∈ h.nodes, z.num = node → z.state = .running) ∧
  (∀ (id status cause : Nat) (l : Launch), s.launchOf id = some l → l.stream = n → l.node = none →
    s.power.phase = .on → s.unfit l = false → s.launchOver l = true → l.verdict = (status, cause) → cause ≠ 0x13 →
    st.restored = false → ∃ u, exec (.launchEnd id) s = .next u ∧ (∀ x ∈ u.launches, x.id ≠ id) ∧
      entry u l.lrec.tag status cause ((l.first.map (fun t => s.ticks - t)).getD 0) ∧
      (∀ c ∈ u.others, c.place.launch ≠ id) ∧
      journalled u (2, n, l.lrec.tag, status, cause)) ∧
  (∀ (id : Nat) (l : Launch), s.launchOf id = some l → s.unfit l = false → s.launchOver l = false →
    exec (.launchEnd id) s = .next s)

/-- Limits and aborts (R319 to R321, R328, R337, R338): a launch over its hang or wall-time limit begins its abort
with CAUSE 0x11 or 0x12 and its TIMEOUT, and every live context of it sees done bit 60; at the end of TIMEOUT each
remaining context is ended; a fault that is fatal freezes its context and begins the abort with CAUSE 0x10. Stops and
resumes (R258, R332 to R336): a LAUNCH record that can claim its rectangle only if others give way stops exactly the
launches chosen; a context asked to stop, with nothing left that must perform, is saved with its registers, due queue
and next bundle, and its cards leave the core with it, those of earlier continuations of its slot too; a saved context whose
cluster is back, and which nothing left behind keeps, comes back as it was. -/
def Obligations.LimitStopResults : Prop :=
  (∀ (id : Nat) (s : State) (l : Launch), s.launchOf id = some l →
   let aborts (u : State) (cause : Nat) : Prop :=
     u.launchOf id = some { l with state := .aborting cause (s.ticks + l.lrec.timeout) } ∧
     ∀ c ∈ u.endCycle.allCtx, c.place.launch = id → c.phase ≠ .vacant → c.c.done.getLsbD 60 = true
   (l.state = .running → l.lrec.hang ≠ 0 → (∃ c ∈ s.allCtx, c.place.launch = l.id ∧ c.phase = .running ∧
     l.lrec.hang * 65536 ≤ c.st.hang) → ∃ u, exec (.hangLimit id) s = .next u ∧ aborts u 0x11 ∧ SameBytes s u) ∧
   (l.lrec.hang = 0 → exec (.hangLimit id) s = .next s) ∧
   (∀ t, l.first = some t → l.state = .running → l.lrec.wall ≠ 0 → t + 1024 * l.lrec.wall ≤ s.ticks →
     ∃ u, exec (.wallLimit id) s = .next u ∧ aborts u 0x12 ∧ SameBytes s u) ∧
   (l.lrec.wall = 0 ∨ l.first = none → exec (.wallLimit id) s = .next s) ∧
   (∀ cause t, l.state = .aborting cause t → t ≤ s.ticks →
     (∃ c ∈ s.allCtx, c.place.launch = l.id ∧ c.phase = .running) → ∃ u, exec (.abortTimeout id) s = .next u ∧
       (∀ c ∈ u.allCtx, c.place.launch = id → c.phase ≠ .running ∧ c.phase ≠ .waiting ∧ c.phase ≠ .stopped) ∧
       SameBytes s u) ∧
   (∀ cause t, l.state = .aborting cause t → s.ticks < t → exec (.abortTimeout id) s = .next s) ∧
   (∀ f : PortFault, s.ctx.place.launch = id → l.state = .running → s.ctx.phase = .running → s.ctx.handler = false →
     s.ctx.place.handler = none → s.ctx.ports = [f] → ∃ u, exec .fatalFault s = .next u ∧ u.ctx.phase = .frozen ∧
       u.ctx.due = [] ∧ u.ctx.st.frec = frecBits { f.info with raddr := s.ctx.pc } s.ctx.st.bundles ∧ aborts u 0x10 ∧
       SameFiles s.ctx u.ctx) ∧
   (∀ h, s.ctx.handler = false → s.ctx.place.handler = some h → exec .fatalFault s = .next s)) ∧
  ((∀ (n : Nat) (s : State) (r : LaunchRec) (ids : List Nat), s.headCmd n = some (.launch r) →
     s.planHead n r = .stop ids → s.noHigher (s.streamOf n).level = true →
     exec (.preemption n) s = .next { s with launches := s.launches.map (fun (l : Launch) =>
       if l.id ∈ ids then { l with state := .stopped .preempt } else l) }) ∧
   (∀ (code : StopCode) (s : State) (l : Launch), s.curLaunch = some l → l.state = .stopped code → s.power.phase = .on → s.ctx.phase = .running →
     s.ctx.mem.pend = [] → s.ctx.mem.xlats = [] → s.savable = true → (∀ k ∈ s.core.cards, k.leftBy s.ctx = true → k.late = []) →
     ∃ (u : State) (v : Saved),
     exec (.contextStop code) s = .next u ∧ u.ctx.phase = .stopped ∧ u.ctx.saved = some v ∧ v.code = code ∧
     v.phase = .running ∧ SameFiles s.ctx u.ctx ∧ u.ctx.pc = s.ctx.pc ∧ u.ctx.due = s.ctx.due ∧
     u.ctx.st = s.ctx.st ∧ u.core.cards = s.core.cards.filter (fun k => !k.leftBy s.ctx) ∧
     v.cards = (s.core.cards.filter (fun k => k.leftBy s.ctx)).map (fun k => { k with started := false, held := false })) ∧
   (∀ (code : StopCode) (s : State), s.ctx.phase = .vacant ∨ s.ctx.phase = .stopped ∨ s.stopRequested s.ctx code = false →
     exec (.contextStop code) s = .next s) ∧
   (∀ (id clord core slot : Nat) (s : State) (l : Launch) (c : Ctx) (v : Saved), s.launchOf id = some l →
     s.savedAt id clord core slot = some (c, v) → s.mayResume l = true → l.state = .running → s.sweep.active = false →
     s.followed c v = true → (s.findCluster ((l.clusters[clord]?).getD c.place.cluster)).shed = false →
     ∃ (u : State) (d : Ctx), exec (.contextResume id clord core slot) s = .next u ∧ d ∈ u.allCtx ∧ d.phase = v.phase ∧
       d.saved = none ∧ d.place.launch = c.place.launch ∧ d.place.clord = c.place.clord ∧ d.place.core = c.place.core ∧
       d.place.slot = c.place.slot ∧ SameFiles c d ∧ d.pc = c.pc ∧ d.due = c.due ∧ d.path = c.path ∧
       d.handler = c.handler ∧ d.st.fflags = c.st.fflags ∧ d.st.frec = c.st.frec))

/-- The sparge sweep (R341 to R345): a request starts it and records every entry's generation, while one is active
nothing more happens; the pause of a core takes the tag of every stale capability in the registers of its contexts and
leaves every other capability; a visit of granules takes the tags of the stale ones in its range alone; when every
place has been visited, each entry's GFLOOR takes its recorded generation and the sweep ends. A tag that is set sets its
tag-summary bit (R198); a visit clears none whose 3 KiB hold a tag, and the end of the sweep leaves exactly those. No
byte of memory changes. -/
def Obligations.SweepResults : Prop :=
  ∀ s : State,
  let starts (u : State) : Prop := u.sweep.active = true ∧ u.sweep.paused = [] ∧ u.sweep.seq = s.sweep.seq ∧
    u.sweep.sgen = s.spaces.flatMap (fun sp => sp.entries.map (fun (p : Nat × BufEntry) => ((sp.asid, p.1), p.2.gen))) ∧
    u = { s with sweep := u.sweep }
  (s.sweep.active = false → ∃ u, exec .sweepRequest s = .next u ∧ starts u) ∧
  (s.sweep.active = true → exec .sweepRequest s = .next s ∧ exec .sweepStart s = .next s) ∧
  (∀ (sp : Space) (p : Nat × BufEntry), s.sweep.active = false → sp ∈ s.spaces → p ∈ sp.entries → p.2.valid = true →
    3584 ≤ (p.2.gen + 4096 - p.2.gfloor) % 4096 → ∃ u, exec .sweepStart s = .next u ∧ starts u) ∧
  (s.sweep.active = false → exec .sweepCorePause s = .next s ∧ exec .sweepComplete s = .next s ∧
    ∀ p, exec (.sweepVisit p) s = .next s) ∧
  (s.sweep.active = true → s.ctx.place.cluster = s.core.cluster → s.ctx.place.core = s.core.num → s.ctx.phase = .running →
    ∃ u, exec .sweepCorePause s = .next u ∧ u.sweep.paused = s.sweep.paused ++ [(s.core.cluster, s.core.num)] ∧
      SameBytes s u ∧ u.ctx.i = s.ctx.i ∧ u.ctx.va = s.ctx.va ∧ ∀ n, (u.ctx.rdCd n).1.bits = (s.ctx.rdCd n).1.bits ∧
        (u.ctx.rdCd n).1.tag = ((s.ctx.rdCd n).1.tag && !staleIn (s.spaceOf s.ctx.place.asid) (s.ctx.rdCd n).1)) ∧
  (∀ map lo n, s.sweep.active = true → ∃ u, exec (.sweepVisit (.granules map lo n)) s = .next u ∧ SameBytes s u ∧
    u.core = s.core ∧ (∀ k, k ∈ u.memTags ↔ k ∈ s.memTags ∧
      ¬ (rangesMeet (memKey map lo) n (16 * k) 16 = true ∧ s.staleKey k = true)) ∧
    (∀ b ∈ u.tagSum, b ∈ s.tagSum) ∧ ∀ b ∈ s.tagSum, u.summaryHolds b = true → b ∈ u.tagSum) ∧
  (∀ map a b, s.summaryBit map a = some b → b ∈ (s.setTag map a true).tagSum ∧ ∀ c ∈ s.tagSum, c ∈ (s.setTag map a true).tagSum) ∧
  (s.sweep.active = true → s.sweepDone = false → exec .sweepComplete s = .next s) ∧
  (s.sweep.active = true → s.sweepDone = true → ∃ u, exec .sweepComplete s = .next u ∧ u.sweep.active = false ∧
    u.sweep.seq = s.sweep.seq + 1 ∧ SameBytes s u ∧ u.ctx = s.ctx ∧
    (∀ b, b ∈ u.tagSum ↔ b ∈ s.tagSum ∧ s.summaryHolds b = true) ∧
    (∀ a i g e, s.sweep.sgen.find? (fun (x : (Nat × Nat) × Nat) => x.1 == (a, i)) = some ((a, i), g) →
      (u.spaceOf a).entry i = some e → e.gfloor = g) ∧
    (∀ a i e, (s.spaceOf a).entry i = some e → ∃ f, (u.spaceOf a).entry i = some f ∧ f.gen = e.gen ∧ f.length = e.length))

/-! ### Tenancy, fabric, power, errors -/

/-- Host requests and TDISP (R280, R347 to R350, R362, R363, R400): a host window is one buffer behind an HDM decoder of
its port; an accepted host read answers with the bytes at home, an accepted write stores its bytes and nothing else, and
waits only behind a held posted write of its port and class, both without Relaxed Ordering; one over CXL.mem is answered;
one that no window accepts, or whose buffer's key is not LIVE, is answered Unsupported Request; a secure buffer is open
only on a secure IDE stream with the T bit to the function that owns it in RUN, and a request refused there is counted and
moves a TDI in RUN to ERROR; another one is open in a window of its own function, onto a buffer of its partition. A TDISP
request without a session is answered with an error; LOCK, START and STOP move the TDI as R348 says, LOCK of a TDI without
buffers sends the image key wrapped for the session, LOCK and START step the measurement generation, the report lists
windows and buffers, and STOP drops keys and buffers; while the module hibernates the ports take no request. That LOCK drops
direct writes that still wait is the model's choice (log 108), and so is the error that answers a request without a session
(log 42); that held writes keep their order, and that a CXL.mem write is answered as it performs, is read from the spec
(logs 57, 58). -/
def Obligations.HostTdispResults : Prop :=
  ∀ (n : Nat) (s : State), 1 ≤ n → n < 64 →
  let adds (u : State) (l : List Msg) : Prop := u.outbox = s.outbox ++ l
  (∀ (r : HostReq) (e : BufEntry), s.hostOpen = true → s.windowEntry r = some e → s.hostAccepts r e = true →
    (s.keySerial e.key).isSome = true →
    let off := s.windowOff r
    off + r.len ≤ 2 ^ 40 → s.engineHeld e off r.len = false → (∀ x ∈ extentsOf off r.len, s.present e.extmap x = true) →
    (s.poisonIn e.extmap off r.len = [] → ∃ u, exec (.hostRead r) s = .next u ∧
      adds u [.hostData r.fn ((List.range r.len).map (fun i => homeByte s e.extmap (off + i)))] ∧ u.mem = s.mem) ∧
    (∀ d : List Byte, d.length = r.len → MemInv s → s.writeWaits r = false →
      ∃ u, exec (.hostWrite r d) s = .next u ∧ adds u (if r.order = .cxlMem then [.hostDone r.fn] else []) ∧
        (∀ (i : Nat) (b : Byte), d[i]? = some b → homeByte u e.extmap (off + i) = b) ∧
        (∀ m a, a < 2 ^ 40 → m ≠ e.extmap ∨ a < off ∨ off + r.len ≤ a → homeByte u m a = homeByte s m a) ∧
        ∀ k o, arrayByte u k o = arrayByte s k o)) ∧
  (∀ (r : HostReq) (e : BufEntry), s.windowEntry r = some e → ∃ d ∈ s.hdm, d.port = r.port ∧
    (s.spaceOf d.asid).entry d.index = some e ∧ e.kind = .memory ∧ d.base ≤ r.addr ∧
    r.addr + r.len ≤ d.base + e.length ∧ s.windowOff r = r.addr - d.base) ∧
  (∀ (r : HostReq) (e : BufEntry), e.world = true → (s.hostAccepts r e = true ↔ r.ide = true ∧ (s.partOf r.fn).ide = true ∧
    r.tbit = true ∧ s.partOfAsid e.owner = some r.fn ∧ (s.partOf r.fn).tdi = .run)) ∧
  (∀ (r : HostReq) (e : BufEntry), e.world = false → (s.hostAccepts r e = true ↔
    ∃ d f o, s.windowAt r = some (d, f, o) ∧ d.fn = r.fn ∧ d.asid ∈ (s.partOf r.fn).asids)) ∧
  (∀ r : HostReq, s.writeWaits r = true ↔ ∃ h ∈ s.heldHost, h.data ≠ none ∧ ∃ c, r.order = .pcie c false ∧
    h.req.order = .pcie c false ∧ r.port = h.req.port) ∧
  (∀ (r : HostReq) (e : BufEntry) (d : List Byte), s.hostOpen = true → s.windowEntry r = some e → s.hostAccepts r e = true →
    (s.keySerial e.key).isSome = true →
    s.writeWaits r = true → exec (.hostWrite r d) s = .next { s with heldHost := s.heldHost ++ [⟨r, some d⟩] }) ∧
  (∀ (r : HostReq) (d : List Byte), s.hostOpen = false ∨ s.windowEntry r = none ∨ (∃ e, s.windowEntry r = some e ∧
      (e.world = false ∧ s.hostAccepts r e = false ∨ s.hostAccepts r e = true ∧ s.keySerial e.key = none)) →
    exec (.hostRead r) s = .next (s.send [.unsupported r.fn]) ∧ exec (.hostWrite r d) s = .next (s.send [])) ∧
  (∀ (r : HostReq) (e : BufEntry) (d : List Byte), s.hostOpen = true → s.windowEntry r = some e → e.world = true →
    s.hostAccepts r e = false → s.partOfAsid e.owner = some n → ∃ u v, exec (.hostRead r) s = .next u ∧
      exec (.hostWrite r d) s = .next v ∧ ∀ w ∈ [u, v], (w.partOf n).refusals = (s.partOf n).refusals + 1 ∧
        (w.partOf n).tdi = (if (s.partOf n).tdi = .run then .error else (s.partOf n).tdi)) ∧
  (∀ (r : HostReq) (e : BufEntry), s.hostOpen = true → s.windowEntry r = some e → s.hostAccepts r e = true →
    (s.keySerial e.key).isSome = true → s.engineHeld e (s.windowOff r) r.len = true → ∃ u, exec (.hostRead r) s = .next u ∧
      u.heldHost = s.heldHost ++ [⟨r, none⟩] ∧ u.outbox = s.outbox ∧ u.mem = s.mem) ∧
  (∀ i ∈ [Instr.getTdispVersion n, .getTdispCapabilities n, .lockInterfaceRequest n,
    .getDeviceInterfaceReport n, .getDeviceInterfaceState n, .startInterfaceRequest n, .stopInterfaceRequest n],
    (s.hostOpen = false → exec i s = .next s) ∧
    (s.hostOpen = true → (s.partOf n).session = false → exec i s = .next (s.send [.tdispError n]))) ∧
  (s.hostOpen = true → (s.partOf n).session = true →
    exec (.getTdispVersion n) s = .next (s.send [.tdispVersion n 0x10]) ∧
    exec (.getTdispCapabilities n) s = .next (s.send [.tdispCaps n]) ∧
    exec (.getDeviceInterfaceState n) s = .next (s.send [.tdispState n (s.partOf n).tdi (s.partOf n).lost]) ∧
    (∃ w l, exec (.getDeviceInterfaceReport n) s = .next (s.send [.tdispReport n n w l]) ∧
      (∀ (port base len : Nat), (port, base, len) ∈ w ↔ ∃ d ∈ s.hdm, d.fn = n ∧ d.port = port ∧ d.base = base ∧
        ∃ e, (s.spaceOf d.asid).entry d.index = some e ∧ e.length = len) ∧
      ∀ (a i len key : Nat), (a, i, len, key) ∈ l → a ∈ (s.partOf n).asids ∧
        ∃ e, (s.spaceOf a).entry i = some e ∧ e.length = len ∧ e.key = key) ∧
    ((s.partOf n).tdi = .unlocked → (s.lockKeys n).isSome = true → ∃ u, exec (.lockInterfaceRequest n) s = .next u ∧
      (u.partOf n).tdi = .locked ∧ (u.partOf n).mgen = (s.partOf n).mgen + 1 ∧ .tdispOk n ∈ u.outbox ∧
      (∀ v ∈ u.verified, v.part ≠ n) ∧
      (∀ d ∈ u.deferred, d ∈ s.deferred ∧ ∀ i v, d ≠ .direct n i v) ∧
      (s.partEntries (s.partOf n).asids = [] → ∃ z, ⟨(u.partOf n).wrapKey, .live n, z⟩ ∈ u.keys ∧
        adds u [.tdispOk n, .imageKey n (Config.wrap (s.partOf n).sess z)])) ∧
    ((s.partOf n).tdi ≠ .unlocked → exec (.lockInterfaceRequest n) s = .next (s.send [.tdispError n])) ∧
    ((s.partOf n).tdi = .locked → ∃ u, exec (.startInterfaceRequest n) s = .next u ∧ (u.partOf n).tdi = .run ∧
      (u.partOf n).mgen = (s.partOf n).mgen + 1 ∧ (u.partOf n).held = none ∧ adds u [.tdispOk n] ∧
      (∀ k ∈ u.keys, k.st ≠ .held n) ∧ ∀ k ∈ s.keys, k.st = .held n → ⟨k.index, .live n, k.serial⟩ ∈ u.keys) ∧
    ((s.partOf n).tdi ≠ .locked → exec (.startInterfaceRequest n) s = .next (s.send [.tdispError n])) ∧
    ((s.partOf n).tdi = .locked ∨ (s.partOf n).tdi = .run → ∃ u, exec (.stopInterfaceRequest n) s = .next u ∧
      (u.partOf n).tdi = .unlocked ∧ (∀ k ∈ u.keys, k.st ≠ .live n ∧ k.st ≠ .held n) ∧
      (∀ a ∈ (s.partOf n).asids, ∀ i, (u.spaceOf a).entry i = none) ∧ .tdispOk n ∈ u.outbox) ∧
    ((s.partOf n).tdi = .error → ∃ u, exec (.stopInterfaceRequest n) s = .next u ∧ (u.partOf n).tdi = .unlocked ∧
      u.keys = s.keys ∧ adds u [.tdispOk n]) ∧
    ((s.partOf n).tdi = .unlocked → exec (.stopInterfaceRequest n) s = .next (s.send [.tdispError n]))) ∧
  (∀ why : TdiErr, ∃ u, exec (.tdiError n why) s = .next u ∧
    (u.partOf n).tdi = (if (s.partOf n).tdi.secure then .error else (s.partOf n).tdi) ∧
    (why = .sessionEnd → (u.partOf n).session = false)) ∧
  (∀ t, (s.partOf n).held = some t → s.ticks < t → exec (.reattestWindowExpire n) s = .next s) ∧
  (∀ t, (s.partOf n).held = some t → t ≤ s.ticks → ∃ u, exec (.reattestWindowExpire n) s = .next u ∧
    (u.partOf n).tdi = .unlocked ∧ (u.partOf n).held = none ∧ ∀ k ∈ u.keys, k.st ≠ .live n ∧ k.st ≠ .held n)

/-- SPDM, write tokens, locked items, migration and buffer-space entries (R199, R348, R351 to R361): FINISH after
KEY_EXCHANGE opens a session with keys of its own and END_SESSION moves a secure TDI to ERROR; a vendor-defined request
is answered with a token whose SEQ is one more than the last and whose MAC covers its fields under the session's key;
TOK_GO commits the staged value or reports the first check that fails, behind the writes of the same partition that wait;
a direct write of a locked item performs in CONFIG_UNLOCKED and moves a secure TDI to ERROR; a migration, once each module
has verified the certificate of the other, seals the keys and sends them with the buffers' contents, its confirmation in
time retires them, the end of its window zeroises them and makes the TDI report lost; a valid confirmation of a window that
has ended is answered with an error, a second or invalid one has no effect; a locked and attested TDI imports the keys that
the blobs unwrap to. While the module hibernates none of these acts. The model's choices: what TOK_GO answers for a value
out of its range (log 108), what is sent at a migration (log 111), that clusters taken from a partition go to the physical
function, and which confirmations are late (log 42). -/
def Obligations.TenancyResults : Prop :=
  ∀ (n : Nat) (s : State), 1 ≤ n → n < 64 →
  let p := s.partOf n
  let t := s.mgmt.tokStage
  let alone (k : Nat × Nat) : Prop := ∀ d ∈ s.deferred, d.target ≠ k
  let refused (c : Nat) : Prop := exec .tokGo s =
    .next { s with mgmt := { s.mgmt with tokCode := c, tokCount := min (2 ^ 32 - 1) (s.mgmt.tokCount + 1) } }
  (s.hostOpen = false → (∀ i ∈ [Instr.migrationSend n, .tokGo], exec i s = .next s) ∧
    (∀ r, exec (.spdmRequest n r) s = .next s) ∧ (∀ i h, exec (.vendorDefinedRequest n i h) s = .next s) ∧
    (∀ i v, exec (.lockedItemWrite n i v) s = .next s) ∧ (∀ sig, exec (.migrationConfirm n sig) s = .next s) ∧
    (∀ m, exec (.migrationImport n m) s = .next s) ∧ ∀ a i b, exec (.bufferSpaceEntryWrite a i b) s = .next s) ∧
  (s.hostOpen = true →
  (∀ r : SpdmReq,
    let fails : Prop := exec (.spdmRequest n r) s = .next (s.send [.spdmError n])
    let answers (f : State → Prop) : Prop := ∃ u c x, exec (.spdmRequest n r) s = .next u ∧ .spdm n c x ∈ u.outbox ∧
      u.mem = s.mem ∧ (r ≠ .endSession → u.keys = s.keys) ∧ f u
    (r = .finish → p.keyEx = false → fails) ∧
    (r ∈ [.ideKeys, .heartbeat, .endSession] → p.session = false → fails) ∧
    (r = .finish → p.keyEx = true → answers (fun u => (u.partOf n).session = true ∧ (u.partOf n).sess = s.nextId ∧
      (u.partOf n).keyEx = false ∧ (u.partOf n).tokSeq = 0 ∧ (u.partOf n).tokSeen = 0)) ∧
    (r = .endSession → p.session = true → answers (fun u => (u.partOf n).session = false ∧
      (u.partOf n).tdi = (if p.tdi.secure then .error else p.tdi))) ∧
    (r = .ideKeys → p.session = true → answers (fun u => (u.partOf n).ide = true ∧ (u.partOf n).tdi = p.tdi)) ∧
    (∀ share, r = .keyExchange share → answers (fun u => (u.partOf n).keyEx = true ∧ (u.partOf n).session = p.session)) ∧
    (∀ k nonce, r = .getMeasurements k nonce → answers (fun u => (u.partOf n).attested = (p.session || p.attested))) ∧
    (∀ nonce, r ∈ [.getDigests, .getCertificate, .challenge nonce] → ∃ c x,
      exec (.spdmRequest n r) s = .next (s.send [.spdm n c x])) ∧
    (r = .getVersion → answers (fun u => .spdmVersions n [0x12, 0x13] ∈ u.outbox ∧ u.parts = s.parts)) ∧
    (r = .getCapabilities → answers (fun u =>
      .spdmCaps n [.cert, .chal, .measSig, .keyEx, .encrypt, .mac, .hbeat] ∈ u.outbox ∧ u.parts = s.parts)) ∧
    (r = .negotiate → answers (fun u =>
      .spdmAlgs n [.rsaPss4096Sha512, .sha512, .ecdheSecp384r1, .aes256Gcm] ∈ u.outbox ∧ u.parts = s.parts)) ∧
    (r = .heartbeat → p.session = true → answers (fun u => u.parts = s.parts))) ∧
  (∀ (i : LockedItem) (h : Nat), p.session = true → ∃ (u : State) (k : Token),
    exec (.vendorDefinedRequest n i h) s = .next u ∧ u.outbox = s.outbox ++ [.token n k] ∧ k.item = i.num ∧ k.part = n ∧
    k.mgen = p.mgen.toNat ∧ k.seq = p.tokSeq + 1 ∧ k.vhash = h % 2 ^ 256 ∧ k.mac = Config.tokenMac p.sess k.fields ∧
    (u.partOf n).tokSeq = p.tokSeq + 1 ∧ u.mem = s.mem ∧ u.mgmt = s.mgmt) ∧
  (∀ (i : LockedItem) (h : Nat), p.session = false →
    exec (.vendorDefinedRequest n i h) s = .next (s.send [.unsupported n])) ∧
  (¬ alone (1, t.part) → exec .tokGo s =
    .next { s with deferred := s.deferred ++ [.commit t (s.stagedOf t.item)] }) ∧
  (alone (1, t.part) →
    ((s.partOf t.part).session = false ∨ t.mac ≠ Config.tokenMac (s.partOf t.part).sess t.fields → refused 1) ∧
    ((s.partOf t.part).session = true → t.mac = Config.tokenMac (s.partOf t.part).sess t.fields →
      t.part = 0 ∨ 64 ≤ t.part ∨ 9 ≤ t.item → refused 2) ∧
    (t.part = n → t.item < 9 → p.session = true → t.mac = Config.tokenMac p.sess t.fields →
      (t.mgen ≠ p.mgen.toNat → refused 3) ∧
      (t.mgen = p.mgen.toNat → t.seq ≤ p.tokSeen → refused 4) ∧
      (t.mgen = p.mgen.toNat → p.tokSeen < t.seq → (∀ i v, s.stagedOf t.item = some (i, v) → v.vhash ≠ t.vhash) →
        refused 5) ∧
      (∀ x, t.mgen = p.mgen.toNat → p.tokSeen < t.seq → s.stagedOf t.item = some (.retry, .retry x) →
        LockedValue.vhash (.retry x) = t.vhash → (x = 0 ∨ 3600 < x → refused 5) ∧
        (1 ≤ x → x ≤ 3600 → ∃ u, exec .tokGo s = .next u ∧
          (u.partOf n).retry = x ∧ (u.partOf n).mgen = p.mgen + 1 ∧ (u.partOf n).tokSeen = t.seq ∧
          (u.partOf n).tdi = p.tdi ∧ u.mgmt.tokCode = 0 ∧ u.mem = s.mem)))) ∧
  (alone (1, n) →
    (p.tdi = .unlocked →
      (∀ x, 1 ≤ x → x ≤ 3600 → exec (.lockedItemWrite n .retry (.retry x)) s =
        .next (s.modPart n (fun p => { p with retry := x }))) ∧
      (∀ (k : BitVec 2) (x : Nat), ∃ u, exec (.lockedItemWrite n (.key k) (.key x)) s = .next u ∧
        ∀ j : BitVec 2, vget (u.partOf n).keys j.toNat 0 = if j = k then x else vget p.keys j.toNat 0) ∧
      (∀ (l : List Nat) (w : Bool), (∀ q ∈ s.losers n (.clusters l w), (s.partOf q).tdi.secure = false) →
        (s.itemWaits n (.clusters l w) = true → exec (.lockedItemWrite n .clusters (.clusters l w)) s =
          .next { s with deferred := s.deferred ++ [.direct n .clusters (.clusters l w)] }) ∧
        (s.itemWaits n (.clusters l w) = false → ∃ u, exec (.lockedItemWrite n .clusters (.clusters l w)) s = .next u ∧
          ∀ c, c < 192 → (u.findCluster c).part =
            if c ∈ l then n else if (s.findCluster c).part = n then 0 else (s.findCluster c).part))) ∧
    (∀ (i : LockedItem) (v : LockedValue), v.fits i = true → p.tdi = .locked ∨ p.tdi = .run →
      ∃ u, exec (.lockedItemWrite n i v) s = .next u ∧ (u.partOf n).tdi = .error)) ∧
  (p.migr = none → p.tdi.secure = true → (∀ l ∈ s.launches, l.stream = n → s.holdsClusters l = false) →
    Config.peerAuth s.nextId = false → exec (.migrationSend n) s = .next { s with nextId := s.nextId + 1 }) ∧
  (p.migr = none → p.tdi.secure = true → (∀ l ∈ s.launches, l.stream = n → s.holdsClusters l = false) →
    Config.peerAuth s.nextId = true → ∃ u, exec (.migrationSend n) s = .next u ∧ (u.partOf n).migr = some (s.ticks + p.retry * 100000000) ∧
      (u.partOf n).migSess = s.nextId ∧
      (∀ k ∈ u.keys, k.st ≠ .live n) ∧ (∀ k ∈ s.keys, k.st = .live n → ⟨k.index, .sealed n, k.serial⟩ ∈ u.keys) ∧
      u.outbox = s.outbox ++ [.migrKeys n (u.sealedKeys n), .migrData n (u.migrContents n)]) ∧
  (p.migr = none → p.tdi.secure = false → exec (.migrationSend n) s = .next s) ∧
  (∀ x, p.migr = some x → s.ticks < x → exec (.migrationSend n) s = .next (s.send [.migrKeys n (s.sealedKeys n)]) ∧
    exec (.retryWindowExpire n) s = .next s ∧ ∀ sig,
    (Config.sigOk Config.peerKey (migrDigest n (s.sealedKeys n)) sig = true → ∃ u,
      exec (.migrationConfirm n sig) s = .next u ∧ (u.partOf n).migr = none ∧ (∀ k ∈ u.keys, k.st ≠ .sealed n) ∧
      ∀ k ∈ s.keys, (k.st ≠ .sealed n → k ∈ u.keys) ∧ (k.st = .sealed n → ⟨k.index, .retired, k.serial⟩ ∈ u.keys)) ∧
    (Config.sigOk Config.peerKey (migrDigest n (s.sealedKeys n)) sig = false → s.lateConfirm n sig = false →
      exec (.migrationConfirm n sig) s = .next s)) ∧
  (∀ sig, p.migr = none → exec (.migrationConfirm n sig) s =
    .next (if s.lateConfirm n sig then s.send [.migrLate n] else s)) ∧
  (∀ x sig, p.migr = some x → x ≤ s.ticks → ∀ i ∈ [Instr.retryWindowExpire n, .migrationSend n, .migrationConfirm n sig],
    ∃ u, exec i s = .next u ∧ (u.partOf n).tdi = .error ∧ (u.partOf n).lost = true ∧ (u.partOf n).migr = none ∧
      (i = .migrationConfirm n sig → Config.sigOk Config.peerKey (migrDigest n (s.sealedKeys n)) sig = true →
        .migrLate n ∈ u.outbox) ∧ ∀ k ∈ u.keys, k.st ≠ .sealed n) ∧
  (∀ (l : List WrappedKey) (z : WrappedKey → Nat), p.tdi = .locked → p.attested = true → Config.peerAuth s.nextId = true →
    (∀ k ∈ l, k.index ≠ 0 ∧ k.bufs ≠ [] ∧ (∀ b ∈ k.bufs, (s.spaceOf b.1).entry b.2 = none) ∧
      (∀ x ∈ s.keys, x.index ≠ k.index) ∧ Config.unwrap (Config.migrKey s.nextId) k.blob = some (z k)) →
    (l.map (fun k => k.index)).Nodup → ∃ u, exec (.migrationImport n (.keys l [])) s = .next u ∧
      (∀ k, k ∈ s.keys → k ∈ u.keys) ∧ (∀ k ∈ l, ⟨k.index, .live n, z k⟩ ∈ u.keys) ∧
      u.outbox = s.outbox ++ [.migrConfirm n (Config.sign (migrDigest n l))]) ∧
  (∀ (k : WrappedKey) (z : Nat), p.tdi = .locked → p.attested = true → Config.peerAuth s.nextId = true → k.index ≠ 0 →
    (∀ x ∈ s.keys, x.index ≠ k.index) → Config.unwrap (Config.migrKey s.nextId) k.blob = some z →
    ∃ u, exec (.migrationImport n (.keys [k] [])) s = .next u ∧
      u.outbox = s.outbox ++ [.migrConfirm n (Config.sign (migrDigest n [k]))] ∧
      (k.bufs = [] → p.wrapKey ≠ k.index → ⟨k.index, .live n, z⟩ ∈ u.keys ∧ (u.partOf n).wrapKey = k.index) ∧
      ∀ a i e, k.bufs = [(a, i)] → a ∈ p.asids → (s.spaceOf a).entry i = some e → e.owner = a → e.key ≠ k.index →
        (u.spaceOf a).entry i = some { e with key := k.index } ∧ u.keySerial k.index = some z) ∧
  (∀ (k : WrappedKey) d, p.tdi = .locked → p.attested = true → Config.peerAuth s.nextId = true →
    Config.unwrap (Config.migrKey s.nextId) k.blob = none →
    exec (.migrationImport n (.keys [k] d)) s = .next { s with nextId := s.nextId + 1 }) ∧
  (∀ (a i o : Nat) (b : Byte) (e : BufEntry), p.tdi = .locked → p.attested = true → Config.peerAuth s.nextId = true →
    a ∈ p.asids → MemInv s →
    (s.spaceOf a).entry i = some e → e.isLocal = false → o < e.length → e.length ≤ 2 ^ 40 → ∃ u,
      exec (.migrationImport n (.keys [] [(a, i, o, b)])) s = .next u ∧ homeByte u e.extmap o = b) ∧
  (∀ l d, p.tdi ≠ .locked ∨ p.attested = false ∨ Config.peerAuth s.nextId = false → exec (.migrationImport n (.keys l d)) s = .next s) ∧
  (p.tdi.secure = true → ∃ u, exec (.migrationImport n .late) s = .next u ∧ (u.partOf n).tdi = .error ∧
    ∀ k ∈ u.keys, k.st ≠ .live n) ∧
  (∀ asid index bits, index < 4096 → alone (0, asid) →
    ((∃ l ∈ s.launches, l.lrec.asid = asid ∧ s.holdsClusters l = true) →
      exec (.bufferSpaceEntryWrite asid index bits) s =
        .next { s with deferred := s.deferred ++ [.entry asid index bits] }) ∧
    ((∀ l ∈ s.launches, l.lrec.asid = asid → s.holdsClusters l = false) →
      s.partOfAsid asid = none → (s.spaceOf asid).entry index = none →
      (BufEntry.ofBits bits).valid = true → (BufEntry.ofBits bits).shared = false → ∃ (u : State) (e : BufEntry),
        exec (.bufferSpaceEntryWrite asid index bits) s = .next u ∧ (u.spaceOf asid).entry index = some e ∧
        e = { BufEntry.ofBits bits with key := 0, world := false } ∧ u.mem = s.mem ∧
        ∀ a i, (a, i) ≠ (asid, index) → (a = asid → i < (s.spaceOf asid).size ∨ (s.spaceOf asid).entries.find? (fun q => q.1 == i) = none) →
          (u.spaceOf a).entry i = (s.spaceOf a).entry i)))

/-- The fabric of a module (R281, R365 to R370, R386, R395, R415): a link goes down and up, a flit's error is answered
by a replay until sixteen in a row take the link down, a lost lane sets REPLACE and is journalled; a request of a peer
is performed at its home and answered, or answered with a fault or PAUSED and changes no byte; PAUSED holds an access
that returns a value and retires a store into the side log; RESUMED releases what was held for a peer. On a VPM9-P,
which has no fabric, each of these stops with the fault absentUnit, as log 2 has it. That LINK_UP carries the fabric
manager's assignment of module number and domain size is the model's choice (log 106); that a peer's request which fails the
port check is answered with a fault is read from the spec (log 59). -/
def Obligations.FabricResults : Prop :=
  (∀ (n q p k : Nat) (r : PeerReq) (dom : Option (Nat × Nat)) (s : State), s.code = .vpm9p →
    ∀ i ∈ [Instr.linkDown n, .linkUp ⟨n, dom⟩, .flitCrcError n q,
    .linkLaneLost n q, .peerMemoryRequest r, .pausedResponse p k, .resumed p], exec i s = .fault .absentUnit) ∧
  (∀ (n : Nat) (s : State), s.code = .vpm9mh → n < 16 →
    (∃ u, exec (.linkDown n) s = .next u ∧ (u.linkOf n).up = false ∧ (∀ m, m ≠ n → u.linkOf m = s.linkOf m) ∧ u.mem = s.mem) ∧
    (∀ dom : Option (Nat × Nat), s.heldHost = [] → ∃ u, exec (.linkUp ⟨n, dom⟩) s = .next u ∧ (u.linkOf n).up = true ∧
      (u.linkOf n).lost = (s.linkOf n).lost ∧ (∀ m, m ≠ n → u.linkOf m = s.linkOf m) ∧ u.mem = s.mem ∧
      (dom = none → u.module = s.module ∧ u.dsize = s.dsize) ∧
      ∀ m d, dom = some (m, d) → m < d → d ≤ 64 → u.module = m ∧ u.dsize = d) ∧
    (∀ q, (s.linkOf n).seq = q → 16 ≤ (s.linkOf n).replays → ∃ u, exec (.flitCrcError n q) s = .next u ∧
      (u.linkOf n).up = false ∧ u.outbox = s.outbox) ∧
    (∀ q, (s.linkOf n).seq ≠ q ∨ (s.linkOf n).replays < 16 → ∃ u, exec (.flitCrcError n q) s = .next u ∧
      (u.linkOf n).up = (s.linkOf n).up ∧ u.outbox = s.outbox ++ [.replay n q] ∧
      (u.linkOf n).replays = if (s.linkOf n).seq = q then (s.linkOf n).replays + 1 else 1) ∧
    (∀ lane, lane < 8 → lane ∉ (s.linkOf n).lost → s.journal.close.full = false → ∃ u,
      exec (.linkLaneLost n lane) s = .next u ∧ (u.linkOf n).lost = (s.linkOf n).lost ++ [lane] ∧
      u.mgmt.replace = true ∧ Logged s u 9 .link)) ∧
  (∀ (r : PeerReq) (s : State), s.code = .vpm9mh → s.power.phase ≠ .off →
    let n := peerLen r.op
    let answers (m : Msg) : Prop := ∃ u, exec (.peerMemoryRequest r) s = .next u ∧ u.outbox = s.outbox ++ [m] ∧ u.mem = s.mem
    ((s.spaceOf r.asid).entry r.index = none → answers (.peerFault r.src)) ∧
    (∀ e, (s.spaceOf r.asid).entry r.index = some e →
      (s.answersPaused e r.off n = true → answers (.peerPaused r.src)) ∧
      (s.answersPaused e r.off n = false → e.kind ≠ .memory ∨ e.length < r.off + n ∨ e.world ≠ r.world →
        answers (.peerFault r.src)) ∧
      (s.answersPaused e r.off n = false → e.kind = .memory → r.off + n ≤ e.length → e.world = r.world →
        r.off + n ≤ 2 ^ 40 → (∀ x ∈ extentsOf r.off n, s.present e.extmap x = true) →
        s.portOkMem e r.off n = true → s.poisonIn e.extmap r.off n = [] →
        let bytes := (List.range n).map (fun i => homeByte s e.extmap (r.off + i))
        let stores (u : State) (f : Nat → Byte) : Prop := exec (.peerMemoryRequest r) s = .next u ∧
          (∀ i, i < n → homeByte u e.extmap (r.off + i) = f i) ∧
          ∀ m a, a < 2 ^ 40 → m ≠ e.extmap ∨ a < r.off ∨ r.off + n ≤ a → homeByte u m a = homeByte s m a
        (∀ k, r.op = .read k → ∃ tags, answers (.peerData r.src bytes tags)) ∧
        (MemInv s →
          (∀ d t, r.op = .write d t → ∃ u, stores u (fun i => (d[i]?).getD 0) ∧ u.outbox = s.outbox ++ [.peerAck r.src]) ∧
          (∀ z v, r.op = .add z v → ∃ u, stores u (byteAt (bytesToNat bytes + v)) ∧
            u.outbox = s.outbox ++ [.peerData r.src bytes []]) ∧
          (∀ z v, r.op = .swap z v → ∃ u, stores u (byteAt v) ∧ u.outbox = s.outbox ++ [.peerData r.src bytes []]) ∧
          (∀ z old new, r.op = .cas z old new → ∃ u, stores u (if bytesToNat bytes = old % 2 ^ (8 * z) then byteAt new
              else fun i => homeByte s e.extmap (r.off + i)) ∧ u.outbox = s.outbox ++ [.peerData r.src bytes []]))))) ∧
  (∀ (p k : Nat) (s : State) (x : Access), s.code = .vpm9mh → s.ctx.mem.outs[k]? = some x → s.heldByPeer x p ≠ [] →
    (x.op.returns = true → ∃ u, exec (.pausedResponse p k) s = .next u ∧ SameBytes s u ∧ SameFiles s.ctx u.ctx ∧
      u.ctx.mem.slog = s.ctx.mem.slog ∧ (∀ y ∈ u.ctx.mem.outs, y.seq = x.seq → y.hold = true) ∧
      ∀ h ∈ s.heldByPeer x p, h ∈ u.pausedBy) ∧
    (x.op.returns = false → x.op.isFence = false → s.ctx.mem.slog.length < 32 → ∃ u,
      exec (.pausedResponse p k) s = .next u ∧ SameBytes s u ∧ SameFiles s.ctx u.ctx ∧
      u.ctx.mem.slog = s.ctx.mem.slog ++ [s.intoLog x] ∧ ((∀ t, x.op ≠ .scap t) → s.intoLog x = x) ∧
      (∀ y ∈ u.ctx.mem.outs, y.seq ≠ x.seq) ∧
      ∀ h ∈ s.heldByPeer x p, h ∈ u.pausedBy)) ∧
  (∀ (p k : Nat) (s : State) (c : Card), s.code = .vpm9mh → s.card k = some c → ∃ l,
    exec (.pausedResponse p (s.ctx.mem.outs.length + k)) s = .next { s with pausedBy := l } ∧
      (∀ h ∈ s.cardByPeer c p, h ∈ l) ∧ ∀ h ∈ s.pausedBy, h ∈ l) ∧
  (∀ (p : Nat) (s : State), s.code = .vpm9mh → s.heldHost = [] → ∃ u, exec (.resumed p) s = .next u ∧ SameBytes s u ∧
    u.ctx = s.ctx ∧ ∀ m x, (m, x) ∈ u.pausedBy → ∃ y, s.extent m x = some y ∧ y.peer ≠ p)

/-- Collective jobs on a module (R371, R372, R375, R376, R378, R379, R420): reports and silence change a member's
state and nothing else of the group, and a peer that asks is answered with this member's; a segment is added once to the
job of its step, kept for a job that has not come, answered with this member's state by a stopped one of that step; a member
that resumes is answered with this one's state, its map and the segments it lacks; a report of a written DST, or of a fault,
counts for the job of its step and is kept for one that has not come; a job whose contributions are all here writes DST and
reports so, and once every member has reported it sets its done bit and moves the group's last step; a fault ends it with
its cause. On a VPM9-P the events of other members stop with the fault absentUnit, as log 2 has it. That members exchange
their own contributions in segments of a flit, and what reports and answers carry, is the model's reading where the spec
leaves the exchange open (logs 41, 46). -/
def Obligations.CollectiveResults : Prop :=
  (∀ (gid rank seg step : Nat) (st : MemberMsg) (d : CollDecl) (v : List Nat) (m : List (Nat × Nat)) (s : State),
    s.code = .vpm9p → ∀ i ∈ [Instr.memberMissing gid rank, .waitlimExpire gid rank, .collSegmentReceive gid rank seg d v,
      .resumeMember gid rank step m, .memberStateReport gid rank st], exec i s = .fault .absentUnit) ∧
  (∀ (gid : Nat) (s : State) (g : Group), s.code = .vpm9mh → s.groupOf gid = some g →
    let own := g.entry.rank
    let mine : Msg := .memberState gid own (g.stateOf own)
    (∀ rank (st : MState), rank < g.entry.g → rank ≠ own →
      let becomes (i : Instr) (st : MState) : Prop := ∃ u h, exec i s = .next u ∧ u.groupOf gid = some h ∧
        h.stateOf rank = st ∧ (∀ r, r ≠ rank → h.stateOf r = g.stateOf r) ∧ h.entry = g.entry ∧ h.lastStep = g.lastStep ∧
        u.ctx = s.ctx ∧ SameBytes s u
      (st ≠ .missing → becomes (.memberStateReport gid rank (.state st)) st) ∧
      (g.stateOf rank ≠ .missing → becomes (.memberMissing gid rank) .missing) ∧
      (s.restoringIn g.entry.asid = false → ∃ u, exec (.memberStateReport gid rank .ask) s = .next u ∧
        u.outbox = s.outbox ++ [mine] ∧ u.groups = s.groups) ∧
      (∀ x step, s.collOf gid = some x → s.jobStep gid = some step →
        (∃ u y, exec (.memberStateReport gid rank (.written step)) s = .next u ∧ u.collOf gid = some y ∧ rank ∈ y.reports ∧
          (∀ r, r ≠ rank → (r ∈ y.reports ↔ r ∈ x.reports)) ∧ y.recv = x.recv ∧ y.written = x.written ∧ u.groups = s.groups) ∧
        ∃ u y, exec (.memberStateReport gid rank (.jobFault step)) s = .next u ∧ u.collOf gid = some y ∧ y.fault = true ∧
          y.recv = x.recv ∧ u.groups = s.groups) ∧
      (∀ n step, s.jobStep gid = some n ∨ s.jobStep gid = none ∧ g.lastStep = some n →
        (n < step → ∃ u v h k, exec (.memberStateReport gid rank (.written step)) s = .next u ∧
          exec (.memberStateReport gid rank (.jobFault step)) s = .next v ∧ u.coll = s.coll ∧ v.coll = s.coll ∧
          u.groupOf gid = some h ∧ (rank, step) ∈ h.wrote ∧ v.groupOf gid = some k ∧ (rank, step) ∈ k.failed ∧
          h.members = g.members ∧ k.members = g.members) ∧
        (step < n → ∃ u, exec (.memberStateReport gid rank (.written step)) s = .next u ∧
          u.coll = s.coll ∧ u.groups = s.groups))) ∧
    (∀ st, exec (.memberStateReport gid own st) s = .next s ∧ exec (.memberMissing gid own) s = .next s) ∧
    (∀ rank seg d v, rank < g.entry.g → rank ≠ own →
      (s.collOf gid = none → (∀ x ∈ g.early, x.1 ≠ (rank, seg)) → ∃ u h, exec (.collSegmentReceive gid rank seg d v) s = .next u ∧
        u.groupOf gid = some h ∧ h.early = g.early ++ [((rank, seg), d, v)] ∧ u.coll = s.coll) ∧
      (∀ x, s.collOf gid = some x → s.jobAt gid = none → s.jobStep gid = some d.step →
        exec (.collSegmentReceive gid rank seg d v) s = .next (s.send [mine])) ∧
      (∀ x k i c j, s.collOf gid = some x → s.jobAt gid = some (k, i, c) → c.job = some j → d = c.decl j →
        seg < segCount (c.es j) (c.elems j) → v.length = (segOf (c.es j) seg (List.replicate (c.elems j) 0)).length →
        ∃ u y, exec (.collSegmentReceive gid rank seg d v) s = .next u ∧ u.collOf gid = some y ∧
          y.recv = (if (rank, seg) ∈ x.map then x.recv else x.recv ++ [((rank, seg), v)]) ∧ u.ctx = s.ctx ∧ SameBytes s u)) ∧
    (∀ rank m, rank < g.entry.g → rank ≠ own →
      (∀ step, ∃ u h, exec (.resumeMember gid rank step m) s = .next u ∧ u.groupOf gid = some h ∧
        h.stateOf rank = .active ∧ (∀ y, u.collOf gid = some y → rank ∉ y.awaits) ∧
        (s.restoringIn g.entry.asid = true → u.outbox = s.outbox) ∧
        (s.restoringIn g.entry.asid = false → s.jobAt gid = none → u.outbox = s.outbox ++ [mine]) ∧
        ∀ y n, u.collOf gid = some y → s.jobStep gid = some n → n < step → (rank, step) ∈ y.steps) ∧
      (∀ x k i c j, s.restoringIn g.entry.asid = false → s.collOf gid = some x → s.jobAt gid = some (k, i, c) →
        c.job = some j →
        ∃ u l h, exec (.resumeMember gid rank j.step m) s = .next u ∧ u.groupOf gid = some h ∧ h.stateOf rank = .active ∧
        u.outbox = s.outbox ++ mine :: .rejoined gid own rank j.step x.map (x.phase own) :: l ∧
        (∀ a ∈ l, ∃ seg vals, a = .segment gid own rank seg (c.decl j) vals ∧ (own, seg) ∉ m ∧ ((own, seg), vals) ∈ x.recv) ∧
        ∀ seg vals, seg < segCount (c.es j) (c.elems j) → (own, seg) ∉ m →
          x.recv.find? (fun y => y.1 == (own, seg)) = some ((own, seg), vals) →
          .segment gid own rank seg (c.decl j) vals ∈ l)) ∧
    (∀ i c j, s.jobAt gid = some (s.core, i, c) → c.job = some j → s.cardOwner c s.ctx = true → c.db < 60 →
      s.clus.num = s.core.cluster →
      (∀ cause, s.jobCause gid = some cause →
        let ends (n : Instr) : Prop := ∃ u, exec n s = .next u ∧ u.ctx.c.done.getLsbD c.db = true ∧
          u.ctx.st.dfault.getLsbD c.db = true ∧ u.ctx.st.jstat[c.db]? = some (BitVec.ofNat 64 cause) ∧
          (∀ y ∈ u.coll, y.gid ≠ gid) ∧ (c.started = false → u.mem = s.mem)
        (cause ≠ 0 → ends (.collJobFault gid cause)) ∧
        (∀ rank, cause = 0x12 → s.missingLong g rank = true → ends (.waitlimExpire gid rank)) ∧
        (∀ other, other ≠ cause → exec (.collJobFault gid other) s = .next s)) ∧
      (∀ map e bs fl x, s.collOf gid = some x → c.dstEnt = some e →
        e.loc s.core.num c.card.dst.cursor = (.mem map, c.card.dst.cursor) → s.collResult g c j = some (bs, fl) →
        (s.jobWrites gid = true → s.portOk e (.mem map) c.card.dst.cursor bs.length = true → MemInv s →
          c.card.dst.cursor + bs.length ≤ 2 ^ 40 → (∃ r, r < g.entry.g ∧ r ≠ own ∧ r ∉ x.reports) →
          ∃ u y, exec (.collJobComplete gid) s = .next u ∧ u.collOf gid = some y ∧ y.written = true ∧ y.recv = x.recv ∧
            u.outbox = s.outbox ++ [.written gid own j.step] ∧ u.ctx = s.ctx ∧ u.groups = s.groups ∧
            ∀ (o : Nat) (b : Byte), bs[o]? = some b → homeByte u map (c.card.dst.cursor + o) = b) ∧
        (s.jobDone gid = true →
          ∃ u h, exec (.collJobComplete gid) s = .next u ∧ u.ctx.c.done.getLsbD c.db = true ∧
            u.ctx.st.jstat[c.db]? = some (BitVec.ofNat 64 (fl.toNat * 2 ^ 8)) ∧ u.ctx.st.dfault = s.ctx.st.dfault ∧
            u.groupOf gid = some h ∧ h.lastStep = some j.step ∧ (∀ y ∈ u.coll, y.gid ≠ gid) ∧ u.mem = s.mem))) ∧
    (s.jobWrites gid = false → s.jobDone gid = false → exec (.collJobComplete gid) s = .next s))

/-- Brown-out and power failure of a module (R385 to R398, R402): BROWN sets done bit 62 in every context as the cycle ends
(R321) and sheds the next stack of SHEDORDER, again where every one is shed and the bus falls anew; a shed that is complete is
noted, and while the bus is low the next begins; a return takes the stack shed last; PWRF and an escalated brown-out start
hibernation, which stops the launches; its phase 2 begins once nothing is left to perform, and once every context is saved
it ends with a signed manifest of SEQ counter plus one and the cut. On a VPM9-P each of these stops with the fault
absentUnit, as log 2 has it. That a return clears BROWN is read from the spec (log 62); which fields of the state the
manifest stands for is the model's choice (log 64). -/
def Obligations.PowerFailResults : Prop :=
  (∀ (b : Bool) (n : Nat) (s : State), s.code = .vpm9p → ∀ i ∈ [Instr.brown, .shedComplete b, .stackReturn,
    .brownoutEscalate n, .pwrf n, .rackingStop n, .erestartReached n, .restartPwrf, .restartReport],
    exec i s = .fault .absentUnit) ∧
  (∀ s : State, s.code = .vpm9mh →
    let d62 (u : State) : Prop := ∀ c ∈ u.endCycle.allCtx, c.phase ≠ .vacant → c.c.done.getLsbD 62 = true
    let hib (i : Instr) (reason reserve : Nat) : Prop := ∃ u, exec i s = .next u ∧ u.power.phase = .hib 1 ∧
      u.power.reason = reason ∧ u.power.reserve = reserve ∧ u.power.raised = s.ticks ∧ u.heldHost = [] ∧
      (∀ l ∈ u.launches, l.state = .running → ∀ c ∈ s.allCtx, c.place.launch = l.id → c.phase ≠ .running) ∧
      u.mem = s.mem ∧ u.ctx = s.ctx
    let seals (i : Instr) : Prop := ∃ (u : State) (m : Manifest), exec i s = .next u ∧ u.power.phase = .off ∧
      (u.power.slotA = some m ∨ u.power.slotB = some m) ∧ m.seq = s.power.counter + 1 ∧ m.reason = s.power.reason ∧
      m.ticks = s.power.raised ∧ m.verifies = true ∧ m.launches = s.launches ∧ m.parts = s.parts ∧ m.keys = s.keys ∧
      m.ctxs = s.allCtx.filter (fun c => c.phase.isStopped) ∧ u.power.counter = s.power.counter ∧ u.mem = [] ∧
      u.ctx.phase = .vacant ∧ u.others = [] ∧ u.launches = [] ∧ u.keys = [] ∧ u.hostMem = s.hostMem
    (s.power.phase = .on → s.power.brown = false ∨ s.power.shedding = none → ∃ u,
      exec .brown s = .next u ∧ u.power.brown = true ∧
      d62 u ∧ u.mgmt.update = false ∧
      (∀ k, s.power.shedding = none → s.nextShed = some k → u.power.shedding = some k ∧
        ∀ c, c < 192 → clusterStack c = k → (u.findCluster c).shed = true) ∧ u.mem = s.mem) ∧
    (s.power.phase ≠ .on ∨ s.power.brown = true ∧ s.power.shedding ≠ none → exec .brown s = .next s) ∧
    (∀ below, s.power.shedding = none → exec (.shedComplete below) s = .next s) ∧
    (∀ below k, s.power.shedding = some k → s.stackSaved k = false → exec (.shedComplete below) s = .next s) ∧
    (∀ below k, s.power.shedding = some k → s.stackSaved k = true → ∃ u, exec (.shedComplete below) s = .next u ∧
      u.power.shed = s.power.shed ++ [k] ∧ u.power.brown = below ∧ (below = false → u.power.shedding = none) ∧
      (below = true → d62 u) ∧
      (below = true → u.power.shedding = s.mgmt.shedOrder.find? (fun j => !(s.power.shed ++ [k]).contains j))) ∧
    (∀ k, s.power.shed.getLast? = some k → s.power.phase = .on → s.power.shedding = none → s.heldHost = [] →
      ∃ u, exec .stackReturn s = .next u ∧ u.power.shed = s.power.shed.dropLast ∧ u.power.brown = false ∧
        (∀ c, c < 192 → clusterStack c = k → (u.findCluster c).shed = false) ∧
        u.outbox = s.outbox ++ s.pausedTo.map Msg.peerResumed ∧ u.mem = s.mem) ∧
    (s.power.shed = [] → exec .stackReturn s = .next s) ∧
    (∀ r, s.power.phase = .on → s.restarting = false → hib (.pwrf r) 0x21 r ∧
      (s.power.brown = true ∨ s.power.shedding ≠ none ∨ s.power.shed ≠ [] → hib (.brownoutEscalate r) 0x22 r) ∧
      (s.power.brown = false → s.power.shed = [] → s.power.shedding = none →
        exec (.brownoutEscalate r) s = .next s.settleRestart)) ∧
    (∀ r, s.power.phase = .hib 1 → exec (.rackingStop r) s = .next s ∧
      (s.hibDrained = false → exec (.pwrf r) s = .next s) ∧
      (s.hibDrained = true → exec (.pwrf r) s = .next { s with power := { s.power with phase := .hib 2 } })) ∧
    (∀ r, s.power.phase = .hib 2 → s.allSaved = true → seals (.pwrf r) ∧ seals (.rackingStop r)) ∧
    (∀ r, s.power.phase = .hib 2 → s.allSaved = false →
      exec (.pwrf r) s = .next s ∧ exec (.rackingStop r) s = .next s) ∧
    (∀ r, s.power.phase = .off → exec (.pwrf r) s = .next s) ∧
    (∀ r, (∀ p, s.power.phase ≠ .hib p) → exec (.rackingStop r) s = .next s))

/-- Restart and loss of supply (R2, R390, R399 to R404, R410): power loss leaves the journals, the manifest slots and
the host's memory and nothing of the module's memory; POWER_UP begins a restart; at ERESTART a valid manifest's
tables, memory, launches and contexts come back with every stream disabled, the counter advances at once where no launch
has to come back and waits for those that do, and without one each TDI is in CONFIG_UNLOCKED and reported lost; a PWRF
during the restart powers off; a thermal cut latches its cause, which POWER_UP journals, or on a VPM9-P reports. Events of
units that a VPM9-P lacks stop with the fault absentUnit, as log 2 has it. Read from the spec: that a VPM9-P reports a cut
over the management path (log 55), what outlasts the power (log 65), which launches a restart waits for (log 67). -/
def Obligations.RestartResults : Prop :=
  ∀ s : State,
  let lasts (u : State) : Prop := u.power.phase = .off ∧ u.power.slotA = s.power.slotA ∧ u.power.slotB = s.power.slotB ∧
    u.power.counter = s.power.counter ∧ u.hostMem = s.hostMem ∧ u.ljournal = s.ljournal ∧ u.mem = [] ∧ u.memTags = [] ∧
    u.launches = [] ∧ u.keys = [] ∧ u.ctx.phase = .vacant ∧ u.others = []
  (∃ u, exec .powerLoss s = .next u ∧ lasts u ∧ u.journal = s.journal) ∧
  (∀ k, ∃ u, exec (.thermalCut (.junction k)) s = .next u ∧ lasts u ∧ u.power.cut = true ∧
    u.mgmt.cutCause.getLsbD 0 = true ∧
    (s.mgmt.cutCause.getLsbD 0 = false → u.mgmt.cutStack = k % 8) ∧ u.journal.entries = s.journal.entries) ∧
  (∀ x ∈ [(CutSensor.board, 1), (.reserve, 2), (.overvoltage, 3)],
    (s.code = .vpm9mh → ∃ u, exec (.thermalCut x.1) s = .next u ∧ lasts u ∧ u.power.cut = true ∧
      u.mgmt.cutCause.getLsbD x.2 = true) ∧
    (s.code = .vpm9p → exec (.thermalCut x.1) s = .fault .absentUnit)) ∧
  (s.power.phase ≠ .off → exec .powerUp s = .next s) ∧
  (s.power.phase = .off → s.code = .vpm9p → ∃ u, exec .powerUp s = .next u ∧ u.power.phase = .on ∧
    u.outbox = s.outbox ++ (if s.power.cut then [.event 6 9 (Config.logicLoc 9 [s.mgmt.cutStack])] else [])) ∧
  (s.power.phase = .off → s.code = .vpm9mh → s.journal.close.full = false → ∃ u, exec .powerUp s = .next u ∧
    u.power.phase = .restart 2 ∧ (s.power.cut = true → Logged s u 6 .thermal) ∧
    (s.power.cut = false → u.journal = s.journal.close)) ∧
  (s.code = .vpm9mh →
    (s.restarting = true → ∃ u, exec .restartPwrf s = .next u ∧ lasts u) ∧
    (s.restarting = false → exec .restartPwrf s = .next s) ∧
    (∀ g, s.power.phase ≠ .restart 2 ∨ g < s.mgmt.erestart → exec (.erestartReached g) s = .next s) ∧
    (∀ g m, s.power.phase = .restart 2 → s.mgmt.erestart ≤ g → s.power.cut = false → s.power.valid = some m →
      m.lost = [] → s.regions = [] → ∃ u, exec (.erestartReached g) s = .next u ∧
        m.verifies = true ∧ m.seq = s.power.counter + 1 ∧ u.power.phase = .on ∧ u.mem = m.mem ∧
        (∀ k ∈ u.memTags, k ∈ m.memTags ∧ u.staleKey k = false) ∧ u.launches = m.launches ∧ u.graphs = m.graphs ∧ u.exts = m.exts ∧
        (∀ x ∈ u.streams, x.enable = false) ∧ u.others.map (fun c => (c.pc, c.i, c.c, c.va, c.vb, c.st)) =
          m.ctxs.map (fun c => (c.pc, c.i, c.c, c.va, c.vb, c.st)) ∧
        ((∃ l ∈ m.launches, l.state.isStopped = true) → u.power.pending = m.launches.map (fun l => l.id) ∧
          u.power.counter = s.power.counter) ∧
        (m.launches = [] → (∀ x ∈ m.streams, x.begun = none) → u.power.pending = [] ∧ u.power.counter = m.seq)) ∧
    (∀ g, s.power.phase = .restart 2 → s.mgmt.erestart ≤ g → s.power.cut = true ∨ s.power.valid = none →
      ∃ u, exec (.erestartReached g) s = .next u ∧ u.power.phase = .on ∧ u.power.failed = s.lostBegins ∧
        ∀ n, 1 ≤ n → n < 64 → (u.partOf n).tdi = .unlocked ∧ (u.partOf n).lost = true ∧ (u.partOf n).asids = []) ∧
    exec .restartReport s = .next (s.send [.restartReport s.power.failed
      ((s.parts.filter (fun (p : Part) => p.lost)).map (fun (p : Part) => p.num))]))

/-- Voltage regions, temperature and issue patterns (R31, R407 to R409): a lost phase is counted, sets REPLACE and is
journalled, and a second one in a region sheds it; a sample, one in each period of 1,000 ticks, adds the weight of its
temperature to D, less DLEAK, and moves SLOTS by at most one towards its target; one that changes SLOTS abandons a live
firmware update, which is read from R417 (log 52); a decrease of a cluster's slots sets done bit 61 in its contexts as the
cycle ends (R321); a core's cap is 16, 12 or 8. -/
def Obligations.ThermalResults : Prop :=
  ∀ (n : Nat) (s : State), n < 48 →
  (s.code = .vpm9mh → s.journal.close.full = false → (∀ r ∈ s.regions, (r.lost < 2 ∨ r.shed = true) ∧ (r.shed = false ∨ r.off = true)) →
    (s.regionOf n).lost = 0 → ∃ u, exec (.phaseLoss n) s = .next u ∧ (u.regionOf n).lost = 1 ∧ u.mgmt.replace = true ∧
      u.mgmt.phlost = min 127 (s.mgmt.phlost + 1) ∧ Logged s u 4 .regulator ∧ u.mem = s.mem) ∧
  ((s.regionOf n).lost = 1 → (s.regionOf n).shed = false → s.power.phase = .on → s.power.shedding = none →
    ∃ u, exec (.phaseLoss n) s = .next u ∧ (u.regionOf n).lost = 2 ∧ (u.regionOf n).shed = true ∧
      (∀ c, c < 192 → clusterRegion c = n → (u.findCluster c).healthy = false) ∧
      ∀ l ∈ u.launches, l.state = .running → ∀ c ∈ l.clusters, c < 192 → clusterRegion c ≠ n) ∧
  (∀ temp : Int, s.ticks < (s.regionOf n).sampled * 1000 → exec (.thermalSample n temp) s = .next s) ∧
  (∀ temp : Int, (s.regionOf n).sampled * 1000 ≤ s.ticks → ∃ u, exec (.thermalSample n temp) s = .next u ∧
    (∀ m, m ≠ n → u.regionOf m = s.regionOf m) ∧ (u.regionOf n).sampled = s.ticks / 1000 + 1 ∧
    (u.mgmt = if (u.regionOf n).slots = (s.regionOf n).slots then s.mgmt
      else { s.mgmt with update := false, fwNew := none }) ∧
    let a := s.regionOf n
    let b := u.regionOf n
    (temp < 75 → b.d = min (2 ^ 32 - 1) (a.d - s.mgmt.dleak)) ∧
    (∀ k : Nat, k < 12 → 75 + 5 * (k : Int) ≤ temp → temp < 80 + 5 * (k : Int) →
      b.d = min (2 ^ 32 - 1) (a.d + 2 ^ k - s.mgmt.dleak)) ∧
    (135 ≤ temp → b.d = min (2 ^ 32 - 1) (a.d + 4096 - s.mgmt.dleak)) ∧
    (b.slots = a.slots ∨ b.slots + 1 = a.slots ∨ b.slots = a.slots + 1) ∧
    (s.mgmt.dstep ≠ 0 → s.mgmt.dthr ≤ b.d → 1 < a.slots → 16 < (b.d - s.mgmt.dthr + s.mgmt.dstep - 1) / s.mgmt.dstep + a.slots → b.slots = a.slots - 1) ∧
    (b.d < s.mgmt.dthr → a.slots < 16 → 99 ≤ a.since → b.slots = a.slots + 1 ∧ b.since = 0) ∧
    (a.since < 99 → b.slots ≤ a.slots) ∧ u.mem = s.mem ∧ u.ctx = s.ctx) ∧
  (∀ c k, c < 192 → s.cycle % 16 = 0 → k = s.slotsFor c → k < patternSlots (s.findCluster c).pattern →
    ∃ u, exec (.patternChange c k) s = .next u ∧ u.mem = s.mem ∧
      ∀ x ∈ u.endCycle.allCtx, x.place.cluster = c → x.phase.occupied = true → x.c.done.getLsbD 61 = true) ∧
  (∀ c k, s.cycle % 16 ≠ 0 ∨ k ≠ s.slotsFor c → exec (.patternChange c k) s = .next s) ∧
  (∀ cap ∈ [8, 12, 16], exec (.droopCapChange cap) s = .next { s with core := { s.core with cap := cap } }) ∧
  (∀ cap, cap ∉ [8, 12, 16] → exec (.droopCapChange cap) s = .next s)

/-- The pattern of k enabled slots has bit n set exactly when floor((n + 1) k / 16) exceeds floor(n k / 16), with the
spec's four examples; a cluster takes a pattern only at a 16-cycle boundary, that of its slot count; the count is the
smallest of the region's thermal target, PCAP and 16 (R408). -/
def Obligations.PatternFollowsSlots : Prop :=
  (∀ k n, 1 ≤ k → k ≤ 16 → n < 16 → ((slotPattern k).getLsbD n = true ↔ n * k / 16 < (n + 1) * k / 16)) ∧
  slotPattern 16 = 0xFFFF ∧ slotPattern 8 = 0xAAAA ∧ slotPattern 4 = 0x8888 ∧ slotPattern 1 = 0x8000 ∧
  (∀ (s : State) (c : Nat), 1 ≤ (s.regionOf (clusterRegion c)).slots → 1 ≤ s.mgmt.pcap →
    s.slotsFor c = min (min (s.regionOf (clusterRegion c)).slots s.mgmt.pcap) 16) ∧
  (∀ (c k : Nat) (s : State), s.cycle % 16 ≠ 0 → exec (.patternChange c k) s = .next s) ∧
  (∀ (c : Nat) (s : State), c < 192 → s.cycle % 16 = 0 → ∃ u, exec (.patternChange c (s.slotsFor c)) s = .next u ∧
    (u.findCluster c).pattern = slotPattern (s.slotsFor c) ∧ ∀ m, m ≠ c → u.findCluster m = s.findCluster m)

/-- Corrections, uncorrectable errors, scrubbing and refresh (R411 to R416): a correction like the open entry's raises
its COUNT, another opens an entry; the sixteenth correction of a memory row in 2^30 ticks retires the row; the open
entry closes 2^24 ticks after its FIRST; a sector that cannot be corrected is journalled with TYPE 2 and its row
retired where racking or a scrub meets it; a scrub receipt is asked for and answered, signed, once its pass has ended; a
bank is refreshed once its interval has passed; the rows of a zeroed frame rejoin refresh. On a VPM9-P the journal's
commands stop with the fault absentUnit, as log 2 has it. Read from the spec: that the corrections of a row are counted by
its location and tick (log 53); the model's choices: that a receipt waits for a pass of the whole length, and the layout of
its RANGE (log 54), which sectors the patrol still reaches in its pass and in which slots (log 130). -/
def Obligations.ErrorResults : Prop :=
  ∀ (s : State) (src : JSrc) (loc synd : Nat),
  let row := Config.rowOf loc
  let scm := src == .scm
  let memory := src = .hbm ∨ src = .scm
  let old := s.corrections.filter (fun (x : RowFix) => decide (s.ticks < x.at_ + 2 ^ 30) && x.scm == scm && x.row == row)
  (s.code = .vpm9mh →
    (∀ e, s.journal.openEntry = some e → e.type = 1 → e.src = src → e.loc = loc → e.synd = synd → e.count < 65534 →
      s.ticks < e.first + 2 ^ 24 → ¬ memory → ∃ u, exec (.correctedError src loc synd) s = .next u ∧
        u.journal.openEntry = some { e with count := e.count + 1, last := s.ticks } ∧ u.journal.entries = s.journal.entries) ∧
    (s.journal.openEntry = none → s.journal.full = false → ¬ memory → ∃ u,
      exec (.correctedError src loc synd) s = .next u ∧ u.journal.entries = s.journal.entries ∧
      ∃ e, u.journal.openEntry = some e ∧ e.type = 1 ∧ e.src = src ∧ e.loc = loc ∧ e.synd = synd ∧ e.count = 1 ∧
        e.first = s.ticks ∧ e.index = s.journal.next) ∧
    (∀ e, s.journal.openEntry = some e → e.first + 2 ^ 24 ≤ s.ticks → s.journal.close.full = false → ¬ memory → ∃ u f,
      exec (.correctedError src loc synd) s = .next u ∧ u.journal.entries = s.journal.close.entries ∧
      u.journal.openEntry = some f ∧ f.count = 1 ∧ f.first = s.ticks) ∧
    (∀ e, s.journal.openEntry = some e → e.first + 2 ^ 24 ≤ s.ticks → ∃ u f, exec .journalEntryTimeout s = .next u ∧
      u.journal.openEntry = none ∧ u.journal.entries = s.journal.entries ++ [f] ∧ f.index = e.index ∧ f.count = e.count) ∧
    ((∀ e, s.journal.openEntry = some e → s.ticks < e.first + 2 ^ 24) → exec .journalEntryTimeout s = .next s)) ∧
  (memory → s.hasUnit src = true → old.length < 15 → ∃ u, exec (.correctedError src loc synd) s = .next u ∧ u.retired = s.retired ∧
    u.corrections = s.corrections.filter (fun (x : RowFix) => decide (s.ticks < x.at_ + 2 ^ 30)) ++ [⟨scm, row, s.ticks⟩]) ∧
  (memory → s.hasUnit src = true → 15 ≤ old.length → (∀ r ∈ s.retired, r.scm ≠ scm ∨ r.row ≠ row) → ∃ u,
    exec (.correctedError src loc synd) s = .next u ∧ ∃ r, u.retired = s.retired ++ [r] ∧ r.row = row ∧ r.scm = scm ∧
      ∀ x ∈ u.corrections, x.scm ≠ scm ∨ x.row ≠ row) ∧
  (∀ map off, ∃ u, exec (.uncorrectableError map off .host) s = .next u ∧
    memKey map (off / sectorBytes * sectorBytes) ∈ u.poison ∧ (∀ k ∈ s.poison, k ∈ u.poison) ∧ u.ctx = s.ctx ∧ SameBytes s u) ∧
  (s.hasUnit src = false → exec (.correctedError src loc synd) s = .next s) ∧
  (∀ map off,
    let o := off / sectorBytes * sectorBytes
    let k := memKey map o
    let at_ := s.locationOf map o
    let found (u : State) : Prop := (∃ x ∈ u.retired, x.row = Config.rowOf at_.2 ∧ x.scm = (at_.1 == .scm)) ∧
      (s.code = .vpm9mh → s.journal.close.full = false → ∃ e ∈ u.journal.entries, e.type = 2 ∧ e.src = at_.1 ∧
        e.loc = at_.2 ∧ e.count = 1 ∧ e.index = s.journal.next ∧ e.first = s.ticks)
    (∀ r : UncReader, r = .racking ∨ r = .scrub → s.hasUnit at_.1 = true → ∃ u,
      exec (.uncorrectableError map off r) s = .next u ∧ k ∈ u.poison ∧ found u) ∧
    (k ∈ s.poison → k ∈ s.patrol → (s.keyLocation k).2 = loc → s.patrolMay k = true → k / 2 ^ 40 = map → k % 2 ^ 40 = o →
      s.hasUnit at_.1 = true → ∃ u, exec (.scrubPass map off loc) s = .next u ∧ found u ∧ k ∉ u.patrol ∧ SameBytes s u) ∧
    (k ∉ s.poison ∨ k ∉ s.patrol ∨ (s.keyLocation k).2 ≠ loc ∨ s.patrolMay k = false →
      exec (.scrubPass map off loc) s = .next s)) ∧
  (s.code = .vpm9mh → ∀ r : PhysRange,
    ((∀ q ∈ s.scrubs, q.range ≠ r) → ∃ q : ScrubReq, exec (.scrubrcpt r) s = .next { s with scrubs := s.scrubs ++ [q] } ∧
      q.range = r ∧ q.start = s.ticks) ∧
    (∀ q, s.scrubs.find? (fun (q : ScrubReq) => q.range == r) = some q → s.ticks < q.start + s.passTicks r →
      exec (.scrubrcpt r) s = .next s) ∧
    (∀ q, s.scrubs.find? (fun (q : ScrubReq) => q.range == r) = some q → q.start + s.passTicks r ≤ s.ticks →
      s.journal.close.full = false → ∃ u clean jidx exc, exec (.scrubrcpt r) s = .next u ∧ Logged s u 10 .controller ∧
        u.outbox = s.outbox ++ [.scrubReceipt r clean q.start s.ticks jidx exc
          (Config.sign (Config.sha512 ((receiptBytes r q.start s.ticks jidx exc).map BitVec.toNat)))] ∧ (clean = true ↔ exc = []) ∧
        q ∉ u.scrubs)) ∧
  (s.code = .vpm9p → ∀ r n, ∀ i ∈ [Instr.journalEntryTimeout, .scrubrcpt r, .ejhead, .journalTrim n],
    exec i s = .fault .absentUnit) ∧
  (∀ bank (temp : Int) t, s.refreshed.find? (fun (x : Nat × Nat) => x.1 == bank) = some (bank, t) →
    let every := if 95 < temp then 1560 else if 85 < temp then 3120 else 6240
    (t + every ≤ s.cycle → ∃ u, exec (.hbmRefresh bank temp) s = .next u ∧
      u.refreshed.find? (fun (x : Nat × Nat) => x.1 == bank) = some (bank, s.cycle) ∧ SameBytes s u) ∧
    (s.cycle < t + every → exec (.hbmRefresh bank temp) s = .next s)) ∧
  (∀ stack frame, s.zeroing.find? (fun f => f.stack == stack && f.num == frame && !f.clean) = none →
    exec (.frameZeroComplete stack frame) s = .next s) ∧
  (∀ stack frame f x, s.zeroing.find? (fun f => f.stack == stack && f.num == frame && !f.clean) = some f →
    s.extent f.map f.ext = some x → x.state = .scm ∨ x.state = .remote →
    exec (.frameZeroComplete stack frame) s = .next { s with zeroing := s.zeroing.map (fun g =>
      if g.stack == f.stack && g.num == f.num then { g with clean := true } else g) })

/-- The journal's commands, firmware updates and management registers (R10, R409, R412, R413, R417, R418): EJHEAD
answers with the head and its signature, JOURNAL_TRIM drops the entries below an index whose head has been read; an
update whose signature, digest and version pass waits 500 ms for a heartbeat, which makes it active and steps every
measurement generation, and without which the old slot stays; a register takes what is written to it, a bit of a W1C field
clears when 1 is written, a read-only register stays, an HDM decoder takes a host window, a read delivers the register;
nothing answers without power, and a function's registers not while the module hibernates. On a VPM9-P firmware events stop
with the fault absentUnit, as log 2 has it. The model's choices: that a write of mgmt.hib out of its range is ignored, that a
write of a group's entry clears its last step, and what a write of mgmt.fw does (log 68); what an entry of the group table
may say on a VPM9-P (log 105). -/
def Obligations.ManagementResults : Prop :=
  ∀ s : State,
  (s.code = .vpm9mh →
    (∃ u sig, exec .ejhead s = .next u ∧ u.outbox = s.outbox ++ [.ejhead s.journal.headIndex s.journal.head s.ticks sig] ∧
      u.journal.entries = s.journal.entries ∧ ∀ i, s.journal.headIndex = some i → i ∈ u.journal.heads) ∧
    (∀ i, i ∈ s.journal.heads → s.journal.openEntry = none → s.journal.full = false → ∃ u f,
      exec (.journalTrim i) s = .next u ∧ f.type = 11 ∧
      u.journal.entries = s.journal.entries.filter (fun (e : JEntry) => decide (i ≤ e.index)) ++ [f] ∧
      u.journal.first = max s.journal.first i) ∧
    (∀ i, i ∉ s.journal.heads → exec (.journalTrim i) s = .next s) ∧
    (∀ h x sig v,
      let passes : Prop := Config.sigOk Config.fwKey h sig = true ∧ h = x ∧ Config.versionOk h v = true
      (s.power.phase = .on → s.mgmt.fwNew = none → passes → ∃ u, exec (.fwUpdate h x sig v) s = .next u ∧
        u.mgmt.update = true ∧ u.mgmt.fwNew = some (h, s.ticks) ∧ u.mgmt.fwVersion = v ∧ u.mgmt.fwOther = h ∧
        u.mgmt.fwHash = s.mgmt.fwHash ∧ u.mgmt.fwSlot = s.mgmt.fwSlot) ∧
      (s.power.phase = .on → s.mgmt.fwNew = none → ¬ passes → exec (.fwUpdate h x sig v) s =
        .next { s with mgmt := { s.mgmt with fwOther := h, fwGiven := (x, sig, v) } }) ∧
      (s.power.phase ≠ .on ∨ s.mgmt.fwNew ≠ none → exec (.fwUpdate h x sig v) s = .next s)) ∧
    (∀ h t, s.mgmt.fwNew = some (h, t) →
      (s.ticks < t + 50000000 → exec .fwHeartbeatTimeout s = .next s ∧ ∃ u, exec .fwHeartbeat s = .next u ∧
        u.mgmt.fwHash = h ∧ u.mgmt.fwOther = s.mgmt.fwHash ∧ u.mgmt.fwSlot = (!s.mgmt.fwSlot) ∧ u.mgmt.update = false ∧
        u.mgmt.fwNew = none ∧
        ∀ n, n < 64 → (u.partOf n).mgen = (s.partOf n).mgen + 1) ∧
      (t + 50000000 ≤ s.ticks → exec .fwHeartbeat s = .next s ∧ ∃ u, exec .fwHeartbeatTimeout s = .next u ∧
        u.mgmt.fwHash = s.mgmt.fwHash ∧ u.mgmt.fwSlot = s.mgmt.fwSlot ∧ u.mgmt.update = false ∧ u.mgmt.fwNew = none))) ∧
  (s.code = .vpm9p → ∀ h x b v, ∀ i ∈ [Instr.fwUpdate h x b v, .fwHeartbeat, .fwHeartbeatTimeout],
    exec i s = .fault .absentUnit) ∧
  (s.power.phase = .off → ∀ r v, exec (.registerWrite r v) s = .next s) ∧
  ((∃ k, s.power.phase = .hib k ∨ s.power.phase = .restart k) → ∀ r n, r.portFn = some n →
    exec (.registerWrite r .read) s = .next (s.send [.unsupported n]) ∧
    ∀ v, v ≠ .read → exec (.registerWrite r v) s = .next s) ∧
  (s.power.phase = .on →
    (∀ n v, n < 64 → ∃ u, exec (.registerWrite (.cmdBase n) (.word v)) s = .next u ∧
      (u.streamOf n).base = v % 2 ^ 64 / 4096 * 4096 ∧ (u.streamOf n).head = (s.streamOf n).head ∧
      (∀ m, m ≠ n → u.streamOf m = s.streamOf m)) ∧
    (∀ n v, n < 64 → ∃ u, exec (.registerWrite (.cmdCqbase n) (.word v)) s = .next u ∧
      (u.streamOf n).cqbase = v % 2 ^ 64 / 4096 * 4096 ∧ (∀ m, m ≠ n → u.streamOf m = s.streamOf m)) ∧
    (∀ v, exec (.registerWrite .status (.word v)) s = .next { s with mgmt := { s.mgmt with
      replace := s.mgmt.replace && v % 2 == 0 } }) ∧
    (∀ v, ∃ u, exec (.registerWrite .cutcause (.word v)) s = .next u ∧ u.mgmt.cutCause = s.mgmt.cutCause &&& ~~~(BitVec.ofNat 4 v)) ∧
    (∀ a b c d, exec (.registerWrite .therm (.therm a b c d)) s =
      .next { s with mgmt := { s.mgmt with dleak := a, dthr := b, dstep := c, pcap := d } }) ∧
    (∀ v w o e r, (s.code = .vpm9mh → s.power.shed = [] → s.power.shedding = none → hibOk v w o e r = true →
      exec (.registerWrite .hib (.hib v w o e r)) s =
        .next { s with mgmt := { s.mgmt with vbrown := v, vret := w, shedOrder := o, eseal := e, erestart := r } }) ∧
      (s.code = .vpm9p ∨ s.power.shed ≠ [] ∨ hibOk v w o e r = false → exec (.registerWrite .hib (.hib v w o e r)) s = .next s)) ∧
    (∀ v, (s.code = .vpm9p → exec (.registerWrite .fw (.word v)) s = .next s) ∧
      (s.code = .vpm9mh → natBit v 0 = false → exec (.registerWrite .fw (.word v)) s =
        .next { s with mgmt := { s.mgmt with update := false, fwNew := none } })) ∧
    (∀ gid v, gid < 64 → (∀ j ∈ s.coll, j.gid ≠ gid) → s.groupFits (GroupEntry.ofBits v) = true → ∃ u, exec (.registerWrite (.group gid) (.word v)) s = .next u ∧
      (natBit v 0 = true → ∃ g, u.groupOf gid = some g ∧ g.entry = { GroupEntry.ofBits v with gid := gid } ∧ g.lastStep = none) ∧
      (natBit v 0 = false → u.groupOf gid = none)) ∧
    (∀ gid v, (∃ j ∈ s.coll, j.gid = gid) → exec (.registerWrite (.group gid) (.word v)) s = .next s) ∧
    (∀ t, exec (.registerWrite .tokStage (.token t)) s = .next { s with mgmt := { s.mgmt with tokStage := t } }) ∧
    (∀ (n : Nat) (v : MgmtVal), v ≠ .read → exec (.registerWrite (.ro n) v) s = .next s) ∧
    (∀ port k, port < 2 → k < 8 →
      (∃ u, exec (.registerWrite (.hdm port k) (.window none)) s = .next u ∧
        ∀ d, d ∈ u.hdm ↔ d ∈ s.hdm ∧ ¬ (d.port = port ∧ d.num = k)) ∧
      ∀ fn base asid index, ∃ u, exec (.registerWrite (.hdm port k) (.window (some (fn, base, asid, index)))) s = .next u ∧
        ∀ d, d ∈ u.hdm ↔ d = ⟨port, k, fn, base, asid, index⟩ ∨ d ∈ s.hdm ∧ ¬ (d.port = port ∧ d.num = k)) ∧
    (∀ r : MgmtReg, exec (.registerWrite r .read) s = .next (s.send [.regData r (s.readReg r)])) ∧
    (∀ n, let st := s.streamOf n
      s.readReg (.cmd n 0x10) = [st.tail] ∧ s.readReg (.cmd n 0x18) = [st.head] ∧ s.readReg (.cmd n 0x28) = [st.cqtail] ∧
      s.readReg (.cmd n 0x30) = [st.state] ∧
      s.readReg (.cmd n 0x08) = [(if st.enable then 1 else 0) + 16 * st.size + 256 * st.level + 4096 * st.weight]))
end

