-- ==== Sys2Proof/Laws/Memory.lean ====
section
/-! SUPPORT. Memory: the canonical form is kept by every operation, and a read after a write gives what was written there
and what was there elsewhere. -/

namespace Sys2Proof.Machine

open Sys2Proof

theorem Memory.wfFrom_mono {m : List Host.Cell} {lo lo' : Nat} (h : Memory.wfFrom lo m = true) (hl : lo' ≤ lo) :
    Memory.wfFrom lo' m = true := by
  cases m with
  | nil => rfl
  | cons c r =>
    obtain ⟨a, b⟩ := c
    simp only [Memory.wfFrom, Bool.and_eq_true, decide_eq_true_eq] at h ⊢
    exact ⟨⟨by omega, h.1.2⟩, h.2⟩

theorem Memory.get_below {m : List Host.Cell} {lo k : Nat} (h : Memory.wfFrom lo m = true) (hk : k < lo) :
    Memory.get m k = 0 := by
  cases m with
  | nil => rfl
  | cons c r =>
    obtain ⟨a, b⟩ := c
    simp only [Memory.wfFrom, Bool.and_eq_true, decide_eq_true_eq] at h
    rw [Memory.get, if_neg (by omega), if_pos (by omega)]

/-- A write of one byte keeps the canonical form. -/
theorem Memory.wfFrom_set {m : List Host.Cell} {lo k : Nat} (v : Byte) (h : Memory.wfFrom lo m = true) (hk : lo ≤ k) :
    Memory.wfFrom lo (Memory.set m k v) = true := by
  induction m generalizing lo with
  | nil =>
    unfold Memory.set
    by_cases hv : v = 0
    · rw [if_pos hv]; rfl
    · rw [if_neg hv]
      simp only [Memory.wfFrom, Bool.and_eq_true, decide_eq_true_eq, bne_iff_ne]
      exact ⟨⟨hk, hv⟩, trivial⟩
  | cons c r ih =>
    obtain ⟨a, b⟩ := c
    have h' := h
    simp only [Memory.wfFrom, Bool.and_eq_true, decide_eq_true_eq, bne_iff_ne] at h'
    obtain ⟨⟨h1, h2⟩, h3⟩ := h'
    unfold Memory.set
    by_cases hka : k < a
    · rw [if_pos hka]
      by_cases hv : v = 0
      · rw [if_pos hv]; exact h
      · rw [if_neg hv]
        simp only [Memory.wfFrom, Bool.and_eq_true, decide_eq_true_eq, bne_iff_ne]
        exact ⟨⟨hk, hv⟩, ⟨by omega, h2⟩, h3⟩
    · rw [if_neg hka]
      by_cases he : k = a
      · rw [if_pos he]
        by_cases hv : v = 0
        · rw [if_pos hv]; exact Memory.wfFrom_mono h3 (by omega)
        · rw [if_neg hv]
          simp only [Memory.wfFrom, Bool.and_eq_true, decide_eq_true_eq, bne_iff_ne]
          exact ⟨⟨hk, hv⟩, he ▸ h3⟩
      · rw [if_neg he]
        simp only [Memory.wfFrom, Bool.and_eq_true, decide_eq_true_eq, bne_iff_ne]
        exact ⟨⟨h1, h2⟩, ih h3 (by omega)⟩

theorem Memory.get_set {m : List Host.Cell} {lo : Nat} (k a : Nat) (v : Byte) (h : Memory.wfFrom lo m = true) :
    Memory.get (Memory.set m k v) a = if a = k then v else Memory.get m a := by
  induction m generalizing lo with
  | nil =>
    by_cases hv : v = 0
    · simp [Memory.set, hv, Memory.get]
    · simp only [Memory.set, hv, if_false, Memory.get]
      split <;> simp
  | cons c r ih =>
    obtain ⟨b, x⟩ := c
    simp only [Memory.wfFrom, Bool.and_eq_true, decide_eq_true_eq, bne_iff_ne] at h
    obtain ⟨⟨h1, h2⟩, h3⟩ := h
    have hb := fun (j : Nat) (hj : j < b + 1) => Memory.get_below h3 hj
    by_cases hkb : k < b
    · by_cases hv : v = 0
      · simp only [Memory.set, hkb, if_true, hv, Memory.get]
        split_ifs <;> first | rfl | omega
      · simp only [Memory.set, hkb, if_true, hv, if_false, Memory.get]
        split_ifs <;> first | rfl | omega
    · by_cases he : k = b
      · subst he
        by_cases hv : v = 0
        · simp only [Memory.set, hkb, if_false, if_true, hv, Memory.get]
          split_ifs with h4 h5
          · exact hb _ (by omega)
          · exact hb _ (by omega)
          · rfl
        · simp only [Memory.set, hkb, if_false, if_true, hv, Memory.get]
          split_ifs <;> rfl
      · simp only [Memory.set, hkb, if_false, he, Memory.get, ih h3]
        split_ifs <;> first | rfl | omega

/-- A write of any bytes keeps the canonical form. -/
theorem Memory.wf_write {m : List Host.Cell} (a : Nat) (bs : List Byte) (h : Memory.wf m = true) :
    Memory.wf (Memory.write m a bs) = true := by
  induction bs generalizing m a with
  | nil => exact h
  | cons b r ih => exact ih (a + 1) (Memory.wfFrom_set b h (Nat.zero_le a))

/-- Taking cells away keeps the canonical form. -/
theorem Memory.wf_filter {m : List Host.Cell} (p : Host.Cell → Bool) (h : Memory.wf m = true) :
    Memory.wf (m.filter p) = true := by
  have go : ∀ (m : List Host.Cell) (lo : Nat), Memory.wfFrom lo m = true → Memory.wfFrom lo (m.filter p) = true := by
    intro m
    induction m with
    | nil => intro _ h; exact h
    | cons c r ih =>
      intro lo h
      obtain ⟨a, b⟩ := c
      simp only [Memory.wfFrom, Bool.and_eq_true, decide_eq_true_eq] at h
      rw [List.filter_cons]
      split
      · simp only [Memory.wfFrom, Bool.and_eq_true, decide_eq_true_eq]
        exact ⟨h.1, ih _ h.2⟩
      · exact Memory.wfFrom_mono (ih _ h.2) (by omega)
  exact go m 0 h

/-- A byte after a write: what was written there, else what was there. -/
theorem Memory.get_write {m : List Host.Cell} (a k : Nat) (bs : List Byte) (h : Memory.wf m = true) :
    Memory.get (Memory.write m a bs) k = if a ≤ k then (bs[k - a]?).getD (Memory.get m k) else Memory.get m k := by
  induction bs generalizing m a with
  | nil => simp [Memory.write]
  | cons b r ih =>
    rw [Memory.write, ih (a + 1) (Memory.wfFrom_set b h (Nat.zero_le a)), Memory.get_set _ _ _ h]
    rcases Nat.lt_trichotomy k a with hk | hk | hk
    · rw [if_neg (by omega), if_neg (by omega), if_neg (by omega)]
    · subst hk; simp
    · obtain ⟨j, rfl⟩ : ∃ j, k = a + 1 + j := ⟨k - a - 1, by omega⟩
      have h1 : a + 1 ≤ a + 1 + j := Nat.le_add_right _ _
      have h2 : a ≤ a + 1 + j := by omega
      have h3 : a + 1 + j - a = j + 1 := by omega
      have h4 : a + 1 + j ≠ a := by omega
      rw [if_pos h1, if_pos h2, if_neg h4, h3, Nat.add_sub_cancel_left, List.getElem?_cons_succ]

/-- A byte outside a write. -/
theorem Memory.get_write_outside {m : List Host.Cell} (a k : Nat) (bs : List Byte) (h : Memory.wf m = true)
    (hk : k < a ∨ a + bs.length ≤ k) : Memory.get (Memory.write m a bs) k = Memory.get m k := by
  rw [Memory.get_write _ _ _ h]
  split
  · rw [List.getElem?_eq_none (by omega)]; rfl
  · rfl

/-- Reading bytes: their number, and each of them. -/
theorem Memory.read_length (m : List Host.Cell) (a n : Nat) : (Memory.read m a n).length = n := by
  induction n generalizing a with
  | zero => rfl
  | succ n ih => simp [Memory.read, ih]

theorem Memory.read_get (m : List Host.Cell) (a n i : Nat) (h : i < n) :
    (Memory.read m a n)[i]? = some (Memory.get m (a + i)) := by
  induction n generalizing a i with
  | zero => omega
  | succ n ih =>
    cases i with
    | zero => rfl
    | succ i => rw [Memory.read, List.getElem?_cons_succ, ih _ _ (by omega)]; congr 2; omega

/-- Tag sets stay strictly rising. -/
theorem NatSet.wfFrom_mono {l : List Nat} {lo lo' : Nat} (h : NatSet.wfFrom lo l = true) (hl : lo' ≤ lo) :
    NatSet.wfFrom lo' l = true := by
  cases l with
  | nil => rfl
  | cons a r =>
    simp only [NatSet.wfFrom, Bool.and_eq_true, decide_eq_true_eq] at h ⊢
    exact ⟨by omega, h.2⟩

theorem NatSet.wfFrom_insert {l : List Nat} {lo k : Nat} (h : NatSet.wfFrom lo l = true) (hk : lo ≤ k) :
    NatSet.wfFrom lo (NatSet.insert l k) = true := by
  induction l generalizing lo with
  | nil => simp [NatSet.insert, NatSet.wfFrom, hk]
  | cons a r ih =>
    have h' := h
    simp only [NatSet.wfFrom, Bool.and_eq_true, decide_eq_true_eq] at h'
    unfold NatSet.insert
    split_ifs with h1 h2
    · simp only [NatSet.wfFrom, Bool.and_eq_true, decide_eq_true_eq]
      exact ⟨hk, by omega, h'.2⟩
    · exact h
    · simp only [NatSet.wfFrom, Bool.and_eq_true, decide_eq_true_eq]
      exact ⟨h'.1, ih h'.2 (by omega)⟩

theorem NatSet.wfFrom_filter {l : List Nat} {lo : Nat} (p : Nat → Bool) (h : NatSet.wfFrom lo l = true) :
    NatSet.wfFrom lo (l.filter p) = true := by
  induction l generalizing lo with
  | nil => rfl
  | cons a r ih =>
    simp only [NatSet.wfFrom, Bool.and_eq_true, decide_eq_true_eq] at h
    rw [List.filter_cons]
    split
    · simp only [NatSet.wfFrom, Bool.and_eq_true, decide_eq_true_eq]
      exact ⟨h.1, ih h.2⟩
    · exact NatSet.wfFrom_mono (ih h.2) (by omega)

theorem putTag_wf {l : List Nat} (g : Nat) (t : Bool) (h : NatSet.wfFrom 0 l = true) : NatSet.wfFrom 0 (putTag l g t) = true := by
  cases t
  · exact NatSet.wfFrom_filter _ h
  · exact NatSet.wfFrom_insert h (Nat.zero_le g)

theorem clearTags_wf {l : List Nat} (a n : Nat) (h : NatSet.wfFrom 0 l = true) : NatSet.wfFrom 0 (clearTags l a n) = true :=
  NatSet.wfFrom_filter _ h

/-- Keys of distinct bytes below 2^40 of distinct maps are distinct. -/
theorem memKey_add (map a i : Nat) (h : a + i < 2 ^ 40) : memKey map (a + i) = memKey map a + i := by
  unfold memKey; omega

theorem memKey_inj {m m' a a' : Nat} (h : memKey m a = memKey m' a') : m = m' ∧ a % 2 ^ 40 = a' % 2 ^ 40 := by
  unfold memKey at h; omega

end Sys2Proof.Machine
end

