-- ==== Sys2Proof/Laws/State.lean ====
section
/-! SUPPORT. One lemma per field and update: what each update of the state, and of a context, leaves and sets, so that no
later proof unfolds a record update. -/

namespace Sys2Proof.Machine

open Sys2Proof

/-! ### `State.withCtx` -/

@[simp] theorem State.withCtx_ctx (s : State) (c : Ctx) : (s.withCtx c).ctx = c := rfl
@[simp] theorem State.withCtx_others (s : State) (c : Ctx) : (s.withCtx c).others = s.others := rfl
@[simp] theorem State.withCtx_core (s : State) (c : Ctx) : (s.withCtx c).core = s.core := rfl
@[simp] theorem State.withCtx_cores (s : State) (c : Ctx) : (s.withCtx c).cores = s.cores := rfl
@[simp] theorem State.withCtx_clus (s : State) (c : Ctx) : (s.withCtx c).clus = s.clus := rfl
@[simp] theorem State.withCtx_clusters (s : State) (c : Ctx) : (s.withCtx c).clusters = s.clusters := rfl
@[simp] theorem State.withCtx_mem (s : State) (c : Ctx) : (s.withCtx c).mem = s.mem := rfl
@[simp] theorem State.withCtx_memTags (s : State) (c : Ctx) : (s.withCtx c).memTags = s.memTags := rfl
@[simp] theorem State.withCtx_exts (s : State) (c : Ctx) : (s.withCtx c).exts = s.exts := rfl
@[simp] theorem State.withCtx_tagSum (s : State) (c : Ctx) : (s.withCtx c).tagSum = s.tagSum := rfl
@[simp] theorem State.withCtx_l2 (s : State) (c : Ctx) : (s.withCtx c).l2 = s.l2 := rfl
@[simp] theorem State.withCtx_msc (s : State) (c : Ctx) : (s.withCtx c).msc = s.msc := rfl
@[simp] theorem State.withCtx_hdm (s : State) (c : Ctx) : (s.withCtx c).hdm = s.hdm := rfl
@[simp] theorem State.withCtx_deferred (s : State) (c : Ctx) : (s.withCtx c).deferred = s.deferred := rfl
@[simp] theorem State.withCtx_away (s : State) (c : Ctx) : (s.withCtx c).away = s.away := rfl
@[simp] theorem State.withCtx_notices (s : State) (c : Ctx) : (s.withCtx c).notices = s.notices := rfl
@[simp] theorem State.withCtx_zeroing (s : State) (c : Ctx) : (s.withCtx c).zeroing = s.zeroing := rfl
@[simp] theorem State.withCtx_spaces (s : State) (c : Ctx) : (s.withCtx c).spaces = s.spaces := rfl
@[simp] theorem State.withCtx_poison (s : State) (c : Ctx) : (s.withCtx c).poison = s.poison := rfl
@[simp] theorem State.withCtx_launches (s : State) (c : Ctx) : (s.withCtx c).launches = s.launches := rfl
@[simp] theorem State.withCtx_streams (s : State) (c : Ctx) : (s.withCtx c).streams = s.streams := rfl
@[simp] theorem State.withCtx_graphs (s : State) (c : Ctx) : (s.withCtx c).graphs = s.graphs := rfl
@[simp] theorem State.withCtx_verified (s : State) (c : Ctx) : (s.withCtx c).verified = s.verified := rfl
@[simp] theorem State.withCtx_hostMem (s : State) (c : Ctx) : (s.withCtx c).hostMem = s.hostMem := rfl
@[simp] theorem State.withCtx_parts (s : State) (c : Ctx) : (s.withCtx c).parts = s.parts := rfl
@[simp] theorem State.withCtx_keys (s : State) (c : Ctx) : (s.withCtx c).keys = s.keys := rfl
@[simp] theorem State.withCtx_deal (s : State) (c : Ctx) : (s.withCtx c).deal = s.deal := rfl
@[simp] theorem State.withCtx_groups (s : State) (c : Ctx) : (s.withCtx c).groups = s.groups := rfl
@[simp] theorem State.withCtx_coll (s : State) (c : Ctx) : (s.withCtx c).coll = s.coll := rfl
@[simp] theorem State.withCtx_links (s : State) (c : Ctx) : (s.withCtx c).links = s.links := rfl
@[simp] theorem State.withCtx_module (s : State) (c : Ctx) : (s.withCtx c).module = s.module := rfl
@[simp] theorem State.withCtx_dsize (s : State) (c : Ctx) : (s.withCtx c).dsize = s.dsize := rfl
@[simp] theorem State.withCtx_pausedBy (s : State) (c : Ctx) : (s.withCtx c).pausedBy = s.pausedBy := rfl
@[simp] theorem State.withCtx_pausedTo (s : State) (c : Ctx) : (s.withCtx c).pausedTo = s.pausedTo := rfl
@[simp] theorem State.withCtx_heldHost (s : State) (c : Ctx) : (s.withCtx c).heldHost = s.heldHost := rfl
@[simp] theorem State.withCtx_power (s : State) (c : Ctx) : (s.withCtx c).power = s.power := rfl
@[simp] theorem State.withCtx_regions (s : State) (c : Ctx) : (s.withCtx c).regions = s.regions := rfl
@[simp] theorem State.withCtx_refreshed (s : State) (c : Ctx) : (s.withCtx c).refreshed = s.refreshed := rfl
@[simp] theorem State.withCtx_patrol (s : State) (c : Ctx) : (s.withCtx c).patrol = s.patrol := rfl
@[simp] theorem State.withCtx_journal (s : State) (c : Ctx) : (s.withCtx c).journal = s.journal := rfl
@[simp] theorem State.withCtx_ljournal (s : State) (c : Ctx) : (s.withCtx c).ljournal = s.ljournal := rfl
@[simp] theorem State.withCtx_scrubs (s : State) (c : Ctx) : (s.withCtx c).scrubs = s.scrubs := rfl
@[simp] theorem State.withCtx_corrections (s : State) (c : Ctx) : (s.withCtx c).corrections = s.corrections := rfl
@[simp] theorem State.withCtx_retired (s : State) (c : Ctx) : (s.withCtx c).retired = s.retired := rfl
@[simp] theorem State.withCtx_mgmt (s : State) (c : Ctx) : (s.withCtx c).mgmt = s.mgmt := rfl
@[simp] theorem State.withCtx_sweep (s : State) (c : Ctx) : (s.withCtx c).sweep = s.sweep := rfl
@[simp] theorem State.withCtx_code (s : State) (c : Ctx) : (s.withCtx c).code = s.code := rfl
@[simp] theorem State.withCtx_outbox (s : State) (c : Ctx) : (s.withCtx c).outbox = s.outbox := rfl
@[simp] theorem State.withCtx_agenda (s : State) (c : Ctx) : (s.withCtx c).agenda = s.agenda := rfl
@[simp] theorem State.withCtx_acted (s : State) (c : Ctx) : (s.withCtx c).acted = s.acted := rfl
@[simp] theorem State.withCtx_cycle (s : State) (c : Ctx) : (s.withCtx c).cycle = s.cycle := rfl
@[simp] theorem State.withCtx_draws (s : State) (c : Ctx) : (s.withCtx c).draws = s.draws := rfl
@[simp] theorem State.withCtx_nextId (s : State) (c : Ctx) : (s.withCtx c).nextId = s.nextId := rfl

/-! ### `State.onCtx` -/

@[simp] theorem State.onCtx_ctx (s : State) (f : Ctx → Ctx) : (s.onCtx f).ctx = f s.ctx := rfl
@[simp] theorem State.onCtx_others (s : State) (f : Ctx → Ctx) : (s.onCtx f).others = s.others := rfl
@[simp] theorem State.onCtx_core (s : State) (f : Ctx → Ctx) : (s.onCtx f).core = s.core := rfl
@[simp] theorem State.onCtx_cores (s : State) (f : Ctx → Ctx) : (s.onCtx f).cores = s.cores := rfl
@[simp] theorem State.onCtx_clus (s : State) (f : Ctx → Ctx) : (s.onCtx f).clus = s.clus := rfl
@[simp] theorem State.onCtx_clusters (s : State) (f : Ctx → Ctx) : (s.onCtx f).clusters = s.clusters := rfl
@[simp] theorem State.onCtx_mem (s : State) (f : Ctx → Ctx) : (s.onCtx f).mem = s.mem := rfl
@[simp] theorem State.onCtx_memTags (s : State) (f : Ctx → Ctx) : (s.onCtx f).memTags = s.memTags := rfl
@[simp] theorem State.onCtx_exts (s : State) (f : Ctx → Ctx) : (s.onCtx f).exts = s.exts := rfl
@[simp] theorem State.onCtx_tagSum (s : State) (f : Ctx → Ctx) : (s.onCtx f).tagSum = s.tagSum := rfl
@[simp] theorem State.onCtx_l2 (s : State) (f : Ctx → Ctx) : (s.onCtx f).l2 = s.l2 := rfl
@[simp] theorem State.onCtx_msc (s : State) (f : Ctx → Ctx) : (s.onCtx f).msc = s.msc := rfl
@[simp] theorem State.onCtx_hdm (s : State) (f : Ctx → Ctx) : (s.onCtx f).hdm = s.hdm := rfl
@[simp] theorem State.onCtx_deferred (s : State) (f : Ctx → Ctx) : (s.onCtx f).deferred = s.deferred := rfl
@[simp] theorem State.onCtx_away (s : State) (f : Ctx → Ctx) : (s.onCtx f).away = s.away := rfl
@[simp] theorem State.onCtx_notices (s : State) (f : Ctx → Ctx) : (s.onCtx f).notices = s.notices := rfl
@[simp] theorem State.onCtx_zeroing (s : State) (f : Ctx → Ctx) : (s.onCtx f).zeroing = s.zeroing := rfl
@[simp] theorem State.onCtx_spaces (s : State) (f : Ctx → Ctx) : (s.onCtx f).spaces = s.spaces := rfl
@[simp] theorem State.onCtx_poison (s : State) (f : Ctx → Ctx) : (s.onCtx f).poison = s.poison := rfl
@[simp] theorem State.onCtx_launches (s : State) (f : Ctx → Ctx) : (s.onCtx f).launches = s.launches := rfl
@[simp] theorem State.onCtx_streams (s : State) (f : Ctx → Ctx) : (s.onCtx f).streams = s.streams := rfl
@[simp] theorem State.onCtx_graphs (s : State) (f : Ctx → Ctx) : (s.onCtx f).graphs = s.graphs := rfl
@[simp] theorem State.onCtx_verified (s : State) (f : Ctx → Ctx) : (s.onCtx f).verified = s.verified := rfl
@[simp] theorem State.onCtx_hostMem (s : State) (f : Ctx → Ctx) : (s.onCtx f).hostMem = s.hostMem := rfl
@[simp] theorem State.onCtx_parts (s : State) (f : Ctx → Ctx) : (s.onCtx f).parts = s.parts := rfl
@[simp] theorem State.onCtx_keys (s : State) (f : Ctx → Ctx) : (s.onCtx f).keys = s.keys := rfl
@[simp] theorem State.onCtx_deal (s : State) (f : Ctx → Ctx) : (s.onCtx f).deal = s.deal := rfl
@[simp] theorem State.onCtx_groups (s : State) (f : Ctx → Ctx) : (s.onCtx f).groups = s.groups := rfl
@[simp] theorem State.onCtx_coll (s : State) (f : Ctx → Ctx) : (s.onCtx f).coll = s.coll := rfl
@[simp] theorem State.onCtx_links (s : State) (f : Ctx → Ctx) : (s.onCtx f).links = s.links := rfl
@[simp] theorem State.onCtx_module (s : State) (f : Ctx → Ctx) : (s.onCtx f).module = s.module := rfl
@[simp] theorem State.onCtx_dsize (s : State) (f : Ctx → Ctx) : (s.onCtx f).dsize = s.dsize := rfl
@[simp] theorem State.onCtx_pausedBy (s : State) (f : Ctx → Ctx) : (s.onCtx f).pausedBy = s.pausedBy := rfl
@[simp] theorem State.onCtx_pausedTo (s : State) (f : Ctx → Ctx) : (s.onCtx f).pausedTo = s.pausedTo := rfl
@[simp] theorem State.onCtx_heldHost (s : State) (f : Ctx → Ctx) : (s.onCtx f).heldHost = s.heldHost := rfl
@[simp] theorem State.onCtx_power (s : State) (f : Ctx → Ctx) : (s.onCtx f).power = s.power := rfl
@[simp] theorem State.onCtx_regions (s : State) (f : Ctx → Ctx) : (s.onCtx f).regions = s.regions := rfl
@[simp] theorem State.onCtx_refreshed (s : State) (f : Ctx → Ctx) : (s.onCtx f).refreshed = s.refreshed := rfl
@[simp] theorem State.onCtx_patrol (s : State) (f : Ctx → Ctx) : (s.onCtx f).patrol = s.patrol := rfl
@[simp] theorem State.onCtx_journal (s : State) (f : Ctx → Ctx) : (s.onCtx f).journal = s.journal := rfl
@[simp] theorem State.onCtx_ljournal (s : State) (f : Ctx → Ctx) : (s.onCtx f).ljournal = s.ljournal := rfl
@[simp] theorem State.onCtx_scrubs (s : State) (f : Ctx → Ctx) : (s.onCtx f).scrubs = s.scrubs := rfl
@[simp] theorem State.onCtx_corrections (s : State) (f : Ctx → Ctx) : (s.onCtx f).corrections = s.corrections := rfl
@[simp] theorem State.onCtx_retired (s : State) (f : Ctx → Ctx) : (s.onCtx f).retired = s.retired := rfl
@[simp] theorem State.onCtx_mgmt (s : State) (f : Ctx → Ctx) : (s.onCtx f).mgmt = s.mgmt := rfl
@[simp] theorem State.onCtx_sweep (s : State) (f : Ctx → Ctx) : (s.onCtx f).sweep = s.sweep := rfl
@[simp] theorem State.onCtx_code (s : State) (f : Ctx → Ctx) : (s.onCtx f).code = s.code := rfl
@[simp] theorem State.onCtx_outbox (s : State) (f : Ctx → Ctx) : (s.onCtx f).outbox = s.outbox := rfl
@[simp] theorem State.onCtx_agenda (s : State) (f : Ctx → Ctx) : (s.onCtx f).agenda = s.agenda := rfl
@[simp] theorem State.onCtx_acted (s : State) (f : Ctx → Ctx) : (s.onCtx f).acted = s.acted := rfl
@[simp] theorem State.onCtx_cycle (s : State) (f : Ctx → Ctx) : (s.onCtx f).cycle = s.cycle := rfl
@[simp] theorem State.onCtx_draws (s : State) (f : Ctx → Ctx) : (s.onCtx f).draws = s.draws := rfl
@[simp] theorem State.onCtx_nextId (s : State) (f : Ctx → Ctx) : (s.onCtx f).nextId = s.nextId := rfl

/-! ### `State.send` -/

@[simp] theorem State.send_ctx (s : State) (l : List Msg) : (s.send l).ctx = s.ctx := rfl
@[simp] theorem State.send_others (s : State) (l : List Msg) : (s.send l).others = s.others := rfl
@[simp] theorem State.send_core (s : State) (l : List Msg) : (s.send l).core = s.core := rfl
@[simp] theorem State.send_cores (s : State) (l : List Msg) : (s.send l).cores = s.cores := rfl
@[simp] theorem State.send_clus (s : State) (l : List Msg) : (s.send l).clus = s.clus := rfl
@[simp] theorem State.send_clusters (s : State) (l : List Msg) : (s.send l).clusters = s.clusters := rfl
@[simp] theorem State.send_mem (s : State) (l : List Msg) : (s.send l).mem = s.mem := rfl
@[simp] theorem State.send_memTags (s : State) (l : List Msg) : (s.send l).memTags = s.memTags := rfl
@[simp] theorem State.send_exts (s : State) (l : List Msg) : (s.send l).exts = s.exts := rfl
@[simp] theorem State.send_tagSum (s : State) (l : List Msg) : (s.send l).tagSum = s.tagSum := rfl
@[simp] theorem State.send_l2 (s : State) (l : List Msg) : (s.send l).l2 = s.l2 := rfl
@[simp] theorem State.send_msc (s : State) (l : List Msg) : (s.send l).msc = s.msc := rfl
@[simp] theorem State.send_hdm (s : State) (l : List Msg) : (s.send l).hdm = s.hdm := rfl
@[simp] theorem State.send_deferred (s : State) (l : List Msg) : (s.send l).deferred = s.deferred := rfl
@[simp] theorem State.send_away (s : State) (l : List Msg) : (s.send l).away = s.away := rfl
@[simp] theorem State.send_notices (s : State) (l : List Msg) : (s.send l).notices = s.notices := rfl
@[simp] theorem State.send_zeroing (s : State) (l : List Msg) : (s.send l).zeroing = s.zeroing := rfl
@[simp] theorem State.send_spaces (s : State) (l : List Msg) : (s.send l).spaces = s.spaces := rfl
@[simp] theorem State.send_poison (s : State) (l : List Msg) : (s.send l).poison = s.poison := rfl
@[simp] theorem State.send_launches (s : State) (l : List Msg) : (s.send l).launches = s.launches := rfl
@[simp] theorem State.send_streams (s : State) (l : List Msg) : (s.send l).streams = s.streams := rfl
@[simp] theorem State.send_graphs (s : State) (l : List Msg) : (s.send l).graphs = s.graphs := rfl
@[simp] theorem State.send_verified (s : State) (l : List Msg) : (s.send l).verified = s.verified := rfl
@[simp] theorem State.send_hostMem (s : State) (l : List Msg) : (s.send l).hostMem = s.hostMem := rfl
@[simp] theorem State.send_parts (s : State) (l : List Msg) : (s.send l).parts = s.parts := rfl
@[simp] theorem State.send_keys (s : State) (l : List Msg) : (s.send l).keys = s.keys := rfl
@[simp] theorem State.send_deal (s : State) (l : List Msg) : (s.send l).deal = s.deal := rfl
@[simp] theorem State.send_groups (s : State) (l : List Msg) : (s.send l).groups = s.groups := rfl
@[simp] theorem State.send_coll (s : State) (l : List Msg) : (s.send l).coll = s.coll := rfl
@[simp] theorem State.send_links (s : State) (l : List Msg) : (s.send l).links = s.links := rfl
@[simp] theorem State.send_module (s : State) (l : List Msg) : (s.send l).module = s.module := rfl
@[simp] theorem State.send_dsize (s : State) (l : List Msg) : (s.send l).dsize = s.dsize := rfl
@[simp] theorem State.send_pausedBy (s : State) (l : List Msg) : (s.send l).pausedBy = s.pausedBy := rfl
@[simp] theorem State.send_pausedTo (s : State) (l : List Msg) : (s.send l).pausedTo = s.pausedTo := rfl
@[simp] theorem State.send_heldHost (s : State) (l : List Msg) : (s.send l).heldHost = s.heldHost := rfl
@[simp] theorem State.send_power (s : State) (l : List Msg) : (s.send l).power = s.power := rfl
@[simp] theorem State.send_regions (s : State) (l : List Msg) : (s.send l).regions = s.regions := rfl
@[simp] theorem State.send_refreshed (s : State) (l : List Msg) : (s.send l).refreshed = s.refreshed := rfl
@[simp] theorem State.send_patrol (s : State) (l : List Msg) : (s.send l).patrol = s.patrol := rfl
@[simp] theorem State.send_journal (s : State) (l : List Msg) : (s.send l).journal = s.journal := rfl
@[simp] theorem State.send_ljournal (s : State) (l : List Msg) : (s.send l).ljournal = s.ljournal := rfl
@[simp] theorem State.send_scrubs (s : State) (l : List Msg) : (s.send l).scrubs = s.scrubs := rfl
@[simp] theorem State.send_corrections (s : State) (l : List Msg) : (s.send l).corrections = s.corrections := rfl
@[simp] theorem State.send_retired (s : State) (l : List Msg) : (s.send l).retired = s.retired := rfl
@[simp] theorem State.send_mgmt (s : State) (l : List Msg) : (s.send l).mgmt = s.mgmt := rfl
@[simp] theorem State.send_sweep (s : State) (l : List Msg) : (s.send l).sweep = s.sweep := rfl
@[simp] theorem State.send_code (s : State) (l : List Msg) : (s.send l).code = s.code := rfl
@[simp] theorem State.send_outbox (s : State) (l : List Msg) : (s.send l).outbox = s.outbox ++ l := rfl
@[simp] theorem State.send_agenda (s : State) (l : List Msg) : (s.send l).agenda = s.agenda := rfl
@[simp] theorem State.send_acted (s : State) (l : List Msg) : (s.send l).acted = s.acted := rfl
@[simp] theorem State.send_cycle (s : State) (l : List Msg) : (s.send l).cycle = s.cycle := rfl
@[simp] theorem State.send_draws (s : State) (l : List Msg) : (s.send l).draws = s.draws := rfl
@[simp] theorem State.send_nextId (s : State) (l : List Msg) : (s.send l).nextId = s.nextId := rfl

/-! ### `State.modLaunch` -/

@[simp] theorem State.modLaunch_ctx (s : State) (id : Nat) (f : Launch → Launch) : (s.modLaunch id f).ctx = s.ctx := rfl
@[simp] theorem State.modLaunch_others (s : State) (id : Nat) (f : Launch → Launch) : (s.modLaunch id f).others = s.others := rfl
@[simp] theorem State.modLaunch_core (s : State) (id : Nat) (f : Launch → Launch) : (s.modLaunch id f).core = s.core := rfl
@[simp] theorem State.modLaunch_cores (s : State) (id : Nat) (f : Launch → Launch) : (s.modLaunch id f).cores = s.cores := rfl
@[simp] theorem State.modLaunch_clus (s : State) (id : Nat) (f : Launch → Launch) : (s.modLaunch id f).clus = s.clus := rfl
@[simp] theorem State.modLaunch_clusters (s : State) (id : Nat) (f : Launch → Launch) : (s.modLaunch id f).clusters = s.clusters := rfl
@[simp] theorem State.modLaunch_mem (s : State) (id : Nat) (f : Launch → Launch) : (s.modLaunch id f).mem = s.mem := rfl
@[simp] theorem State.modLaunch_memTags (s : State) (id : Nat) (f : Launch → Launch) : (s.modLaunch id f).memTags = s.memTags := rfl
@[simp] theorem State.modLaunch_exts (s : State) (id : Nat) (f : Launch → Launch) : (s.modLaunch id f).exts = s.exts := rfl
@[simp] theorem State.modLaunch_tagSum (s : State) (id : Nat) (f : Launch → Launch) : (s.modLaunch id f).tagSum = s.tagSum := rfl
@[simp] theorem State.modLaunch_l2 (s : State) (id : Nat) (f : Launch → Launch) : (s.modLaunch id f).l2 = s.l2 := rfl
@[simp] theorem State.modLaunch_msc (s : State) (id : Nat) (f : Launch → Launch) : (s.modLaunch id f).msc = s.msc := rfl
@[simp] theorem State.modLaunch_hdm (s : State) (id : Nat) (f : Launch → Launch) : (s.modLaunch id f).hdm = s.hdm := rfl
@[simp] theorem State.modLaunch_deferred (s : State) (id : Nat) (f : Launch → Launch) : (s.modLaunch id f).deferred = s.deferred := rfl
@[simp] theorem State.modLaunch_away (s : State) (id : Nat) (f : Launch → Launch) : (s.modLaunch id f).away = s.away := rfl
@[simp] theorem State.modLaunch_notices (s : State) (id : Nat) (f : Launch → Launch) : (s.modLaunch id f).notices = s.notices := rfl
@[simp] theorem State.modLaunch_zeroing (s : State) (id : Nat) (f : Launch → Launch) : (s.modLaunch id f).zeroing = s.zeroing := rfl
@[simp] theorem State.modLaunch_spaces (s : State) (id : Nat) (f : Launch → Launch) : (s.modLaunch id f).spaces = s.spaces := rfl
@[simp] theorem State.modLaunch_poison (s : State) (id : Nat) (f : Launch → Launch) : (s.modLaunch id f).poison = s.poison := rfl
@[simp] theorem State.modLaunch_launches (s : State) (id : Nat) (f : Launch → Launch) : (s.modLaunch id f).launches = s.launches.map (fun l => if l.id == id then f l else l) := rfl
@[simp] theorem State.modLaunch_streams (s : State) (id : Nat) (f : Launch → Launch) : (s.modLaunch id f).streams = s.streams := rfl
@[simp] theorem State.modLaunch_graphs (s : State) (id : Nat) (f : Launch → Launch) : (s.modLaunch id f).graphs = s.graphs := rfl
@[simp] theorem State.modLaunch_verified (s : State) (id : Nat) (f : Launch → Launch) : (s.modLaunch id f).verified = s.verified := rfl
@[simp] theorem State.modLaunch_hostMem (s : State) (id : Nat) (f : Launch → Launch) : (s.modLaunch id f).hostMem = s.hostMem := rfl
@[simp] theorem State.modLaunch_parts (s : State) (id : Nat) (f : Launch → Launch) : (s.modLaunch id f).parts = s.parts := rfl
@[simp] theorem State.modLaunch_keys (s : State) (id : Nat) (f : Launch → Launch) : (s.modLaunch id f).keys = s.keys := rfl
@[simp] theorem State.modLaunch_deal (s : State) (id : Nat) (f : Launch → Launch) : (s.modLaunch id f).deal = s.deal := rfl
@[simp] theorem State.modLaunch_groups (s : State) (id : Nat) (f : Launch → Launch) : (s.modLaunch id f).groups = s.groups := rfl
@[simp] theorem State.modLaunch_coll (s : State) (id : Nat) (f : Launch → Launch) : (s.modLaunch id f).coll = s.coll := rfl
@[simp] theorem State.modLaunch_links (s : State) (id : Nat) (f : Launch → Launch) : (s.modLaunch id f).links = s.links := rfl
@[simp] theorem State.modLaunch_module (s : State) (id : Nat) (f : Launch → Launch) : (s.modLaunch id f).module = s.module := rfl
@[simp] theorem State.modLaunch_dsize (s : State) (id : Nat) (f : Launch → Launch) : (s.modLaunch id f).dsize = s.dsize := rfl
@[simp] theorem State.modLaunch_pausedBy (s : State) (id : Nat) (f : Launch → Launch) : (s.modLaunch id f).pausedBy = s.pausedBy := rfl
@[simp] theorem State.modLaunch_pausedTo (s : State) (id : Nat) (f : Launch → Launch) : (s.modLaunch id f).pausedTo = s.pausedTo := rfl
@[simp] theorem State.modLaunch_heldHost (s : State) (id : Nat) (f : Launch → Launch) : (s.modLaunch id f).heldHost = s.heldHost := rfl
@[simp] theorem State.modLaunch_power (s : State) (id : Nat) (f : Launch → Launch) : (s.modLaunch id f).power = s.power := rfl
@[simp] theorem State.modLaunch_regions (s : State) (id : Nat) (f : Launch → Launch) : (s.modLaunch id f).regions = s.regions := rfl
@[simp] theorem State.modLaunch_refreshed (s : State) (id : Nat) (f : Launch → Launch) : (s.modLaunch id f).refreshed = s.refreshed := rfl
@[simp] theorem State.modLaunch_patrol (s : State) (id : Nat) (f : Launch → Launch) : (s.modLaunch id f).patrol = s.patrol := rfl
@[simp] theorem State.modLaunch_journal (s : State) (id : Nat) (f : Launch → Launch) : (s.modLaunch id f).journal = s.journal := rfl
@[simp] theorem State.modLaunch_ljournal (s : State) (id : Nat) (f : Launch → Launch) : (s.modLaunch id f).ljournal = s.ljournal := rfl
@[simp] theorem State.modLaunch_scrubs (s : State) (id : Nat) (f : Launch → Launch) : (s.modLaunch id f).scrubs = s.scrubs := rfl
@[simp] theorem State.modLaunch_corrections (s : State) (id : Nat) (f : Launch → Launch) : (s.modLaunch id f).corrections = s.corrections := rfl
@[simp] theorem State.modLaunch_retired (s : State) (id : Nat) (f : Launch → Launch) : (s.modLaunch id f).retired = s.retired := rfl
@[simp] theorem State.modLaunch_mgmt (s : State) (id : Nat) (f : Launch → Launch) : (s.modLaunch id f).mgmt = s.mgmt := rfl
@[simp] theorem State.modLaunch_sweep (s : State) (id : Nat) (f : Launch → Launch) : (s.modLaunch id f).sweep = s.sweep := rfl
@[simp] theorem State.modLaunch_code (s : State) (id : Nat) (f : Launch → Launch) : (s.modLaunch id f).code = s.code := rfl
@[simp] theorem State.modLaunch_outbox (s : State) (id : Nat) (f : Launch → Launch) : (s.modLaunch id f).outbox = s.outbox := rfl
@[simp] theorem State.modLaunch_agenda (s : State) (id : Nat) (f : Launch → Launch) : (s.modLaunch id f).agenda = s.agenda := rfl
@[simp] theorem State.modLaunch_acted (s : State) (id : Nat) (f : Launch → Launch) : (s.modLaunch id f).acted = s.acted := rfl
@[simp] theorem State.modLaunch_cycle (s : State) (id : Nat) (f : Launch → Launch) : (s.modLaunch id f).cycle = s.cycle := rfl
@[simp] theorem State.modLaunch_draws (s : State) (id : Nat) (f : Launch → Launch) : (s.modLaunch id f).draws = s.draws := rfl
@[simp] theorem State.modLaunch_nextId (s : State) (id : Nat) (f : Launch → Launch) : (s.modLaunch id f).nextId = s.nextId := rfl

/-! ### `State.memWrite` -/

@[simp] theorem State.memWrite_ctx (s : State) (map a : Nat) (bs : List Byte) : (s.memWrite map a bs).ctx = s.ctx := rfl
@[simp] theorem State.memWrite_others (s : State) (map a : Nat) (bs : List Byte) : (s.memWrite map a bs).others = s.others := rfl
@[simp] theorem State.memWrite_core (s : State) (map a : Nat) (bs : List Byte) : (s.memWrite map a bs).core = s.core := rfl
@[simp] theorem State.memWrite_cores (s : State) (map a : Nat) (bs : List Byte) : (s.memWrite map a bs).cores = s.cores := rfl
@[simp] theorem State.memWrite_clus (s : State) (map a : Nat) (bs : List Byte) : (s.memWrite map a bs).clus = s.clus := rfl
@[simp] theorem State.memWrite_clusters (s : State) (map a : Nat) (bs : List Byte) : (s.memWrite map a bs).clusters = s.clusters := rfl
@[simp] theorem State.memWrite_mem (s : State) (map a : Nat) (bs : List Byte) : (s.memWrite map a bs).mem = Memory.write s.mem (memKey map a) bs := rfl
@[simp] theorem State.memWrite_memTags (s : State) (map a : Nat) (bs : List Byte) : (s.memWrite map a bs).memTags = clearTags s.memTags (memKey map a) bs.length := rfl
@[simp] theorem State.memWrite_exts (s : State) (map a : Nat) (bs : List Byte) : (s.memWrite map a bs).exts = s.exts := rfl
@[simp] theorem State.memWrite_tagSum (s : State) (map a : Nat) (bs : List Byte) : (s.memWrite map a bs).tagSum = s.tagSum := rfl
@[simp] theorem State.memWrite_l2 (s : State) (map a : Nat) (bs : List Byte) : (s.memWrite map a bs).l2 = s.l2 := rfl
@[simp] theorem State.memWrite_msc (s : State) (map a : Nat) (bs : List Byte) : (s.memWrite map a bs).msc = s.msc := rfl
@[simp] theorem State.memWrite_hdm (s : State) (map a : Nat) (bs : List Byte) : (s.memWrite map a bs).hdm = s.hdm := rfl
@[simp] theorem State.memWrite_deferred (s : State) (map a : Nat) (bs : List Byte) : (s.memWrite map a bs).deferred = s.deferred := rfl
@[simp] theorem State.memWrite_away (s : State) (map a : Nat) (bs : List Byte) : (s.memWrite map a bs).away = s.away := rfl
@[simp] theorem State.memWrite_notices (s : State) (map a : Nat) (bs : List Byte) : (s.memWrite map a bs).notices = s.notices := rfl
@[simp] theorem State.memWrite_zeroing (s : State) (map a : Nat) (bs : List Byte) : (s.memWrite map a bs).zeroing = s.zeroing := rfl
@[simp] theorem State.memWrite_spaces (s : State) (map a : Nat) (bs : List Byte) : (s.memWrite map a bs).spaces = s.spaces := rfl
@[simp] theorem State.memWrite_launches (s : State) (map a : Nat) (bs : List Byte) : (s.memWrite map a bs).launches = s.launches := rfl
@[simp] theorem State.memWrite_streams (s : State) (map a : Nat) (bs : List Byte) : (s.memWrite map a bs).streams = s.streams := rfl
@[simp] theorem State.memWrite_graphs (s : State) (map a : Nat) (bs : List Byte) : (s.memWrite map a bs).graphs = s.graphs := rfl
@[simp] theorem State.memWrite_verified (s : State) (map a : Nat) (bs : List Byte) : (s.memWrite map a bs).verified = s.verified := rfl
@[simp] theorem State.memWrite_hostMem (s : State) (map a : Nat) (bs : List Byte) : (s.memWrite map a bs).hostMem = s.hostMem := rfl
@[simp] theorem State.memWrite_parts (s : State) (map a : Nat) (bs : List Byte) : (s.memWrite map a bs).parts = s.parts := rfl
@[simp] theorem State.memWrite_keys (s : State) (map a : Nat) (bs : List Byte) : (s.memWrite map a bs).keys = s.keys := rfl
@[simp] theorem State.memWrite_deal (s : State) (map a : Nat) (bs : List Byte) : (s.memWrite map a bs).deal = s.deal := rfl
@[simp] theorem State.memWrite_groups (s : State) (map a : Nat) (bs : List Byte) : (s.memWrite map a bs).groups = s.groups := rfl
@[simp] theorem State.memWrite_coll (s : State) (map a : Nat) (bs : List Byte) : (s.memWrite map a bs).coll = s.coll := rfl
@[simp] theorem State.memWrite_links (s : State) (map a : Nat) (bs : List Byte) : (s.memWrite map a bs).links = s.links := rfl
@[simp] theorem State.memWrite_module (s : State) (map a : Nat) (bs : List Byte) : (s.memWrite map a bs).module = s.module := rfl
@[simp] theorem State.memWrite_dsize (s : State) (map a : Nat) (bs : List Byte) : (s.memWrite map a bs).dsize = s.dsize := rfl
@[simp] theorem State.memWrite_pausedBy (s : State) (map a : Nat) (bs : List Byte) : (s.memWrite map a bs).pausedBy = s.pausedBy := rfl
@[simp] theorem State.memWrite_pausedTo (s : State) (map a : Nat) (bs : List Byte) : (s.memWrite map a bs).pausedTo = s.pausedTo := rfl
@[simp] theorem State.memWrite_heldHost (s : State) (map a : Nat) (bs : List Byte) : (s.memWrite map a bs).heldHost = s.heldHost := rfl
@[simp] theorem State.memWrite_power (s : State) (map a : Nat) (bs : List Byte) : (s.memWrite map a bs).power = s.power := rfl
@[simp] theorem State.memWrite_regions (s : State) (map a : Nat) (bs : List Byte) : (s.memWrite map a bs).regions = s.regions := rfl
@[simp] theorem State.memWrite_refreshed (s : State) (map a : Nat) (bs : List Byte) : (s.memWrite map a bs).refreshed = s.refreshed := rfl
@[simp] theorem State.memWrite_patrol (s : State) (map a : Nat) (bs : List Byte) : (s.memWrite map a bs).patrol = s.patrol := rfl
@[simp] theorem State.memWrite_journal (s : State) (map a : Nat) (bs : List Byte) : (s.memWrite map a bs).journal = s.journal := rfl
@[simp] theorem State.memWrite_ljournal (s : State) (map a : Nat) (bs : List Byte) : (s.memWrite map a bs).ljournal = s.ljournal := rfl
@[simp] theorem State.memWrite_scrubs (s : State) (map a : Nat) (bs : List Byte) : (s.memWrite map a bs).scrubs = s.scrubs := rfl
@[simp] theorem State.memWrite_corrections (s : State) (map a : Nat) (bs : List Byte) : (s.memWrite map a bs).corrections = s.corrections := rfl
@[simp] theorem State.memWrite_retired (s : State) (map a : Nat) (bs : List Byte) : (s.memWrite map a bs).retired = s.retired := rfl
@[simp] theorem State.memWrite_mgmt (s : State) (map a : Nat) (bs : List Byte) : (s.memWrite map a bs).mgmt = s.mgmt := rfl
@[simp] theorem State.memWrite_sweep (s : State) (map a : Nat) (bs : List Byte) : (s.memWrite map a bs).sweep = s.sweep := rfl
@[simp] theorem State.memWrite_code (s : State) (map a : Nat) (bs : List Byte) : (s.memWrite map a bs).code = s.code := rfl
@[simp] theorem State.memWrite_outbox (s : State) (map a : Nat) (bs : List Byte) : (s.memWrite map a bs).outbox = s.outbox := rfl
@[simp] theorem State.memWrite_agenda (s : State) (map a : Nat) (bs : List Byte) : (s.memWrite map a bs).agenda = s.agenda := rfl
@[simp] theorem State.memWrite_acted (s : State) (map a : Nat) (bs : List Byte) : (s.memWrite map a bs).acted = s.acted := rfl
@[simp] theorem State.memWrite_cycle (s : State) (map a : Nat) (bs : List Byte) : (s.memWrite map a bs).cycle = s.cycle := rfl
@[simp] theorem State.memWrite_draws (s : State) (map a : Nat) (bs : List Byte) : (s.memWrite map a bs).draws = s.draws := rfl
@[simp] theorem State.memWrite_nextId (s : State) (map a : Nat) (bs : List Byte) : (s.memWrite map a bs).nextId = s.nextId := rfl

/-! ### `State.mapCtx` -/

@[simp] theorem State.mapCtx_ctx (s : State) (p : Ctx → Bool) (f : Ctx → Ctx) : (s.mapCtx p f).ctx = if p s.ctx then f s.ctx else s.ctx := rfl
@[simp] theorem State.mapCtx_others (s : State) (p : Ctx → Bool) (f : Ctx → Ctx) : (s.mapCtx p f).others = s.others.map (fun c => if p c then f c else c) := rfl
@[simp] theorem State.mapCtx_core (s : State) (p : Ctx → Bool) (f : Ctx → Ctx) : (s.mapCtx p f).core = s.core := rfl
@[simp] theorem State.mapCtx_cores (s : State) (p : Ctx → Bool) (f : Ctx → Ctx) : (s.mapCtx p f).cores = s.cores := rfl
@[simp] theorem State.mapCtx_clus (s : State) (p : Ctx → Bool) (f : Ctx → Ctx) : (s.mapCtx p f).clus = s.clus := rfl
@[simp] theorem State.mapCtx_clusters (s : State) (p : Ctx → Bool) (f : Ctx → Ctx) : (s.mapCtx p f).clusters = s.clusters := rfl
@[simp] theorem State.mapCtx_mem (s : State) (p : Ctx → Bool) (f : Ctx → Ctx) : (s.mapCtx p f).mem = s.mem := rfl
@[simp] theorem State.mapCtx_memTags (s : State) (p : Ctx → Bool) (f : Ctx → Ctx) : (s.mapCtx p f).memTags = s.memTags := rfl
@[simp] theorem State.mapCtx_exts (s : State) (p : Ctx → Bool) (f : Ctx → Ctx) : (s.mapCtx p f).exts = s.exts := rfl
@[simp] theorem State.mapCtx_tagSum (s : State) (p : Ctx → Bool) (f : Ctx → Ctx) : (s.mapCtx p f).tagSum = s.tagSum := rfl
@[simp] theorem State.mapCtx_l2 (s : State) (p : Ctx → Bool) (f : Ctx → Ctx) : (s.mapCtx p f).l2 = s.l2 := rfl
@[simp] theorem State.mapCtx_msc (s : State) (p : Ctx → Bool) (f : Ctx → Ctx) : (s.mapCtx p f).msc = s.msc := rfl
@[simp] theorem State.mapCtx_hdm (s : State) (p : Ctx → Bool) (f : Ctx → Ctx) : (s.mapCtx p f).hdm = s.hdm := rfl
@[simp] theorem State.mapCtx_deferred (s : State) (p : Ctx → Bool) (f : Ctx → Ctx) : (s.mapCtx p f).deferred = s.deferred := rfl
@[simp] theorem State.mapCtx_away (s : State) (p : Ctx → Bool) (f : Ctx → Ctx) : (s.mapCtx p f).away = s.away := rfl
@[simp] theorem State.mapCtx_notices (s : State) (p : Ctx → Bool) (f : Ctx → Ctx) : (s.mapCtx p f).notices = s.notices := rfl
@[simp] theorem State.mapCtx_zeroing (s : State) (p : Ctx → Bool) (f : Ctx → Ctx) : (s.mapCtx p f).zeroing = s.zeroing := rfl
@[simp] theorem State.mapCtx_spaces (s : State) (p : Ctx → Bool) (f : Ctx → Ctx) : (s.mapCtx p f).spaces = s.spaces := rfl
@[simp] theorem State.mapCtx_poison (s : State) (p : Ctx → Bool) (f : Ctx → Ctx) : (s.mapCtx p f).poison = s.poison := rfl
@[simp] theorem State.mapCtx_launches (s : State) (p : Ctx → Bool) (f : Ctx → Ctx) : (s.mapCtx p f).launches = s.launches := rfl
@[simp] theorem State.mapCtx_streams (s : State) (p : Ctx → Bool) (f : Ctx → Ctx) : (s.mapCtx p f).streams = s.streams := rfl
@[simp] theorem State.mapCtx_graphs (s : State) (p : Ctx → Bool) (f : Ctx → Ctx) : (s.mapCtx p f).graphs = s.graphs := rfl
@[simp] theorem State.mapCtx_verified (s : State) (p : Ctx → Bool) (f : Ctx → Ctx) : (s.mapCtx p f).verified = s.verified := rfl
@[simp] theorem State.mapCtx_hostMem (s : State) (p : Ctx → Bool) (f : Ctx → Ctx) : (s.mapCtx p f).hostMem = s.hostMem := rfl
@[simp] theorem State.mapCtx_parts (s : State) (p : Ctx → Bool) (f : Ctx → Ctx) : (s.mapCtx p f).parts = s.parts := rfl
@[simp] theorem State.mapCtx_keys (s : State) (p : Ctx → Bool) (f : Ctx → Ctx) : (s.mapCtx p f).keys = s.keys := rfl
@[simp] theorem State.mapCtx_deal (s : State) (p : Ctx → Bool) (f : Ctx → Ctx) : (s.mapCtx p f).deal = s.deal := rfl
@[simp] theorem State.mapCtx_groups (s : State) (p : Ctx → Bool) (f : Ctx → Ctx) : (s.mapCtx p f).groups = s.groups := rfl
@[simp] theorem State.mapCtx_coll (s : State) (p : Ctx → Bool) (f : Ctx → Ctx) : (s.mapCtx p f).coll = s.coll := rfl
@[simp] theorem State.mapCtx_links (s : State) (p : Ctx → Bool) (f : Ctx → Ctx) : (s.mapCtx p f).links = s.links := rfl
@[simp] theorem State.mapCtx_module (s : State) (p : Ctx → Bool) (f : Ctx → Ctx) : (s.mapCtx p f).module = s.module := rfl
@[simp] theorem State.mapCtx_dsize (s : State) (p : Ctx → Bool) (f : Ctx → Ctx) : (s.mapCtx p f).dsize = s.dsize := rfl
@[simp] theorem State.mapCtx_pausedBy (s : State) (p : Ctx → Bool) (f : Ctx → Ctx) : (s.mapCtx p f).pausedBy = s.pausedBy := rfl
@[simp] theorem State.mapCtx_pausedTo (s : State) (p : Ctx → Bool) (f : Ctx → Ctx) : (s.mapCtx p f).pausedTo = s.pausedTo := rfl
@[simp] theorem State.mapCtx_heldHost (s : State) (p : Ctx → Bool) (f : Ctx → Ctx) : (s.mapCtx p f).heldHost = s.heldHost := rfl
@[simp] theorem State.mapCtx_power (s : State) (p : Ctx → Bool) (f : Ctx → Ctx) : (s.mapCtx p f).power = s.power := rfl
@[simp] theorem State.mapCtx_regions (s : State) (p : Ctx → Bool) (f : Ctx → Ctx) : (s.mapCtx p f).regions = s.regions := rfl
@[simp] theorem State.mapCtx_refreshed (s : State) (p : Ctx → Bool) (f : Ctx → Ctx) : (s.mapCtx p f).refreshed = s.refreshed := rfl
@[simp] theorem State.mapCtx_patrol (s : State) (p : Ctx → Bool) (f : Ctx → Ctx) : (s.mapCtx p f).patrol = s.patrol := rfl
@[simp] theorem State.mapCtx_journal (s : State) (p : Ctx → Bool) (f : Ctx → Ctx) : (s.mapCtx p f).journal = s.journal := rfl
@[simp] theorem State.mapCtx_ljournal (s : State) (p : Ctx → Bool) (f : Ctx → Ctx) : (s.mapCtx p f).ljournal = s.ljournal := rfl
@[simp] theorem State.mapCtx_scrubs (s : State) (p : Ctx → Bool) (f : Ctx → Ctx) : (s.mapCtx p f).scrubs = s.scrubs := rfl
@[simp] theorem State.mapCtx_corrections (s : State) (p : Ctx → Bool) (f : Ctx → Ctx) : (s.mapCtx p f).corrections = s.corrections := rfl
@[simp] theorem State.mapCtx_retired (s : State) (p : Ctx → Bool) (f : Ctx → Ctx) : (s.mapCtx p f).retired = s.retired := rfl
@[simp] theorem State.mapCtx_mgmt (s : State) (p : Ctx → Bool) (f : Ctx → Ctx) : (s.mapCtx p f).mgmt = s.mgmt := rfl
@[simp] theorem State.mapCtx_sweep (s : State) (p : Ctx → Bool) (f : Ctx → Ctx) : (s.mapCtx p f).sweep = s.sweep := rfl
@[simp] theorem State.mapCtx_code (s : State) (p : Ctx → Bool) (f : Ctx → Ctx) : (s.mapCtx p f).code = s.code := rfl
@[simp] theorem State.mapCtx_outbox (s : State) (p : Ctx → Bool) (f : Ctx → Ctx) : (s.mapCtx p f).outbox = s.outbox := rfl
@[simp] theorem State.mapCtx_agenda (s : State) (p : Ctx → Bool) (f : Ctx → Ctx) : (s.mapCtx p f).agenda = s.agenda := rfl
@[simp] theorem State.mapCtx_acted (s : State) (p : Ctx → Bool) (f : Ctx → Ctx) : (s.mapCtx p f).acted = s.acted := rfl
@[simp] theorem State.mapCtx_cycle (s : State) (p : Ctx → Bool) (f : Ctx → Ctx) : (s.mapCtx p f).cycle = s.cycle := rfl
@[simp] theorem State.mapCtx_draws (s : State) (p : Ctx → Bool) (f : Ctx → Ctx) : (s.mapCtx p f).draws = s.draws := rfl
@[simp] theorem State.mapCtx_nextId (s : State) (p : Ctx → Bool) (f : Ctx → Ctx) : (s.mapCtx p f).nextId = s.nextId := rfl

/-! ### `State.note` -/

@[simp] theorem State.note_ctx (s : State) (n : Notice) : (s.note n).ctx = s.ctx := rfl
@[simp] theorem State.note_others (s : State) (n : Notice) : (s.note n).others = s.others := rfl
@[simp] theorem State.note_core (s : State) (n : Notice) : (s.note n).core = s.core := rfl
@[simp] theorem State.note_cores (s : State) (n : Notice) : (s.note n).cores = s.cores := rfl
@[simp] theorem State.note_clus (s : State) (n : Notice) : (s.note n).clus = s.clus := rfl
@[simp] theorem State.note_clusters (s : State) (n : Notice) : (s.note n).clusters = s.clusters := rfl
@[simp] theorem State.note_mem (s : State) (n : Notice) : (s.note n).mem = s.mem := rfl
@[simp] theorem State.note_memTags (s : State) (n : Notice) : (s.note n).memTags = s.memTags := rfl
@[simp] theorem State.note_tagSum (s : State) (n : Notice) : (s.note n).tagSum = s.tagSum := rfl
@[simp] theorem State.note_exts (s : State) (n : Notice) : (s.note n).exts = s.exts := rfl
@[simp] theorem State.note_zeroing (s : State) (n : Notice) : (s.note n).zeroing = s.zeroing := rfl
@[simp] theorem State.note_spaces (s : State) (n : Notice) : (s.note n).spaces = s.spaces := rfl
@[simp] theorem State.note_poison (s : State) (n : Notice) : (s.note n).poison = s.poison := rfl
@[simp] theorem State.note_l2 (s : State) (n : Notice) : (s.note n).l2 = s.l2 := rfl
@[simp] theorem State.note_msc (s : State) (n : Notice) : (s.note n).msc = s.msc := rfl
@[simp] theorem State.note_launches (s : State) (n : Notice) : (s.note n).launches = s.launches := rfl
@[simp] theorem State.note_streams (s : State) (n : Notice) : (s.note n).streams = s.streams := rfl
@[simp] theorem State.note_graphs (s : State) (n : Notice) : (s.note n).graphs = s.graphs := rfl
@[simp] theorem State.note_verified (s : State) (n : Notice) : (s.note n).verified = s.verified := rfl
@[simp] theorem State.note_hostMem (s : State) (n : Notice) : (s.note n).hostMem = s.hostMem := rfl
@[simp] theorem State.note_parts (s : State) (n : Notice) : (s.note n).parts = s.parts := rfl
@[simp] theorem State.note_keys (s : State) (n : Notice) : (s.note n).keys = s.keys := rfl
@[simp] theorem State.note_hdm (s : State) (n : Notice) : (s.note n).hdm = s.hdm := rfl
@[simp] theorem State.note_deferred (s : State) (n : Notice) : (s.note n).deferred = s.deferred := rfl
@[simp] theorem State.note_deal (s : State) (n : Notice) : (s.note n).deal = s.deal := rfl
@[simp] theorem State.note_groups (s : State) (n : Notice) : (s.note n).groups = s.groups := rfl
@[simp] theorem State.note_coll (s : State) (n : Notice) : (s.note n).coll = s.coll := rfl
@[simp] theorem State.note_links (s : State) (n : Notice) : (s.note n).links = s.links := rfl
@[simp] theorem State.note_module (s : State) (n : Notice) : (s.note n).module = s.module := rfl
@[simp] theorem State.note_dsize (s : State) (n : Notice) : (s.note n).dsize = s.dsize := rfl
@[simp] theorem State.note_pausedBy (s : State) (n : Notice) : (s.note n).pausedBy = s.pausedBy := rfl
@[simp] theorem State.note_away (s : State) (n : Notice) : (s.note n).away = s.away := rfl
@[simp] theorem State.note_pausedTo (s : State) (n : Notice) : (s.note n).pausedTo = s.pausedTo := rfl
@[simp] theorem State.note_heldHost (s : State) (n : Notice) : (s.note n).heldHost = s.heldHost := rfl
@[simp] theorem State.note_power (s : State) (n : Notice) : (s.note n).power = s.power := rfl
@[simp] theorem State.note_regions (s : State) (n : Notice) : (s.note n).regions = s.regions := rfl
@[simp] theorem State.note_refreshed (s : State) (n : Notice) : (s.note n).refreshed = s.refreshed := rfl
@[simp] theorem State.note_patrol (s : State) (n : Notice) : (s.note n).patrol = s.patrol := rfl
@[simp] theorem State.note_journal (s : State) (n : Notice) : (s.note n).journal = s.journal := rfl
@[simp] theorem State.note_ljournal (s : State) (n : Notice) : (s.note n).ljournal = s.ljournal := rfl
@[simp] theorem State.note_scrubs (s : State) (n : Notice) : (s.note n).scrubs = s.scrubs := rfl
@[simp] theorem State.note_corrections (s : State) (n : Notice) : (s.note n).corrections = s.corrections := rfl
@[simp] theorem State.note_retired (s : State) (n : Notice) : (s.note n).retired = s.retired := rfl
@[simp] theorem State.note_mgmt (s : State) (n : Notice) : (s.note n).mgmt = s.mgmt := rfl
@[simp] theorem State.note_sweep (s : State) (n : Notice) : (s.note n).sweep = s.sweep := rfl
@[simp] theorem State.note_notices (s : State) (n : Notice) : (s.note n).notices = s.notices ++ [n] := rfl
@[simp] theorem State.note_code (s : State) (n : Notice) : (s.note n).code = s.code := rfl
@[simp] theorem State.note_outbox (s : State) (n : Notice) : (s.note n).outbox = s.outbox := rfl
@[simp] theorem State.note_agenda (s : State) (n : Notice) : (s.note n).agenda = s.agenda := rfl
@[simp] theorem State.note_acted (s : State) (n : Notice) : (s.note n).acted = s.acted := rfl
@[simp] theorem State.note_cycle (s : State) (n : Notice) : (s.note n).cycle = s.cycle := rfl
@[simp] theorem State.note_draws (s : State) (n : Notice) : (s.note n).draws = s.draws := rfl
@[simp] theorem State.note_nextId (s : State) (n : Notice) : (s.note n).nextId = s.nextId := rfl

/-! ### `State.onClus` -/

@[simp] theorem State.onClus_ctx (s : State) (f : Cluster → Cluster) : (s.onClus f).ctx = s.ctx := rfl
@[simp] theorem State.onClus_others (s : State) (f : Cluster → Cluster) : (s.onClus f).others = s.others := rfl
@[simp] theorem State.onClus_core (s : State) (f : Cluster → Cluster) : (s.onClus f).core = s.core := rfl
@[simp] theorem State.onClus_cores (s : State) (f : Cluster → Cluster) : (s.onClus f).cores = s.cores := rfl
@[simp] theorem State.onClus_clus (s : State) (f : Cluster → Cluster) : (s.onClus f).clus = f s.clus := rfl
@[simp] theorem State.onClus_clusters (s : State) (f : Cluster → Cluster) : (s.onClus f).clusters = s.clusters := rfl
@[simp] theorem State.onClus_mem (s : State) (f : Cluster → Cluster) : (s.onClus f).mem = s.mem := rfl
@[simp] theorem State.onClus_memTags (s : State) (f : Cluster → Cluster) : (s.onClus f).memTags = s.memTags := rfl
@[simp] theorem State.onClus_tagSum (s : State) (f : Cluster → Cluster) : (s.onClus f).tagSum = s.tagSum := rfl
@[simp] theorem State.onClus_exts (s : State) (f : Cluster → Cluster) : (s.onClus f).exts = s.exts := rfl
@[simp] theorem State.onClus_zeroing (s : State) (f : Cluster → Cluster) : (s.onClus f).zeroing = s.zeroing := rfl
@[simp] theorem State.onClus_spaces (s : State) (f : Cluster → Cluster) : (s.onClus f).spaces = s.spaces := rfl
@[simp] theorem State.onClus_poison (s : State) (f : Cluster → Cluster) : (s.onClus f).poison = s.poison := rfl
@[simp] theorem State.onClus_l2 (s : State) (f : Cluster → Cluster) : (s.onClus f).l2 = s.l2 := rfl
@[simp] theorem State.onClus_msc (s : State) (f : Cluster → Cluster) : (s.onClus f).msc = s.msc := rfl
@[simp] theorem State.onClus_launches (s : State) (f : Cluster → Cluster) : (s.onClus f).launches = s.launches := rfl
@[simp] theorem State.onClus_streams (s : State) (f : Cluster → Cluster) : (s.onClus f).streams = s.streams := rfl
@[simp] theorem State.onClus_graphs (s : State) (f : Cluster → Cluster) : (s.onClus f).graphs = s.graphs := rfl
@[simp] theorem State.onClus_verified (s : State) (f : Cluster → Cluster) : (s.onClus f).verified = s.verified := rfl
@[simp] theorem State.onClus_hostMem (s : State) (f : Cluster → Cluster) : (s.onClus f).hostMem = s.hostMem := rfl
@[simp] theorem State.onClus_parts (s : State) (f : Cluster → Cluster) : (s.onClus f).parts = s.parts := rfl
@[simp] theorem State.onClus_keys (s : State) (f : Cluster → Cluster) : (s.onClus f).keys = s.keys := rfl
@[simp] theorem State.onClus_hdm (s : State) (f : Cluster → Cluster) : (s.onClus f).hdm = s.hdm := rfl
@[simp] theorem State.onClus_deferred (s : State) (f : Cluster → Cluster) : (s.onClus f).deferred = s.deferred := rfl
@[simp] theorem State.onClus_deal (s : State) (f : Cluster → Cluster) : (s.onClus f).deal = s.deal := rfl
@[simp] theorem State.onClus_groups (s : State) (f : Cluster → Cluster) : (s.onClus f).groups = s.groups := rfl
@[simp] theorem State.onClus_coll (s : State) (f : Cluster → Cluster) : (s.onClus f).coll = s.coll := rfl
@[simp] theorem State.onClus_links (s : State) (f : Cluster → Cluster) : (s.onClus f).links = s.links := rfl
@[simp] theorem State.onClus_module (s : State) (f : Cluster → Cluster) : (s.onClus f).module = s.module := rfl
@[simp] theorem State.onClus_dsize (s : State) (f : Cluster → Cluster) : (s.onClus f).dsize = s.dsize := rfl
@[simp] theorem State.onClus_pausedBy (s : State) (f : Cluster → Cluster) : (s.onClus f).pausedBy = s.pausedBy := rfl
@[simp] theorem State.onClus_away (s : State) (f : Cluster → Cluster) : (s.onClus f).away = s.away := rfl
@[simp] theorem State.onClus_pausedTo (s : State) (f : Cluster → Cluster) : (s.onClus f).pausedTo = s.pausedTo := rfl
@[simp] theorem State.onClus_heldHost (s : State) (f : Cluster → Cluster) : (s.onClus f).heldHost = s.heldHost := rfl
@[simp] theorem State.onClus_power (s : State) (f : Cluster → Cluster) : (s.onClus f).power = s.power := rfl
@[simp] theorem State.onClus_regions (s : State) (f : Cluster → Cluster) : (s.onClus f).regions = s.regions := rfl
@[simp] theorem State.onClus_refreshed (s : State) (f : Cluster → Cluster) : (s.onClus f).refreshed = s.refreshed := rfl
@[simp] theorem State.onClus_patrol (s : State) (f : Cluster → Cluster) : (s.onClus f).patrol = s.patrol := rfl
@[simp] theorem State.onClus_journal (s : State) (f : Cluster → Cluster) : (s.onClus f).journal = s.journal := rfl
@[simp] theorem State.onClus_ljournal (s : State) (f : Cluster → Cluster) : (s.onClus f).ljournal = s.ljournal := rfl
@[simp] theorem State.onClus_scrubs (s : State) (f : Cluster → Cluster) : (s.onClus f).scrubs = s.scrubs := rfl
@[simp] theorem State.onClus_corrections (s : State) (f : Cluster → Cluster) : (s.onClus f).corrections = s.corrections := rfl
@[simp] theorem State.onClus_retired (s : State) (f : Cluster → Cluster) : (s.onClus f).retired = s.retired := rfl
@[simp] theorem State.onClus_mgmt (s : State) (f : Cluster → Cluster) : (s.onClus f).mgmt = s.mgmt := rfl
@[simp] theorem State.onClus_sweep (s : State) (f : Cluster → Cluster) : (s.onClus f).sweep = s.sweep := rfl
@[simp] theorem State.onClus_notices (s : State) (f : Cluster → Cluster) : (s.onClus f).notices = s.notices := rfl
@[simp] theorem State.onClus_code (s : State) (f : Cluster → Cluster) : (s.onClus f).code = s.code := rfl
@[simp] theorem State.onClus_outbox (s : State) (f : Cluster → Cluster) : (s.onClus f).outbox = s.outbox := rfl
@[simp] theorem State.onClus_agenda (s : State) (f : Cluster → Cluster) : (s.onClus f).agenda = s.agenda := rfl
@[simp] theorem State.onClus_acted (s : State) (f : Cluster → Cluster) : (s.onClus f).acted = s.acted := rfl
@[simp] theorem State.onClus_cycle (s : State) (f : Cluster → Cluster) : (s.onClus f).cycle = s.cycle := rfl
@[simp] theorem State.onClus_draws (s : State) (f : Cluster → Cluster) : (s.onClus f).draws = s.draws := rfl
@[simp] theorem State.onClus_nextId (s : State) (f : Cluster → Cluster) : (s.onClus f).nextId = s.nextId := rfl

/-! ### `State.setTag` -/

@[simp] theorem State.setTag_ctx (s : State) (map a : Nat) (t : Bool) : (s.setTag map a t).ctx = s.ctx := rfl
@[simp] theorem State.setTag_others (s : State) (map a : Nat) (t : Bool) : (s.setTag map a t).others = s.others := rfl
@[simp] theorem State.setTag_core (s : State) (map a : Nat) (t : Bool) : (s.setTag map a t).core = s.core := rfl
@[simp] theorem State.setTag_cores (s : State) (map a : Nat) (t : Bool) : (s.setTag map a t).cores = s.cores := rfl
@[simp] theorem State.setTag_clus (s : State) (map a : Nat) (t : Bool) : (s.setTag map a t).clus = s.clus := rfl
@[simp] theorem State.setTag_clusters (s : State) (map a : Nat) (t : Bool) : (s.setTag map a t).clusters = s.clusters := rfl
@[simp] theorem State.setTag_mem (s : State) (map a : Nat) (t : Bool) : (s.setTag map a t).mem = s.mem := rfl
@[simp] theorem State.setTag_memTags (s : State) (map a : Nat) (t : Bool) : (s.setTag map a t).memTags = putTag s.memTags (memKey map a / 16) t := rfl
@[simp] theorem State.setTag_tagSum (s : State) (map a : Nat) (t : Bool) : (s.setTag map a t).tagSum = if t then s.tagSum ++ (s.summaryBit map a).toList.filter (fun b => !s.tagSum.contains b) else s.tagSum := rfl
@[simp] theorem State.setTag_exts (s : State) (map a : Nat) (t : Bool) : (s.setTag map a t).exts = s.exts := rfl
@[simp] theorem State.setTag_zeroing (s : State) (map a : Nat) (t : Bool) : (s.setTag map a t).zeroing = s.zeroing := rfl
@[simp] theorem State.setTag_spaces (s : State) (map a : Nat) (t : Bool) : (s.setTag map a t).spaces = s.spaces := rfl
@[simp] theorem State.setTag_poison (s : State) (map a : Nat) (t : Bool) : (s.setTag map a t).poison = s.poison := rfl
@[simp] theorem State.setTag_l2 (s : State) (map a : Nat) (t : Bool) : (s.setTag map a t).l2 = s.l2 := rfl
@[simp] theorem State.setTag_msc (s : State) (map a : Nat) (t : Bool) : (s.setTag map a t).msc = s.msc := rfl
@[simp] theorem State.setTag_launches (s : State) (map a : Nat) (t : Bool) : (s.setTag map a t).launches = s.launches := rfl
@[simp] theorem State.setTag_streams (s : State) (map a : Nat) (t : Bool) : (s.setTag map a t).streams = s.streams := rfl
@[simp] theorem State.setTag_graphs (s : State) (map a : Nat) (t : Bool) : (s.setTag map a t).graphs = s.graphs := rfl
@[simp] theorem State.setTag_verified (s : State) (map a : Nat) (t : Bool) : (s.setTag map a t).verified = s.verified := rfl
@[simp] theorem State.setTag_hostMem (s : State) (map a : Nat) (t : Bool) : (s.setTag map a t).hostMem = s.hostMem := rfl
@[simp] theorem State.setTag_parts (s : State) (map a : Nat) (t : Bool) : (s.setTag map a t).parts = s.parts := rfl
@[simp] theorem State.setTag_keys (s : State) (map a : Nat) (t : Bool) : (s.setTag map a t).keys = s.keys := rfl
@[simp] theorem State.setTag_hdm (s : State) (map a : Nat) (t : Bool) : (s.setTag map a t).hdm = s.hdm := rfl
@[simp] theorem State.setTag_deferred (s : State) (map a : Nat) (t : Bool) : (s.setTag map a t).deferred = s.deferred := rfl
@[simp] theorem State.setTag_deal (s : State) (map a : Nat) (t : Bool) : (s.setTag map a t).deal = s.deal := rfl
@[simp] theorem State.setTag_groups (s : State) (map a : Nat) (t : Bool) : (s.setTag map a t).groups = s.groups := rfl
@[simp] theorem State.setTag_coll (s : State) (map a : Nat) (t : Bool) : (s.setTag map a t).coll = s.coll := rfl
@[simp] theorem State.setTag_links (s : State) (map a : Nat) (t : Bool) : (s.setTag map a t).links = s.links := rfl
@[simp] theorem State.setTag_module (s : State) (map a : Nat) (t : Bool) : (s.setTag map a t).module = s.module := rfl
@[simp] theorem State.setTag_dsize (s : State) (map a : Nat) (t : Bool) : (s.setTag map a t).dsize = s.dsize := rfl
@[simp] theorem State.setTag_pausedBy (s : State) (map a : Nat) (t : Bool) : (s.setTag map a t).pausedBy = s.pausedBy := rfl
@[simp] theorem State.setTag_away (s : State) (map a : Nat) (t : Bool) : (s.setTag map a t).away = s.away := rfl
@[simp] theorem State.setTag_pausedTo (s : State) (map a : Nat) (t : Bool) : (s.setTag map a t).pausedTo = s.pausedTo := rfl
@[simp] theorem State.setTag_heldHost (s : State) (map a : Nat) (t : Bool) : (s.setTag map a t).heldHost = s.heldHost := rfl
@[simp] theorem State.setTag_power (s : State) (map a : Nat) (t : Bool) : (s.setTag map a t).power = s.power := rfl
@[simp] theorem State.setTag_regions (s : State) (map a : Nat) (t : Bool) : (s.setTag map a t).regions = s.regions := rfl
@[simp] theorem State.setTag_refreshed (s : State) (map a : Nat) (t : Bool) : (s.setTag map a t).refreshed = s.refreshed := rfl
@[simp] theorem State.setTag_patrol (s : State) (map a : Nat) (t : Bool) : (s.setTag map a t).patrol = s.patrol := rfl
@[simp] theorem State.setTag_journal (s : State) (map a : Nat) (t : Bool) : (s.setTag map a t).journal = s.journal := rfl
@[simp] theorem State.setTag_ljournal (s : State) (map a : Nat) (t : Bool) : (s.setTag map a t).ljournal = s.ljournal := rfl
@[simp] theorem State.setTag_scrubs (s : State) (map a : Nat) (t : Bool) : (s.setTag map a t).scrubs = s.scrubs := rfl
@[simp] theorem State.setTag_corrections (s : State) (map a : Nat) (t : Bool) : (s.setTag map a t).corrections = s.corrections := rfl
@[simp] theorem State.setTag_retired (s : State) (map a : Nat) (t : Bool) : (s.setTag map a t).retired = s.retired := rfl
@[simp] theorem State.setTag_mgmt (s : State) (map a : Nat) (t : Bool) : (s.setTag map a t).mgmt = s.mgmt := rfl
@[simp] theorem State.setTag_sweep (s : State) (map a : Nat) (t : Bool) : (s.setTag map a t).sweep = s.sweep := rfl
@[simp] theorem State.setTag_notices (s : State) (map a : Nat) (t : Bool) : (s.setTag map a t).notices = s.notices := rfl
@[simp] theorem State.setTag_code (s : State) (map a : Nat) (t : Bool) : (s.setTag map a t).code = s.code := rfl
@[simp] theorem State.setTag_outbox (s : State) (map a : Nat) (t : Bool) : (s.setTag map a t).outbox = s.outbox := rfl
@[simp] theorem State.setTag_agenda (s : State) (map a : Nat) (t : Bool) : (s.setTag map a t).agenda = s.agenda := rfl
@[simp] theorem State.setTag_acted (s : State) (map a : Nat) (t : Bool) : (s.setTag map a t).acted = s.acted := rfl
@[simp] theorem State.setTag_cycle (s : State) (map a : Nat) (t : Bool) : (s.setTag map a t).cycle = s.cycle := rfl
@[simp] theorem State.setTag_draws (s : State) (map a : Nat) (t : Bool) : (s.setTag map a t).draws = s.draws := rfl
@[simp] theorem State.setTag_nextId (s : State) (map a : Nat) (t : Bool) : (s.setTag map a t).nextId = s.nextId := rfl

/-! ### `State.modPart` -/

@[simp] theorem State.modPart_ctx (s : State) (n : Nat) (f : Part → Part) : (s.modPart n f).ctx = s.ctx := by
  unfold State.modPart; split <;> rfl
@[simp] theorem State.modPart_others (s : State) (n : Nat) (f : Part → Part) : (s.modPart n f).others = s.others := by
  unfold State.modPart; split <;> rfl
@[simp] theorem State.modPart_core (s : State) (n : Nat) (f : Part → Part) : (s.modPart n f).core = s.core := by
  unfold State.modPart; split <;> rfl
@[simp] theorem State.modPart_cores (s : State) (n : Nat) (f : Part → Part) : (s.modPart n f).cores = s.cores := by
  unfold State.modPart; split <;> rfl
@[simp] theorem State.modPart_clus (s : State) (n : Nat) (f : Part → Part) : (s.modPart n f).clus = s.clus := by
  unfold State.modPart; split <;> rfl
@[simp] theorem State.modPart_clusters (s : State) (n : Nat) (f : Part → Part) : (s.modPart n f).clusters = s.clusters := by
  unfold State.modPart; split <;> rfl
@[simp] theorem State.modPart_mem (s : State) (n : Nat) (f : Part → Part) : (s.modPart n f).mem = s.mem := by
  unfold State.modPart; split <;> rfl
@[simp] theorem State.modPart_memTags (s : State) (n : Nat) (f : Part → Part) : (s.modPart n f).memTags = s.memTags := by
  unfold State.modPart; split <;> rfl
@[simp] theorem State.modPart_tagSum (s : State) (n : Nat) (f : Part → Part) : (s.modPart n f).tagSum = s.tagSum := by
  unfold State.modPart; split <;> rfl
@[simp] theorem State.modPart_exts (s : State) (n : Nat) (f : Part → Part) : (s.modPart n f).exts = s.exts := by
  unfold State.modPart; split <;> rfl
@[simp] theorem State.modPart_zeroing (s : State) (n : Nat) (f : Part → Part) : (s.modPart n f).zeroing = s.zeroing := by
  unfold State.modPart; split <;> rfl
@[simp] theorem State.modPart_spaces (s : State) (n : Nat) (f : Part → Part) : (s.modPart n f).spaces = s.spaces := by
  unfold State.modPart; split <;> rfl
@[simp] theorem State.modPart_poison (s : State) (n : Nat) (f : Part → Part) : (s.modPart n f).poison = s.poison := by
  unfold State.modPart; split <;> rfl
@[simp] theorem State.modPart_l2 (s : State) (n : Nat) (f : Part → Part) : (s.modPart n f).l2 = s.l2 := by
  unfold State.modPart; split <;> rfl
@[simp] theorem State.modPart_msc (s : State) (n : Nat) (f : Part → Part) : (s.modPart n f).msc = s.msc := by
  unfold State.modPart; split <;> rfl
@[simp] theorem State.modPart_launches (s : State) (n : Nat) (f : Part → Part) : (s.modPart n f).launches = s.launches := by
  unfold State.modPart; split <;> rfl
@[simp] theorem State.modPart_streams (s : State) (n : Nat) (f : Part → Part) : (s.modPart n f).streams = s.streams := by
  unfold State.modPart; split <;> rfl
@[simp] theorem State.modPart_graphs (s : State) (n : Nat) (f : Part → Part) : (s.modPart n f).graphs = s.graphs := by
  unfold State.modPart; split <;> rfl
@[simp] theorem State.modPart_verified (s : State) (n : Nat) (f : Part → Part) : (s.modPart n f).verified = s.verified := by
  unfold State.modPart; split <;> rfl
@[simp] theorem State.modPart_hostMem (s : State) (n : Nat) (f : Part → Part) : (s.modPart n f).hostMem = s.hostMem := by
  unfold State.modPart; split <;> rfl
@[simp] theorem State.modPart_keys (s : State) (n : Nat) (f : Part → Part) : (s.modPart n f).keys = s.keys := by
  unfold State.modPart; split <;> rfl
@[simp] theorem State.modPart_hdm (s : State) (n : Nat) (f : Part → Part) : (s.modPart n f).hdm = s.hdm := by
  unfold State.modPart; split <;> rfl
@[simp] theorem State.modPart_deferred (s : State) (n : Nat) (f : Part → Part) : (s.modPart n f).deferred = s.deferred := by
  unfold State.modPart; split <;> rfl
@[simp] theorem State.modPart_deal (s : State) (n : Nat) (f : Part → Part) : (s.modPart n f).deal = s.deal := by
  unfold State.modPart; split <;> rfl
@[simp] theorem State.modPart_groups (s : State) (n : Nat) (f : Part → Part) : (s.modPart n f).groups = s.groups := by
  unfold State.modPart; split <;> rfl
@[simp] theorem State.modPart_coll (s : State) (n : Nat) (f : Part → Part) : (s.modPart n f).coll = s.coll := by
  unfold State.modPart; split <;> rfl
@[simp] theorem State.modPart_links (s : State) (n : Nat) (f : Part → Part) : (s.modPart n f).links = s.links := by
  unfold State.modPart; split <;> rfl
@[simp] theorem State.modPart_module (s : State) (n : Nat) (f : Part → Part) : (s.modPart n f).module = s.module := by
  unfold State.modPart; split <;> rfl
@[simp] theorem State.modPart_dsize (s : State) (n : Nat) (f : Part → Part) : (s.modPart n f).dsize = s.dsize := by
  unfold State.modPart; split <;> rfl
@[simp] theorem State.modPart_pausedBy (s : State) (n : Nat) (f : Part → Part) : (s.modPart n f).pausedBy = s.pausedBy := by
  unfold State.modPart; split <;> rfl
@[simp] theorem State.modPart_away (s : State) (n : Nat) (f : Part → Part) : (s.modPart n f).away = s.away := by
  unfold State.modPart; split <;> rfl
@[simp] theorem State.modPart_pausedTo (s : State) (n : Nat) (f : Part → Part) : (s.modPart n f).pausedTo = s.pausedTo := by
  unfold State.modPart; split <;> rfl
@[simp] theorem State.modPart_heldHost (s : State) (n : Nat) (f : Part → Part) : (s.modPart n f).heldHost = s.heldHost := by
  unfold State.modPart; split <;> rfl
@[simp] theorem State.modPart_power (s : State) (n : Nat) (f : Part → Part) : (s.modPart n f).power = s.power := by
  unfold State.modPart; split <;> rfl
@[simp] theorem State.modPart_regions (s : State) (n : Nat) (f : Part → Part) : (s.modPart n f).regions = s.regions := by
  unfold State.modPart; split <;> rfl
@[simp] theorem State.modPart_refreshed (s : State) (n : Nat) (f : Part → Part) : (s.modPart n f).refreshed = s.refreshed := by
  unfold State.modPart; split <;> rfl
@[simp] theorem State.modPart_patrol (s : State) (n : Nat) (f : Part → Part) : (s.modPart n f).patrol = s.patrol := by
  unfold State.modPart; split <;> rfl
@[simp] theorem State.modPart_journal (s : State) (n : Nat) (f : Part → Part) : (s.modPart n f).journal = s.journal := by
  unfold State.modPart; split <;> rfl
@[simp] theorem State.modPart_ljournal (s : State) (n : Nat) (f : Part → Part) : (s.modPart n f).ljournal = s.ljournal := by
  unfold State.modPart; split <;> rfl
@[simp] theorem State.modPart_scrubs (s : State) (n : Nat) (f : Part → Part) : (s.modPart n f).scrubs = s.scrubs := by
  unfold State.modPart; split <;> rfl
@[simp] theorem State.modPart_corrections (s : State) (n : Nat) (f : Part → Part) : (s.modPart n f).corrections = s.corrections := by
  unfold State.modPart; split <;> rfl
@[simp] theorem State.modPart_retired (s : State) (n : Nat) (f : Part → Part) : (s.modPart n f).retired = s.retired := by
  unfold State.modPart; split <;> rfl
@[simp] theorem State.modPart_mgmt (s : State) (n : Nat) (f : Part → Part) : (s.modPart n f).mgmt = s.mgmt := by
  unfold State.modPart; split <;> rfl
@[simp] theorem State.modPart_sweep (s : State) (n : Nat) (f : Part → Part) : (s.modPart n f).sweep = s.sweep := by
  unfold State.modPart; split <;> rfl
@[simp] theorem State.modPart_notices (s : State) (n : Nat) (f : Part → Part) : (s.modPart n f).notices = s.notices := by
  unfold State.modPart; split <;> rfl
@[simp] theorem State.modPart_code (s : State) (n : Nat) (f : Part → Part) : (s.modPart n f).code = s.code := by
  unfold State.modPart; split <;> rfl
@[simp] theorem State.modPart_outbox (s : State) (n : Nat) (f : Part → Part) : (s.modPart n f).outbox = s.outbox := by
  unfold State.modPart; split <;> rfl
@[simp] theorem State.modPart_agenda (s : State) (n : Nat) (f : Part → Part) : (s.modPart n f).agenda = s.agenda := by
  unfold State.modPart; split <;> rfl
@[simp] theorem State.modPart_acted (s : State) (n : Nat) (f : Part → Part) : (s.modPart n f).acted = s.acted := by
  unfold State.modPart; split <;> rfl
@[simp] theorem State.modPart_cycle (s : State) (n : Nat) (f : Part → Part) : (s.modPart n f).cycle = s.cycle := by
  unfold State.modPart; split <;> rfl
@[simp] theorem State.modPart_draws (s : State) (n : Nat) (f : Part → Part) : (s.modPart n f).draws = s.draws := by
  unfold State.modPart; split <;> rfl
@[simp] theorem State.modPart_nextId (s : State) (n : Nat) (f : Part → Part) : (s.modPart n f).nextId = s.nextId := by
  unfold State.modPart; split <;> rfl
@[simp] theorem State.modPart_parts (s : State) (n : Nat) (f : Part → Part) : (s.modPart n f).parts =
    if n < 64 then s.parts.filter (fun x => x.num != n) ++ [f (s.partOf n)] else s.parts := by
  unfold State.modPart; split <;> rfl

/-! ### `Ctx.putDue` -/

@[simp] theorem Ctx.putDue_c (c : Ctx) (lat : Nat) (ws : List RegWrite) (t : Taint) (fl : BitVec 5) : (c.putDue lat ws t fl).c = c.c := rfl
@[simp] theorem Ctx.putDue_a (c : Ctx) (lat : Nat) (ws : List RegWrite) (t : Taint) (fl : BitVec 5) : (c.putDue lat ws t fl).a = c.a := rfl
@[simp] theorem Ctx.putDue_i (c : Ctx) (lat : Nat) (ws : List RegWrite) (t : Taint) (fl : BitVec 5) : (c.putDue lat ws t fl).i = c.i := rfl
@[simp] theorem Ctx.putDue_va (c : Ctx) (lat : Nat) (ws : List RegWrite) (t : Taint) (fl : BitVec 5) : (c.putDue lat ws t fl).va = c.va := rfl
@[simp] theorem Ctx.putDue_vb (c : Ctx) (lat : Nat) (ws : List RegWrite) (t : Taint) (fl : BitVec 5) : (c.putDue lat ws t fl).vb = c.vb := rfl
@[simp] theorem Ctx.putDue_m (c : Ctx) (lat : Nat) (ws : List RegWrite) (t : Taint) (fl : BitVec 5) : (c.putDue lat ws t fl).m = c.m := rfl
@[simp] theorem Ctx.putDue_k (c : Ctx) (lat : Nat) (ws : List RegWrite) (t : Taint) (fl : BitVec 5) : (c.putDue lat ws t fl).k = c.k := rfl
@[simp] theorem Ctx.putDue_s (c : Ctx) (lat : Nat) (ws : List RegWrite) (t : Taint) (fl : BitVec 5) : (c.putDue lat ws t fl).s = c.s := rfl
@[simp] theorem Ctx.putDue_due (c : Ctx) (lat : Nat) (ws : List RegWrite) (t : Taint) (fl : BitVec 5) : (c.putDue lat ws t fl).due = c.due ++ [⟨lat, c.bun.hand, ws, t, fl⟩] := rfl
@[simp] theorem Ctx.putDue_mem (c : Ctx) (lat : Nat) (ws : List RegWrite) (t : Taint) (fl : BitVec 5) : (c.putDue lat ws t fl).mem = c.mem := rfl
@[simp] theorem Ctx.putDue_st (c : Ctx) (lat : Nat) (ws : List RegWrite) (t : Taint) (fl : BitVec 5) : (c.putDue lat ws t fl).st = c.st := rfl
@[simp] theorem Ctx.putDue_pc (c : Ctx) (lat : Nat) (ws : List RegWrite) (t : Taint) (fl : BitVec 5) : (c.putDue lat ws t fl).pc = c.pc := rfl
@[simp] theorem Ctx.putDue_path (c : Ctx) (lat : Nat) (ws : List RegWrite) (t : Taint) (fl : BitVec 5) : (c.putDue lat ws t fl).path = c.path := rfl
@[simp] theorem Ctx.putDue_savedPath (c : Ctx) (lat : Nat) (ws : List RegWrite) (t : Taint) (fl : BitVec 5) : (c.putDue lat ws t fl).savedPath = c.savedPath := rfl
@[simp] theorem Ctx.putDue_handler (c : Ctx) (lat : Nat) (ws : List RegWrite) (t : Taint) (fl : BitVec 5) : (c.putDue lat ws t fl).handler = c.handler := rfl
@[simp] theorem Ctx.putDue_bun (c : Ctx) (lat : Nat) (ws : List RegWrite) (t : Taint) (fl : BitVec 5) : (c.putDue lat ws t fl).bun = c.bun := rfl
@[simp] theorem Ctx.putDue_ports (c : Ctx) (lat : Nat) (ws : List RegWrite) (t : Taint) (fl : BitVec 5) : (c.putDue lat ws t fl).ports = c.ports := rfl
@[simp] theorem Ctx.putDue_wait (c : Ctx) (lat : Nat) (ws : List RegWrite) (t : Taint) (fl : BitVec 5) : (c.putDue lat ws t fl).wait = c.wait := rfl
@[simp] theorem Ctx.putDue_phase (c : Ctx) (lat : Nat) (ws : List RegWrite) (t : Taint) (fl : BitVec 5) : (c.putDue lat ws t fl).phase = c.phase := rfl
@[simp] theorem Ctx.putDue_place (c : Ctx) (lat : Nat) (ws : List RegWrite) (t : Taint) (fl : BitVec 5) : (c.putDue lat ws t fl).place = c.place := rfl
@[simp] theorem Ctx.putDue_bubblesLeft (c : Ctx) (lat : Nat) (ws : List RegWrite) (t : Taint) (fl : BitVec 5) : (c.putDue lat ws t fl).bubblesLeft = c.bubblesLeft := rfl
@[simp] theorem Ctx.putDue_saved (c : Ctx) (lat : Nat) (ws : List RegWrite) (t : Taint) (fl : BitVec 5) : (c.putDue lat ws t fl).saved = c.saved := rfl

/-! ### `Ctx.setDone` -/

@[simp] theorem Ctx.setDone_c (c : Ctx) (k : Nat) : (c.setDone k).c = { c.c with done := c.c.done ||| BitVec.ofNat 64 (2 ^ k) } := rfl
@[simp] theorem Ctx.setDone_a (c : Ctx) (k : Nat) : (c.setDone k).a = c.a := rfl
@[simp] theorem Ctx.setDone_i (c : Ctx) (k : Nat) : (c.setDone k).i = c.i := rfl
@[simp] theorem Ctx.setDone_va (c : Ctx) (k : Nat) : (c.setDone k).va = c.va := rfl
@[simp] theorem Ctx.setDone_vb (c : Ctx) (k : Nat) : (c.setDone k).vb = c.vb := rfl
@[simp] theorem Ctx.setDone_m (c : Ctx) (k : Nat) : (c.setDone k).m = c.m := rfl
@[simp] theorem Ctx.setDone_k (c : Ctx) (k : Nat) : (c.setDone k).k = c.k := rfl
@[simp] theorem Ctx.setDone_s (c : Ctx) (k : Nat) : (c.setDone k).s = c.s := rfl
@[simp] theorem Ctx.setDone_due (c : Ctx) (k : Nat) : (c.setDone k).due = c.due := rfl
@[simp] theorem Ctx.setDone_mem (c : Ctx) (k : Nat) : (c.setDone k).mem = c.mem := rfl
@[simp] theorem Ctx.setDone_st (c : Ctx) (k : Nat) : (c.setDone k).st = c.st := rfl
@[simp] theorem Ctx.setDone_pc (c : Ctx) (k : Nat) : (c.setDone k).pc = c.pc := rfl
@[simp] theorem Ctx.setDone_path (c : Ctx) (k : Nat) : (c.setDone k).path = c.path := rfl
@[simp] theorem Ctx.setDone_savedPath (c : Ctx) (k : Nat) : (c.setDone k).savedPath = c.savedPath := rfl
@[simp] theorem Ctx.setDone_handler (c : Ctx) (k : Nat) : (c.setDone k).handler = c.handler := rfl
@[simp] theorem Ctx.setDone_bun (c : Ctx) (k : Nat) : (c.setDone k).bun = c.bun := rfl
@[simp] theorem Ctx.setDone_ports (c : Ctx) (k : Nat) : (c.setDone k).ports = c.ports := rfl
@[simp] theorem Ctx.setDone_wait (c : Ctx) (k : Nat) : (c.setDone k).wait = c.wait := rfl
@[simp] theorem Ctx.setDone_phase (c : Ctx) (k : Nat) : (c.setDone k).phase = c.phase := rfl
@[simp] theorem Ctx.setDone_place (c : Ctx) (k : Nat) : (c.setDone k).place = c.place := rfl
@[simp] theorem Ctx.setDone_bubblesLeft (c : Ctx) (k : Nat) : (c.setDone k).bubblesLeft = c.bubblesLeft := rfl
@[simp] theorem Ctx.setDone_saved (c : Ctx) (k : Nat) : (c.setDone k).saved = c.saved := rfl

/-! ### `Ctx.addPath` -/

@[simp] theorem Ctx.addPath_c (c : Ctx) (t : Taint) : (c.addPath t).c = c.c := rfl
@[simp] theorem Ctx.addPath_a (c : Ctx) (t : Taint) : (c.addPath t).a = c.a := rfl
@[simp] theorem Ctx.addPath_i (c : Ctx) (t : Taint) : (c.addPath t).i = c.i := rfl
@[simp] theorem Ctx.addPath_va (c : Ctx) (t : Taint) : (c.addPath t).va = c.va := rfl
@[simp] theorem Ctx.addPath_vb (c : Ctx) (t : Taint) : (c.addPath t).vb = c.vb := rfl
@[simp] theorem Ctx.addPath_m (c : Ctx) (t : Taint) : (c.addPath t).m = c.m := rfl
@[simp] theorem Ctx.addPath_k (c : Ctx) (t : Taint) : (c.addPath t).k = c.k := rfl
@[simp] theorem Ctx.addPath_s (c : Ctx) (t : Taint) : (c.addPath t).s = c.s := rfl
@[simp] theorem Ctx.addPath_due (c : Ctx) (t : Taint) : (c.addPath t).due = c.due := rfl
@[simp] theorem Ctx.addPath_mem (c : Ctx) (t : Taint) : (c.addPath t).mem = c.mem := rfl
@[simp] theorem Ctx.addPath_st (c : Ctx) (t : Taint) : (c.addPath t).st = c.st := rfl
@[simp] theorem Ctx.addPath_pc (c : Ctx) (t : Taint) : (c.addPath t).pc = c.pc := rfl
@[simp] theorem Ctx.addPath_path (c : Ctx) (t : Taint) : (c.addPath t).path = c.path := rfl
@[simp] theorem Ctx.addPath_savedPath (c : Ctx) (t : Taint) : (c.addPath t).savedPath = c.savedPath := rfl
@[simp] theorem Ctx.addPath_handler (c : Ctx) (t : Taint) : (c.addPath t).handler = c.handler := rfl
@[simp] theorem Ctx.addPath_bun (c : Ctx) (t : Taint) : (c.addPath t).bun = { c.bun with path := c.bun.path ||| t } := rfl
@[simp] theorem Ctx.addPath_ports (c : Ctx) (t : Taint) : (c.addPath t).ports = c.ports := rfl
@[simp] theorem Ctx.addPath_wait (c : Ctx) (t : Taint) : (c.addPath t).wait = c.wait := rfl
@[simp] theorem Ctx.addPath_phase (c : Ctx) (t : Taint) : (c.addPath t).phase = c.phase := rfl
@[simp] theorem Ctx.addPath_place (c : Ctx) (t : Taint) : (c.addPath t).place = c.place := rfl
@[simp] theorem Ctx.addPath_bubblesLeft (c : Ctx) (t : Taint) : (c.addPath t).bubblesLeft = c.bubblesLeft := rfl
@[simp] theorem Ctx.addPath_saved (c : Ctx) (t : Taint) : (c.addPath t).saved = c.saved := rfl

end Sys2Proof.Machine
end

