-- ==== Sys2Proof/Laws/Ops.lean ====
section
/-! SUPPORT. What each shared operation can do, said once: queue pops, exposed results, home memory, taking a trap,
streams, partitions, clusters by key, and the shape of a step. -/

namespace Sys2Proof.Laws

open Sys2Proof Sys2Proof.Machine Sys2Proof.Safety

/-! ### Queues and exposed results -/

/-- A pop of load-data queue entries changes that queue alone. -/
theorem popLq_frame (c : Ctx) (u : DUnit) (n : Nat) :
    SameFiles c (c.popLq u n) ∧ SameSpecial c (c.popLq u n) ∧ SameQueues c (c.popLq u n) ∧ (c.popLq u n).due = c.due ∧
      (c.popLq u n).bun = c.bun := by
  unfold Ctx.popLq
  split
  · exact ⟨⟨rfl, rfl, rfl, rfl, rfl, rfl, rfl, rfl⟩, ⟨rfl, rfl, rfl, rfl, rfl⟩,
      ⟨rfl, rfl, rfl, rfl, rfl, rfl, rfl, fun _ => rfl, fun _ => ⟨0, rfl⟩⟩, rfl, rfl⟩
  · cases u <;> exact ⟨⟨rfl, rfl, rfl, rfl, rfl, rfl, rfl, rfl⟩, ⟨rfl, rfl, rfl, rfl, rfl⟩,
      ⟨rfl, rfl, rfl, rfl, rfl, rfl, rfl, fun u => by cases u <;> rfl,
        fun u => by cases u <;> first | exact ⟨n, rfl⟩ | exact ⟨0, rfl⟩⟩, rfl, rfl⟩

/-- A word that pops queue entries and places one exposed result has the frame of such a word. -/
theorem exposed_frame (s : State) (u : DUnit) (n lat : Nat) (w : RegWrite) (t : Taint) (fl : BitVec 5)
    (P : RegWrite → Prop) (h : P w) : ExposedFrame s (s.onCtx (fun c => (c.popLq u n).putDue lat [w] t fl)) P := by
  obtain ⟨h1, h2, h3, h4, h5⟩ := popLq_frame s.ctx u n
  refine ⟨rfl, ⟨fun _ _ => rfl, fun _ _ => rfl, fun _ _ => rfl⟩, h1, h2, h3,
    ⟨⟨lat, (s.ctx.popLq u n).bun.hand, [w], t, fl⟩, ?_, ?_, rfl, ?_⟩⟩
  · exact congrArg (· ++ _) h4
  · exact congrArg Bun.hand h5
  · intro x hx
    rw [List.mem_singleton] at hx
    exact hx ▸ h

/-- The same for a word that pops nothing. -/
theorem exposed_frame_noPop (s : State) (lat : Nat) (w : RegWrite) (t : Taint) (fl : BitVec 5)
    (P : RegWrite → Prop) (h : P w) : ExposedFrame s (s.onCtx (fun c => c.putDue lat [w] t fl)) P :=
  exposed_frame s .a 0 lat w t fl P h

/-! ### Home memory -/

/-- A write at home stores its bytes at its place and leaves every other byte at home. -/
theorem homeByte_memWrite (s : State) (map a m x : Nat) (bs : List Byte) (h : Memory.wf s.mem = true)
    (ha : a + bs.length ≤ 2 ^ 40) (hx : x < 2 ^ 40) :
    homeByte (s.memWrite map a bs) m x =
      if m = map ∧ a ≤ x ∧ x < a + bs.length then (bs[x - a]?).getD 0 else homeByte s m x := by
  unfold homeByte
  rw [State.memWrite_mem, Memory.get_write _ _ _ h]
  by_cases hb : bs = []
  · subst hb
    have hne : ¬ (m = map ∧ a ≤ x ∧ x < a + ([] : List Byte).length) := by
      rw [List.length_nil]; omega
    rw [if_neg hne]
    simp
  have hl : 0 < bs.length := List.length_pos_iff.mpr hb
  have ka : memKey map a = map * 2 ^ 40 + a := by unfold memKey; omega
  have kx : memKey m x = m * 2 ^ 40 + x := by unfold memKey; omega
  rw [ka, kx]
  by_cases hm : m = map
  · subst hm
    by_cases h1 : a ≤ x
    · rw [if_pos (by omega)]
      by_cases h2 : x < a + bs.length
      · rw [if_pos ⟨rfl, h1, h2⟩]
        have e : m * 2 ^ 40 + x - (m * 2 ^ 40 + a) = x - a := by omega
        rw [e, List.getElem?_eq_getElem (by omega)]
        rfl
      · rw [if_neg (by omega), List.getElem?_eq_none (by omega)]
        rfl
    · rw [if_neg (by omega), if_neg (by omega)]
  · have hne : ¬ (m = map ∧ a ≤ x ∧ x < a + bs.length) := fun c => hm c.1
    rw [if_neg hne]
    split
    · rw [List.getElem?_eq_none (by omega)]
      rfl
    · rfl

/-- A write at home keeps the canonical form of memory and of its tags, and changes no local array. -/
theorem memInv_memWrite {s : State} (map a : Nat) (bs : List Byte) (h : MemInv s) : MemInv (s.memWrite map a bs) :=
  ⟨Memory.wf_write _ _ h.1, h.2.1, h.2.2.1, h.2.2.2⟩

theorem arrInv_memWrite {s : State} (map a : Nat) (bs : List Byte) (h : ArrInv s) : ArrInv (s.memWrite map a bs) :=
  ⟨h.1, clearTags_wf _ _ h.2.1, h.2.2.1, h.2.2.2⟩

theorem memInv_memWriteCap {s : State} (map a : Nat) (v : CapV) (h : MemInv s) : MemInv (s.memWriteCap map a v) :=
  ⟨Memory.wf_write _ _ h.1, h.2.1, h.2.2.1, h.2.2.2⟩

theorem arrInv_memWriteCap {s : State} (map a : Nat) (v : CapV) (h : ArrInv s) : ArrInv (s.memWriteCap map a v) :=
  ⟨h.1, putTag_wf _ _ h.2.1, h.2.2.1, h.2.2.2⟩

/-- The forms depend on the memories, cores, tags and manifests alone. -/
theorem memInv_congr {s t : State} (h1 : t.mem = s.mem) (h2 : t.hostMem = s.hostMem) (h3 : t.power.slotA = s.power.slotA)
    (h4 : t.power.slotB = s.power.slotB) (h : MemInv s) : MemInv t := by
  unfold MemInv at *; rw [h1, h2, h3, h4]; exact h

theorem arrInv_congr {s t : State} (h1 : t.core = s.core) (h2 : t.cores = s.cores) (h3 : t.memTags = s.memTags)
    (h4 : t.power.slotA = s.power.slotA) (h5 : t.power.slotB = s.power.slotB) (h : ArrInv s) : ArrInv t := by
  unfold ArrInv at *; rw [h1, h2, h3, h4, h5]; exact h

/-- A write into a local array keeps its form. -/
theorem core_wf_laWrite {k : Core} (o : Nat) (bs : List Byte)
    (h : Memory.wf k.la = true ∧ Memory.wf k.grist = true ∧ NatSet.wfFrom 0 k.laTags = true) :
    Memory.wf (k.laWrite o bs).la = true ∧ Memory.wf (k.laWrite o bs).grist = true ∧
      NatSet.wfFrom 0 (k.laWrite o bs).laTags = true :=
  ⟨Memory.wf_write _ _ h.1, h.2.1, clearTags_wf _ _ h.2.2⟩

theorem core_wf_laWriteCap {k : Core} (o : Nat) (v : CapV)
    (h : Memory.wf k.la = true ∧ Memory.wf k.grist = true ∧ NatSet.wfFrom 0 k.laTags = true) :
    Memory.wf (k.laWriteCap o v).la = true ∧ Memory.wf (k.laWriteCap o v).grist = true ∧
      NatSet.wfFrom 0 (k.laWriteCap o v).laTags = true :=
  ⟨Memory.wf_write _ _ h.1, h.2.1, putTag_wf _ _ h.2.2⟩

/-! ### Traps -/

/-- A trap with a handler, outside handler mode, changes the current context alone. -/
theorem takeTrap_handler (s : State) (i : TrapInfo) (h : Nat) (h1 : s.ctx.handler = false)
    (h2 : s.ctx.place.handler = some h) : s.takeTrap i = s.onCtx (fun c =>
      let c1 := { c with st := { c.st with frec := frecBits i c.st.bundles }, handler := true, savedPath := c.path, path := 0,
                         pc := h, bubblesLeft := 0 }
      { c1 with bun := c1.freshBun h }) := by
  simp [State.takeTrap, h1, h2, State.onCtx]

/-- Any other trap is a fatal fault. -/
theorem takeTrap_fatal (s : State) (i : TrapInfo) (h : s.ctx.handler = true ∨ s.ctx.place.handler = none) :
    s.takeTrap i = (s.onCtx (fun c => { c with st := { c.st with frec := frecBits i c.st.bundles } })).freeze := by
  unfold State.takeTrap
  cases h1 : s.ctx.handler <;> cases h2 : s.ctx.place.handler <;> simp_all

/-- A raised trap names itself in the bundle's accumulator. -/
theorem raise_next (s : State) (i : TrapInfo) : ∃ t, raise s i = .next t ∧ t.ctx.bun.trap = some i := ⟨_, rfl, rfl⟩

/-! ### Streams, partitions, module events -/

theorem streamOf_modStream (s : State) (n m : Nat) (f : Stream → Stream) (hn : n < 64)
    (hf : (f (s.streamOf n)).num = n) :
    (s.modStream n f).streamOf m = if m = n then f (s.streamOf n) else s.streamOf m := by
  have hg : ∀ l : List Stream, m ≠ n → (l.filter (fun x => x.num != n)).find? (fun x => x.num == m) =
      l.find? (fun x => x.num == m) := by
    intro l hm
    induction l with
    | nil => rfl
    | cons a r ih =>
      by_cases ha : a.num = n
      · have : a.num ≠ m := fun h => hm (h.symm.trans ha)
        simp [ha, ih, Ne.symm hm]
      · by_cases hb : a.num = m <;> simp_all
  have hn' : ∀ l : List Stream, (l.filter (fun x => x.num != n)).find? (fun x => x.num == n) = none := by
    intro l; simp [List.find?_eq_none]
  unfold State.modStream
  rw [if_pos hn]
  by_cases hm : m = n
  · subst hm
    rw [if_pos rfl]
    unfold State.streamOf
    simp only [List.find?_append, hn']
    simp_all [State.streamOf]
  · rw [if_neg hm]
    unfold State.streamOf
    simp only [List.find?_append, hg _ hm]
    cases s.streams.find? (fun x => x.num == m) with
    | some x => rfl
    | none =>
      have : (f (s.streamOf n)).num ≠ m := fun h => hm (h.symm.trans hf)
      simp [State.streamOf] at *
      simp [this]

theorem partOf_modPart (s : State) (n m : Nat) (f : Part → Part) (hn : n < 64) (hf : (f (s.partOf n)).num = n) :
    (s.modPart n f).partOf m = if m = n then f (s.partOf n) else s.partOf m := by
  have hg : ∀ l : List Part, m ≠ n → (l.filter (fun x => x.num != n)).find? (fun x => x.num == m) =
      l.find? (fun x => x.num == m) := by
    intro l hm
    induction l with
    | nil => rfl
    | cons a r ih =>
      by_cases ha : a.num = n
      · have : a.num ≠ m := fun h => hm (h.symm.trans ha)
        simp [ha, ih, Ne.symm hm]
      · by_cases hb : a.num = m <;> simp_all
  have hn' : ∀ l : List Part, (l.filter (fun x => x.num != n)).find? (fun x => x.num == n) = none := by
    intro l; simp [List.find?_eq_none]
  unfold State.modPart
  rw [if_pos hn]
  by_cases hm : m = n
  · subst hm
    rw [if_pos rfl]
    unfold State.partOf
    simp only [List.find?_append, hn']
    simp_all [State.partOf]
  · rw [if_neg hm]
    unfold State.partOf
    simp only [List.find?_append, hg _ hm]
    cases s.parts.find? (fun x => x.num == m) with
    | some x => rfl
    | none =>
      have : (f (s.partOf n)).num ≠ m := fun h => hm (h.symm.trans hf)
      simp [State.partOf] at *
      simp [this]

/-- An event of a unit that only a module has. -/
theorem moduleOnly_cases (f : State → State) (s : State) :
    (s.code = .vpm9mh ∧ moduleOnly f s = .next (f s)) ∨ (s.code = .vpm9p ∧ moduleOnly f s = .fault .absentUnit) := by
  unfold moduleOnly
  cases h : s.code <;> simp

/-- A write of a locked item, a deal table or a buffer-space entry performs at once, or joins the writes that wait: behind
one of the same target it always waits. -/
theorem submit_cases (s : State) (d : Deferred) :
    s.submit d = { s with deferred := s.deferred ++ [d] } ∨
    ((∀ x ∈ s.deferred, x.target ≠ d.target) ∧ s.tryWrite d = some (s.submit d)) := by
  unfold State.submit
  cases h : s.deferred.any (fun x => x.target == d.target) with
  | true => exact .inl (by simp)
  | false =>
    cases ho : s.hostOpen with
    | false => exact .inl (by simp)
    | true =>
      cases ht : s.tryWrite d with
      | none => exact .inl (by simp)
      | some t => exact .inr ⟨by simpa using h, by simp⟩

/-- A tag of home memory that is set or cleared leaves memory and the tag sets canonical. -/
theorem memInv_setTag {s : State} (map a : Nat) (t : Bool) (h : MemInv s) : MemInv (s.setTag map a t) := h
theorem arrInv_setTag {s : State} (map a : Nat) (t : Bool) (h : ArrInv s) : ArrInv (s.setTag map a t) :=
  ⟨h.1, putTag_wf _ _ h.2.1, h.2.2⟩

/-! ### The shape of a step -/

/-- A step is an event of the agenda (a word there is dropped), the current context's turn, or what happens between
turns. -/
theorem step_cases {s t : State} (h : step s = .next t) :
    (∃ e r, s.agenda = e :: r ∧ ((e.isWord = true ∧ t = { s with agenda := r }) ∨
      (e.isWord = false ∧ exec e { s with agenda := r } = .next t))) ∨
    (s.agenda = [] ∧ s.acted = true ∧ s.progress = .next t) ∨
    (s.agenda = [] ∧ s.acted = false ∧ ∃ u, s.turn = .next u ∧ t = { u with acted := true }) := by
  unfold step at h
  split at h
  · next e r he =>
    refine .inl ⟨e, r, he, ?_⟩
    split at h
    · next hw => exact .inl ⟨hw, by cases h; rfl⟩
    · next hw => exact .inr ⟨by simpa using hw, h⟩
  · next he =>
    split at h
    · next ha => exact .inr (.inl ⟨he, ha, h⟩)
    · next ha =>
      refine .inr (.inr ⟨he, by simpa using ha, ?_⟩)
      split at h
      · next u hu => exact ⟨u, hu, by cases h; rfl⟩
      · cases h
      · cases h

/-- The words of a bundle act one after the other until one traps. -/
theorem runWords_cons {i : Instr} {r : List Instr} {s t : State} (h : runWords (i :: r) s = .next t) :
    ∃ u, exec i (s.arrayTurn i) = .next u ∧ ((u.ctx.bun.trap.isSome = true ∧ t = u) ∨
      (u.ctx.bun.trap.isSome = false ∧ runWords r u = .next t)) := by
  unfold runWords at h
  split at h
  · next u hu =>
    refine ⟨u, hu, ?_⟩
    split at h
    · next hs => exact .inl ⟨hs, by cases h; rfl⟩
    · next hs => exact .inr ⟨by simpa using hs, h⟩
  · cases h
  · cases h

end Sys2Proof.Laws
end

