-- ==== Sys2Proof/Laws/PerInstr.lean ====
section
/-! SUPPORT. Per-instruction lemmas: the word that `encode` gives has a clear stop bit (R62), so a bundle's framing is the
assembler's alone. -/

namespace Sys2Proof.Laws

open Sys2Proof

/-- A word made of unit, opcode and fields has a clear stop bit. -/
theorem stopBit_mkWord (u : UnitId) (op : BitVec 6) (x : BitVec 22) : stopBit (mkWord u op x) = false := by
  unfold stopBit mkWord
  simp only [BitVec.getLsbD_append]
  rfl

/-- An event has no word and gives zero. -/
theorem stopBit_zero : stopBit 0 = false := by decide

/-- The encoding of an instruction has a clear stop bit. -/
def StopClear.Statement (i : Instr) : Prop := stopBit (encode i) = false

theorem StopClear.nop (x0 : _) : StopClear.Statement (.nop x0) := stopBit_mkWord _ _ _
theorem StopClear.bra (x0 : _) (x1 : _) (x2 : _) : StopClear.Statement (.bra x0 x1 x2) := stopBit_mkWord _ _ _
theorem StopClear.br (x0 : _) (x1 : _) (x2 : _) : StopClear.Statement (.br x0 x1 x2) := stopBit_mkWord _ _ _
theorem StopClear.call (x0 : _) (x1 : _) (x2 : _) : StopClear.Statement (.call x0 x1 x2) := stopBit_mkWord _ _ _
theorem StopClear.ret (x0 : _) (x1 : _) : StopClear.Statement (.ret x0 x1) := stopBit_mkWord _ _ _
theorem StopClear.lset (x0 : _) (x1 : _) (x2 : _) : StopClear.Statement (.lset x0 x1 x2) := stopBit_mkWord _ _ _
theorem StopClear.lend (x0 : _) (x1 : _) : StopClear.Statement (.lend x0 x1) := stopBit_mkWord _ _ _
theorem StopClear.pand (x0 : _) (x1 : _) (x2 : _) : StopClear.Statement (.pand x0 x1 x2) := stopBit_mkWord _ _ _
theorem StopClear.por (x0 : _) (x1 : _) (x2 : _) : StopClear.Statement (.por x0 x1 x2) := stopBit_mkWord _ _ _
theorem StopClear.pxor (x0 : _) (x1 : _) (x2 : _) : StopClear.Statement (.pxor x0 x1 x2) := stopBit_mkWord _ _ _
theorem StopClear.pnot (x0 : _) (x1 : _) : StopClear.Statement (.pnot x0 x1) := stopBit_mkWord _ _ _
theorem StopClear.pset (x0 : _) (x1 : _) (x2 : _) (x3 : _) : StopClear.Statement (.pset x0 x1 x2 x3) := stopBit_mkWord _ _ _
theorem StopClear.wanyTest (x0 : _) (x1 : _) : StopClear.Statement (.wanyTest x0 x1) := stopBit_mkWord _ _ _
theorem StopClear.wanyWait (x0 : _) : StopClear.Statement (.wanyWait x0) := stopBit_mkWord _ _ _
theorem StopClear.wallTest (x0 : _) (x1 : _) : StopClear.Statement (.wallTest x0 x1) := stopBit_mkWord _ _ _
theorem StopClear.wallWait (x0 : _) : StopClear.Statement (.wallWait x0) := stopBit_mkWord _ _ _
theorem StopClear.ffd (x0 : _) (x1 : _) : StopClear.Statement (.ffd x0 x1) := stopBit_mkWord _ _ _
theorem StopClear.dclr (x0 : _) : StopClear.Statement (.dclr x0) := stopBit_mkWord _ _ _
theorem StopClear.bar (x0 : _) (x1 : _) (x2 : _) : StopClear.Statement (.bar x0 x1 x2) := stopBit_mkWord _ _ _
theorem StopClear.susp (x0 : _) (x1 : _) (x2 : _) : StopClear.Statement (.susp x0 x1 x2) := stopBit_mkWord _ _ _
theorem StopClear.pick : StopClear.Statement (.pick) := stopBit_mkWord _ _ _
theorem StopClear.spawn : StopClear.Statement (.spawn) := stopBit_mkWord _ _ _
theorem StopClear.join (x0 : _) : StopClear.Statement (.join x0) := stopBit_mkWord _ _ _
theorem StopClear.joinL : StopClear.Statement (.joinL) := stopBit_mkWord _ _ _
theorem StopClear.yield (x0 : _) : StopClear.Statement (.yield x0) := stopBit_mkWord _ _ _
theorem StopClear.trap (x0 : _) (x1 : _) (x2 : _) (x3 : _) : StopClear.Statement (.trap x0 x1 x2 x3) := stopBit_mkWord _ _ _
theorem StopClear.rett : StopClear.Statement (.rett) := stopBit_mkWord _ _ _
theorem StopClear.rettSkip : StopClear.Statement (.rettSkip) := stopBit_mkWord _ _ _
theorem StopClear.rettGoto (x0 : _) : StopClear.Statement (.rettGoto x0) := stopBit_mkWord _ _ _
theorem StopClear.rettAbort : StopClear.Statement (.rettAbort) := stopBit_mkWord _ _ _
theorem StopClear.halt : StopClear.Statement (.halt) := stopBit_mkWord _ _ _
theorem StopClear.stepmark (x0 : _) : StopClear.Statement (.stepmark x0) := stopBit_mkWord _ _ _
theorem StopClear.sysr (x0 : _) (x1 : _) : StopClear.Statement (.sysr x0 x1) := stopBit_mkWord _ _ _
theorem StopClear.sysw (x0 : _) (x1 : _) : StopClear.Statement (.sysw x0 x1) := stopBit_mkWord _ _ _
theorem StopClear.aadd (x0 : _) (x1 : _) (x2 : _) : StopClear.Statement (.aadd x0 x1 x2) := stopBit_mkWord _ _ _
theorem StopClear.asub (x0 : _) (x1 : _) (x2 : _) : StopClear.Statement (.asub x0 x1 x2) := stopBit_mkWord _ _ _
theorem StopClear.ashl (x0 : _) (x1 : _) (x2 : _) : StopClear.Statement (.ashl x0 x1 x2) := stopBit_mkWord _ _ _
theorem StopClear.ashr (x0 : _) (x1 : _) (x2 : _) : StopClear.Statement (.ashr x0 x1 x2) := stopBit_mkWord _ _ _
theorem StopClear.aand (x0 : _) (x1 : _) (x2 : _) : StopClear.Statement (.aand x0 x1 x2) := stopBit_mkWord _ _ _
theorem StopClear.aor (x0 : _) (x1 : _) (x2 : _) : StopClear.Statement (.aor x0 x1 x2) := stopBit_mkWord _ _ _
theorem StopClear.aaddi (x0 : _) (x1 : _) (x2 : _) : StopClear.Statement (.aaddi x0 x1 x2) := stopBit_mkWord _ _ _
theorem StopClear.amovi (x0 : _) (x1 : _) : StopClear.Statement (.amovi x0 x1) := stopBit_mkWord _ _ _
theorem StopClear.amovh (x0 : _) (x1 : _) : StopClear.Statement (.amovh x0 x1) := stopBit_mkWord _ _ _
theorem StopClear.acmp (x0 : _) (x1 : _) (x2 : _) (x3 : _) : StopClear.Statement (.acmp x0 x1 x2 x3) := stopBit_mkWord _ _ _
theorem StopClear.cmov (x0 : _) (x1 : _) : StopClear.Statement (.cmov x0 x1) := stopBit_mkWord _ _ _
theorem StopClear.cclr (x0 : _) (x1 : _) : StopClear.Statement (.cclr x0 x1) := stopBit_mkWord _ _ _
theorem StopClear.ccur (x0 : _) (x1 : _) (x2 : _) : StopClear.Statement (.ccur x0 x1 x2) := stopBit_mkWord _ _ _
theorem StopClear.cinc (x0 : _) (x1 : _) (x2 : _) : StopClear.Statement (.cinc x0 x1 x2) := stopBit_mkWord _ _ _
theorem StopClear.cbnd (x0 : _) (x1 : _) (x2 : _) : StopClear.Statement (.cbnd x0 x1 x2) := stopBit_mkWord _ _ _
theorem StopClear.cbndr (x0 : _) (x1 : _) (x2 : _) : StopClear.Statement (.cbndr x0 x1 x2) := stopBit_mkWord _ _ _
theorem StopClear.cperm (x0 : _) (x1 : _) (x2 : _) : StopClear.Statement (.cperm x0 x1 x2) := stopBit_mkWord _ _ _
theorem StopClear.cget (x0 : _) (x1 : _) (x2 : _) : StopClear.Statement (.cget x0 x1 x2) := stopBit_mkWord _ _ _
theorem StopClear.ctag (x0 : _) (x1 : _) (x2 : _) : StopClear.Statement (.ctag x0 x1 x2) := stopBit_mkWord _ _ _
theorem StopClear.crev (x0 : _) (x1 : _) : StopClear.Statement (.crev x0 x1) := stopBit_mkWord _ _ _
theorem StopClear.jmpc (x0 : _) : StopClear.Statement (.jmpc x0) := stopBit_mkWord _ _ _
theorem StopClear.callc (x0 : _) : StopClear.Statement (.callc x0) := stopBit_mkWord _ _ _
theorem StopClear.ldA (x0 : _) (x1 : _) (x2 : _) (x3 : _) : StopClear.Statement (.ldA x0 x1 x2 x3) := stopBit_mkWord _ _ _
theorem StopClear.ldI (x0 : _) (x1 : _) (x2 : _) (x3 : _) : StopClear.Statement (.ldI x0 x1 x2 x3) := stopBit_mkWord _ _ _
theorem StopClear.stA (x0 : _) (x1 : _) (x2 : _) (x3 : _) : StopClear.Statement (.stA x0 x1 x2 x3) := stopBit_mkWord _ _ _
theorem StopClear.stI (x0 : _) (x1 : _) (x2 : _) (x3 : _) : StopClear.Statement (.stI x0 x1 x2 x3) := stopBit_mkWord _ _ _
theorem StopClear.vldVA (x0 : _) (x1 : _) (x2 : _) (x3 : _) : StopClear.Statement (.vldVA x0 x1 x2 x3) := stopBit_mkWord _ _ _
theorem StopClear.vldVB (x0 : _) (x1 : _) (x2 : _) (x3 : _) : StopClear.Statement (.vldVB x0 x1 x2 x3) := stopBit_mkWord _ _ _
theorem StopClear.vstVA (x0 : _) (x1 : _) (x2 : _) (x3 : _) : StopClear.Statement (.vstVA x0 x1 x2 x3) := stopBit_mkWord _ _ _
theorem StopClear.vstVB (x0 : _) (x1 : _) (x2 : _) (x3 : _) : StopClear.Statement (.vstVB x0 x1 x2 x3) := stopBit_mkWord _ _ _
theorem StopClear.vldgVA (x0 : _) (x1 : _) (x2 : _) (x3 : _) : StopClear.Statement (.vldgVA x0 x1 x2 x3) := stopBit_mkWord _ _ _
theorem StopClear.vldgVB (x0 : _) (x1 : _) (x2 : _) (x3 : _) : StopClear.Statement (.vldgVB x0 x1 x2 x3) := stopBit_mkWord _ _ _
theorem StopClear.vstsVA (x0 : _) (x1 : _) (x2 : _) (x3 : _) : StopClear.Statement (.vstsVA x0 x1 x2 x3) := stopBit_mkWord _ _ _
theorem StopClear.vstsVB (x0 : _) (x1 : _) (x2 : _) (x3 : _) : StopClear.Statement (.vstsVB x0 x1 x2 x3) := stopBit_mkWord _ _ _
theorem StopClear.lcap (x0 : _) (x1 : _) (x2 : _) : StopClear.Statement (.lcap x0 x1 x2) := stopBit_mkWord _ _ _
theorem StopClear.scap (x0 : _) (x1 : _) (x2 : _) : StopClear.Statement (.scap x0 x1 x2) := stopBit_mkWord _ _ _
theorem StopClear.cas (x0 : _) (x1 : _) (x2 : _) (x3 : _) (x4 : _) : StopClear.Statement (.cas x0 x1 x2 x3 x4) := stopBit_mkWord _ _ _
theorem StopClear.fence (x0 : _) (x1 : _) : StopClear.Statement (.fence x0 x1) := stopBit_mkWord _ _ _
theorem StopClear.amoAdd (x0 : _) (x1 : _) (x2 : _) (x3 : _) (x4 : _) (x5 : _) : StopClear.Statement (.amoAdd x0 x1 x2 x3 x4 x5) := stopBit_mkWord _ _ _
theorem StopClear.amoAnd (x0 : _) (x1 : _) (x2 : _) (x3 : _) (x4 : _) (x5 : _) : StopClear.Statement (.amoAnd x0 x1 x2 x3 x4 x5) := stopBit_mkWord _ _ _
theorem StopClear.amoOr (x0 : _) (x1 : _) (x2 : _) (x3 : _) (x4 : _) (x5 : _) : StopClear.Statement (.amoOr x0 x1 x2 x3 x4 x5) := stopBit_mkWord _ _ _
theorem StopClear.amoXor (x0 : _) (x1 : _) (x2 : _) (x3 : _) (x4 : _) (x5 : _) : StopClear.Statement (.amoXor x0 x1 x2 x3 x4 x5) := stopBit_mkWord _ _ _
theorem StopClear.amoSwap (x0 : _) (x1 : _) (x2 : _) (x3 : _) (x4 : _) (x5 : _) : StopClear.Statement (.amoSwap x0 x1 x2 x3 x4 x5) := stopBit_mkWord _ _ _
theorem StopClear.amoMin (x0 : _) (x1 : _) (x2 : _) (x3 : _) (x4 : _) (x5 : _) : StopClear.Statement (.amoMin x0 x1 x2 x3 x4 x5) := stopBit_mkWord _ _ _
theorem StopClear.amoMax (x0 : _) (x1 : _) (x2 : _) (x3 : _) (x4 : _) (x5 : _) : StopClear.Statement (.amoMax x0 x1 x2 x3 x4 x5) := stopBit_mkWord _ _ _
theorem StopClear.amoWsadd (x0 : _) (x1 : _) (x2 : _) (x3 : _) (x4 : _) : StopClear.Statement (.amoWsadd x0 x1 x2 x3 x4) := stopBit_mkWord _ _ _
theorem StopClear.tclrReg (x0 : _) (x1 : _) : StopClear.Statement (.tclrReg x0 x1) := stopBit_mkWord _ _ _
theorem StopClear.tclrPath (x0 : _) : StopClear.Statement (.tclrPath x0) := stopBit_mkWord _ _ _
theorem StopClear.tclrCap (x0 : _) : StopClear.Statement (.tclrCap x0) := stopBit_mkWord _ _ _
theorem StopClear.tdepReg (x0 : _) (x1 : _) (x2 : _) : StopClear.Statement (.tdepReg x0 x1 x2) := stopBit_mkWord _ _ _
theorem StopClear.tdepPath (x0 : _) (x1 : _) : StopClear.Statement (.tdepPath x0 x1) := stopBit_mkWord _ _ _
theorem StopClear.tdepCap (x0 : _) (x1 : _) : StopClear.Statement (.tdepCap x0 x1) := stopBit_mkWord _ _ _
theorem StopClear.xput (x0 : _) (x1 : _) (x2 : _) (x3 : _) : StopClear.Statement (.xput x0 x1 x2 x3) := stopBit_mkWord _ _ _
theorem StopClear.keep (x0 : _) (x1 : _) : StopClear.Statement (.keep x0 x1) := stopBit_mkWord _ _ _
theorem StopClear.keepW32 (x0 : _) (x1 : _) : StopClear.Statement (.keepW32 x0 x1) := stopBit_mkWord _ _ _
theorem StopClear.keepW64 (x0 : _) (x1 : _) : StopClear.Statement (.keepW64 x0 x1) := stopBit_mkWord _ _ _
theorem StopClear.xlat (x0 : _) (x1 : _) (x2 : _) : StopClear.Statement (.xlat x0 x1 x2) := stopBit_mkWord _ _ _
theorem StopClear.xrel (x0 : _) : StopClear.Statement (.xrel x0) := stopBit_mkWord _ _ _
theorem StopClear.xrelRd (x0 : _) (x1 : _) : StopClear.Statement (.xrelRd x0 x1) := stopBit_mkWord _ _ _
theorem StopClear.add (x0 : _) (x1 : _) (x2 : _) (x3 : _) : StopClear.Statement (.add x0 x1 x2 x3) := stopBit_mkWord _ _ _
theorem StopClear.sub (x0 : _) (x1 : _) (x2 : _) (x3 : _) : StopClear.Statement (.sub x0 x1 x2 x3) := stopBit_mkWord _ _ _
theorem StopClear.mul (x0 : _) (x1 : _) (x2 : _) (x3 : _) : StopClear.Statement (.mul x0 x1 x2 x3) := stopBit_mkWord _ _ _
theorem StopClear.and (x0 : _) (x1 : _) (x2 : _) (x3 : _) : StopClear.Statement (.and x0 x1 x2 x3) := stopBit_mkWord _ _ _
theorem StopClear.or (x0 : _) (x1 : _) (x2 : _) (x3 : _) : StopClear.Statement (.or x0 x1 x2 x3) := stopBit_mkWord _ _ _
theorem StopClear.xor (x0 : _) (x1 : _) (x2 : _) (x3 : _) : StopClear.Statement (.xor x0 x1 x2 x3) := stopBit_mkWord _ _ _
theorem StopClear.andn (x0 : _) (x1 : _) (x2 : _) (x3 : _) : StopClear.Statement (.andn x0 x1 x2 x3) := stopBit_mkWord _ _ _
theorem StopClear.shl (x0 : _) (x1 : _) (x2 : _) (x3 : _) : StopClear.Statement (.shl x0 x1 x2 x3) := stopBit_mkWord _ _ _
theorem StopClear.shr (x0 : _) (x1 : _) (x2 : _) (x3 : _) : StopClear.Statement (.shr x0 x1 x2 x3) := stopBit_mkWord _ _ _
theorem StopClear.sar (x0 : _) (x1 : _) (x2 : _) (x3 : _) : StopClear.Statement (.sar x0 x1 x2 x3) := stopBit_mkWord _ _ _
theorem StopClear.rot (x0 : _) (x1 : _) (x2 : _) (x3 : _) : StopClear.Statement (.rot x0 x1 x2 x3) := stopBit_mkWord _ _ _
theorem StopClear.sel (x0 : _) (x1 : _) (x2 : _) (x3 : _) : StopClear.Statement (.sel x0 x1 x2 x3) := stopBit_mkWord _ _ _
theorem StopClear.mulh (x0 : _) (x1 : _) (x2 : _) (x3 : _) : StopClear.Statement (.mulh x0 x1 x2 x3) := stopBit_mkWord _ _ _
theorem StopClear.min (x0 : _) (x1 : _) (x2 : _) (x3 : _) : StopClear.Statement (.min x0 x1 x2 x3) := stopBit_mkWord _ _ _
theorem StopClear.max (x0 : _) (x1 : _) (x2 : _) (x3 : _) : StopClear.Statement (.max x0 x1 x2 x3) := stopBit_mkWord _ _ _
theorem StopClear.addSat (x0 : _) (x1 : _) (x2 : _) (x3 : _) : StopClear.Statement (.addSat x0 x1 x2 x3) := stopBit_mkWord _ _ _
theorem StopClear.subSat (x0 : _) (x1 : _) (x2 : _) (x3 : _) : StopClear.Statement (.subSat x0 x1 x2 x3) := stopBit_mkWord _ _ _
theorem StopClear.mulSat (x0 : _) (x1 : _) (x2 : _) (x3 : _) : StopClear.Statement (.mulSat x0 x1 x2 x3) := stopBit_mkWord _ _ _
theorem StopClear.shlSat (x0 : _) (x1 : _) (x2 : _) (x3 : _) : StopClear.Statement (.shlSat x0 x1 x2 x3) := stopBit_mkWord _ _ _
theorem StopClear.div (x0 : _) (x1 : _) (x2 : _) (x3 : _) : StopClear.Statement (.div x0 x1 x2 x3) := stopBit_mkWord _ _ _
theorem StopClear.rem (x0 : _) (x1 : _) (x2 : _) (x3 : _) : StopClear.Statement (.rem x0 x1 x2 x3) := stopBit_mkWord _ _ _
theorem StopClear.divSat (x0 : _) (x1 : _) (x2 : _) (x3 : _) : StopClear.Statement (.divSat x0 x1 x2 x3) := stopBit_mkWord _ _ _
theorem StopClear.addi (x0 : _) (x1 : _) (x2 : _) : StopClear.Statement (.addi x0 x1 x2) := stopBit_mkWord _ _ _
theorem StopClear.movi (x0 : _) (x1 : _) : StopClear.Statement (.movi x0 x1) := stopBit_mkWord _ _ _
theorem StopClear.movh (x0 : _) (x1 : _) : StopClear.Statement (.movh x0 x1) := stopBit_mkWord _ _ _
theorem StopClear.clz (x0 : _) (x1 : _) (x2 : _) : StopClear.Statement (.clz x0 x1 x2) := stopBit_mkWord _ _ _
theorem StopClear.ctz (x0 : _) (x1 : _) (x2 : _) : StopClear.Statement (.ctz x0 x1 x2) := stopBit_mkWord _ _ _
theorem StopClear.popc (x0 : _) (x1 : _) (x2 : _) : StopClear.Statement (.popc x0 x1 x2) := stopBit_mkWord _ _ _
theorem StopClear.cmp (x0 : _) (x1 : _) (x2 : _) (x3 : _) (x4 : _) : StopClear.Statement (.cmp x0 x1 x2 x3 x4) := stopBit_mkWord _ _ _
theorem StopClear.ext (x0 : _) (x1 : _) (x2 : _) : StopClear.Statement (.ext x0 x1 x2) := stopBit_mkWord _ _ _
theorem StopClear.bfx (x0 : _) (x1 : _) (x2 : _) (x3 : _) : StopClear.Statement (.bfx x0 x1 x2 x3) := stopBit_mkWord _ _ _
theorem StopClear.bfi (x0 : _) (x1 : _) (x2 : _) : StopClear.Statement (.bfi x0 x1 x2) := stopBit_mkWord _ _ _
theorem StopClear.fadd (x0 : _) (x1 : _) (x2 : _) (x3 : _) : StopClear.Statement (.fadd x0 x1 x2 x3) := stopBit_mkWord _ _ _
theorem StopClear.fsub (x0 : _) (x1 : _) (x2 : _) (x3 : _) : StopClear.Statement (.fsub x0 x1 x2 x3) := stopBit_mkWord _ _ _
theorem StopClear.fmul (x0 : _) (x1 : _) (x2 : _) (x3 : _) : StopClear.Statement (.fmul x0 x1 x2 x3) := stopBit_mkWord _ _ _
theorem StopClear.ffma (x0 : _) (x1 : _) (x2 : _) (x3 : _) : StopClear.Statement (.ffma x0 x1 x2 x3) := stopBit_mkWord _ _ _
theorem StopClear.fmin (x0 : _) (x1 : _) (x2 : _) (x3 : _) : StopClear.Statement (.fmin x0 x1 x2 x3) := stopBit_mkWord _ _ _
theorem StopClear.fmax (x0 : _) (x1 : _) (x2 : _) (x3 : _) : StopClear.Statement (.fmax x0 x1 x2 x3) := stopBit_mkWord _ _ _
theorem StopClear.fcmp (x0 : _) (x1 : _) (x2 : _) (x3 : _) : StopClear.Statement (.fcmp x0 x1 x2 x3) := stopBit_mkWord _ _ _
theorem StopClear.fdiv (x0 : _) (x1 : _) (x2 : _) (x3 : _) : StopClear.Statement (.fdiv x0 x1 x2 x3) := stopBit_mkWord _ _ _
theorem StopClear.fsqrt (x0 : _) (x1 : _) (x2 : _) : StopClear.Statement (.fsqrt x0 x1 x2) := stopBit_mkWord _ _ _
theorem StopClear.fcvt (x0 : _) (x1 : _) (x2 : _) (x3 : _) (x4 : _) : StopClear.Statement (.fcvt x0 x1 x2 x3 x4) := stopBit_mkWord _ _ _
theorem StopClear.vadd (x0 : _) (x1 : _) (x2 : _) (x3 : _) (x4 : _) : StopClear.Statement (.vadd x0 x1 x2 x3 x4) := stopBit_mkWord _ _ _
theorem StopClear.vsub (x0 : _) (x1 : _) (x2 : _) (x3 : _) (x4 : _) : StopClear.Statement (.vsub x0 x1 x2 x3 x4) := stopBit_mkWord _ _ _
theorem StopClear.vmul (x0 : _) (x1 : _) (x2 : _) (x3 : _) (x4 : _) : StopClear.Statement (.vmul x0 x1 x2 x3 x4) := stopBit_mkWord _ _ _
theorem StopClear.vaddSat (x0 : _) (x1 : _) (x2 : _) (x3 : _) (x4 : _) : StopClear.Statement (.vaddSat x0 x1 x2 x3 x4) := stopBit_mkWord _ _ _
theorem StopClear.vsubSat (x0 : _) (x1 : _) (x2 : _) (x3 : _) (x4 : _) : StopClear.Statement (.vsubSat x0 x1 x2 x3 x4) := stopBit_mkWord _ _ _
theorem StopClear.vfma (x0 : _) (x1 : _) (x2 : _) (x3 : _) (x4 : _) : StopClear.Statement (.vfma x0 x1 x2 x3 x4) := stopBit_mkWord _ _ _
theorem StopClear.vfms (x0 : _) (x1 : _) (x2 : _) (x3 : _) (x4 : _) : StopClear.Statement (.vfms x0 x1 x2 x3 x4) := stopBit_mkWord _ _ _
theorem StopClear.vnfma (x0 : _) (x1 : _) (x2 : _) (x3 : _) (x4 : _) : StopClear.Statement (.vnfma x0 x1 x2 x3 x4) := stopBit_mkWord _ _ _
theorem StopClear.vdivFp (x0 : _) (x1 : _) (x2 : _) (x3 : _) (x4 : _) : StopClear.Statement (.vdivFp x0 x1 x2 x3 x4) := stopBit_mkWord _ _ _
theorem StopClear.vsqrt (x0 : _) (x1 : _) (x2 : _) (x3 : _) : StopClear.Statement (.vsqrt x0 x1 x2 x3) := stopBit_mkWord _ _ _
theorem StopClear.vdivInt (x0 : _) (x1 : _) (x2 : _) (x3 : _) (x4 : _) : StopClear.Statement (.vdivInt x0 x1 x2 x3 x4) := stopBit_mkWord _ _ _
theorem StopClear.vdivSat (x0 : _) (x1 : _) (x2 : _) (x3 : _) (x4 : _) : StopClear.Statement (.vdivSat x0 x1 x2 x3 x4) := stopBit_mkWord _ _ _
theorem StopClear.vrcpe (x0 : _) (x1 : _) (x2 : _) (x3 : _) : StopClear.Statement (.vrcpe x0 x1 x2 x3) := stopBit_mkWord _ _ _
theorem StopClear.vrsqe (x0 : _) (x1 : _) (x2 : _) (x3 : _) : StopClear.Statement (.vrsqe x0 x1 x2 x3) := stopBit_mkWord _ _ _
theorem StopClear.vminFp (x0 : _) (x1 : _) (x2 : _) (x3 : _) (x4 : _) : StopClear.Statement (.vminFp x0 x1 x2 x3 x4) := stopBit_mkWord _ _ _
theorem StopClear.vmaxFp (x0 : _) (x1 : _) (x2 : _) (x3 : _) (x4 : _) : StopClear.Statement (.vmaxFp x0 x1 x2 x3 x4) := stopBit_mkWord _ _ _
theorem StopClear.vminInt (x0 : _) (x1 : _) (x2 : _) (x3 : _) (x4 : _) : StopClear.Statement (.vminInt x0 x1 x2 x3 x4) := stopBit_mkWord _ _ _
theorem StopClear.vmaxInt (x0 : _) (x1 : _) (x2 : _) (x3 : _) (x4 : _) : StopClear.Statement (.vmaxInt x0 x1 x2 x3 x4) := stopBit_mkWord _ _ _
theorem StopClear.vabs (x0 : _) (x1 : _) (x2 : _) (x3 : _) : StopClear.Statement (.vabs x0 x1 x2 x3) := stopBit_mkWord _ _ _
theorem StopClear.vneg (x0 : _) (x1 : _) (x2 : _) (x3 : _) : StopClear.Statement (.vneg x0 x1 x2 x3) := stopBit_mkWord _ _ _
theorem StopClear.vand (x0 : _) (x1 : _) (x2 : _) (x3 : _) (x4 : _) : StopClear.Statement (.vand x0 x1 x2 x3 x4) := stopBit_mkWord _ _ _
theorem StopClear.vor (x0 : _) (x1 : _) (x2 : _) (x3 : _) (x4 : _) : StopClear.Statement (.vor x0 x1 x2 x3 x4) := stopBit_mkWord _ _ _
theorem StopClear.vxor (x0 : _) (x1 : _) (x2 : _) (x3 : _) (x4 : _) : StopClear.Statement (.vxor x0 x1 x2 x3 x4) := stopBit_mkWord _ _ _
theorem StopClear.vshl (x0 : _) (x1 : _) (x2 : _) (x3 : _) (x4 : _) : StopClear.Statement (.vshl x0 x1 x2 x3 x4) := stopBit_mkWord _ _ _
theorem StopClear.vshr (x0 : _) (x1 : _) (x2 : _) (x3 : _) (x4 : _) : StopClear.Statement (.vshr x0 x1 x2 x3 x4) := stopBit_mkWord _ _ _
theorem StopClear.vsar (x0 : _) (x1 : _) (x2 : _) (x3 : _) (x4 : _) : StopClear.Statement (.vsar x0 x1 x2 x3 x4) := stopBit_mkWord _ _ _
theorem StopClear.vnot (x0 : _) (x1 : _) (x2 : _) (x3 : _) : StopClear.Statement (.vnot x0 x1 x2 x3) := stopBit_mkWord _ _ _
theorem StopClear.vcmpFp (x0 : _) (x1 : _) (x2 : _) (x3 : _) (x4 : _) (x5 : _) : StopClear.Statement (.vcmpFp x0 x1 x2 x3 x4 x5) := stopBit_mkWord _ _ _
theorem StopClear.vcmpInt (x0 : _) (x1 : _) (x2 : _) (x3 : _) (x4 : _) (x5 : _) : StopClear.Statement (.vcmpInt x0 x1 x2 x3 x4 x5) := stopBit_mkWord _ _ _
theorem StopClear.vsel (x0 : _) (x1 : _) (x2 : _) (x3 : _) (x4 : _) : StopClear.Statement (.vsel x0 x1 x2 x3 x4) := stopBit_mkWord _ _ _
theorem StopClear.vmand (x0 : _) (x1 : _) (x2 : _) (x3 : _) : StopClear.Statement (.vmand x0 x1 x2 x3) := stopBit_mkWord _ _ _
theorem StopClear.vmor (x0 : _) (x1 : _) (x2 : _) (x3 : _) : StopClear.Statement (.vmor x0 x1 x2 x3) := stopBit_mkWord _ _ _
theorem StopClear.vmnot (x0 : _) (x1 : _) (x2 : _) : StopClear.Statement (.vmnot x0 x1 x2) := stopBit_mkWord _ _ _
theorem StopClear.vmpop (x0 : _) (x1 : _) (x2 : _) : StopClear.Statement (.vmpop x0 x1 x2) := stopBit_mkWord _ _ _
theorem StopClear.vmff (x0 : _) (x1 : _) (x2 : _) : StopClear.Statement (.vmff x0 x1 x2) := stopBit_mkWord _ _ _
theorem StopClear.vmovi (x0 : _) (x1 : _) (x2 : _) : StopClear.Statement (.vmovi x0 x1 x2) := stopBit_mkWord _ _ _
theorem StopClear.vidx (x0 : _) (x1 : _) (x2 : _) (x3 : _) : StopClear.Statement (.vidx x0 x1 x2 x3) := stopBit_mkWord _ _ _
theorem StopClear.vbcast (x0 : _) (x1 : _) (x2 : _) (x3 : _) (x4 : _) : StopClear.Statement (.vbcast x0 x1 x2 x3 x4) := stopBit_mkWord _ _ _
theorem StopClear.vperm (x0 : _) (x1 : _) (x2 : _) (x3 : _) (x4 : _) : StopClear.Statement (.vperm x0 x1 x2 x3 x4) := stopBit_mkWord _ _ _
theorem StopClear.vrot (x0 : _) (x1 : _) (x2 : _) (x3 : _) (x4 : _) : StopClear.Statement (.vrot x0 x1 x2 x3 x4) := stopBit_mkWord _ _ _
theorem StopClear.vslideDn (x0 : _) (x1 : _) (x2 : _) (x3 : _) (x4 : _) : StopClear.Statement (.vslideDn x0 x1 x2 x3 x4) := stopBit_mkWord _ _ _
theorem StopClear.vslideUp (x0 : _) (x1 : _) (x2 : _) (x3 : _) (x4 : _) : StopClear.Statement (.vslideUp x0 x1 x2 x3 x4) := stopBit_mkWord _ _ _
theorem StopClear.vcvt (x0 : _) (x1 : _) (x2 : _) (x3 : _) (x4 : _) (x5 : _) (x6 : _) : StopClear.Statement (.vcvt x0 x1 x2 x3 x4 x5 x6) := stopBit_mkWord _ _ _
theorem StopClear.vpack (x0 : _) (x1 : _) (x2 : _) (x3 : _) (x4 : _) (x5 : _) (x6 : _) : StopClear.Statement (.vpack x0 x1 x2 x3 x4 x5 x6) := stopBit_mkWord _ _ _
theorem StopClear.vunpk (x0 : _) (x1 : _) (x2 : _) (x3 : _) (x4 : _) (x5 : _) (x6 : _) : StopClear.Statement (.vunpk x0 x1 x2 x3 x4 x5 x6) := stopBit_mkWord _ _ _
theorem StopClear.vredsum (x0 : _) (x1 : _) (x2 : _) (x3 : _) (x4 : _) : StopClear.Statement (.vredsum x0 x1 x2 x3 x4) := stopBit_mkWord _ _ _
theorem StopClear.vredsumSat (x0 : _) (x1 : _) (x2 : _) (x3 : _) (x4 : _) : StopClear.Statement (.vredsumSat x0 x1 x2 x3 x4) := stopBit_mkWord _ _ _
theorem StopClear.vredmaxFp (x0 : _) (x1 : _) (x2 : _) (x3 : _) (x4 : _) : StopClear.Statement (.vredmaxFp x0 x1 x2 x3 x4) := stopBit_mkWord _ _ _
theorem StopClear.vredminFp (x0 : _) (x1 : _) (x2 : _) (x3 : _) (x4 : _) : StopClear.Statement (.vredminFp x0 x1 x2 x3 x4) := stopBit_mkWord _ _ _
theorem StopClear.vredmaxInt (x0 : _) (x1 : _) (x2 : _) (x3 : _) (x4 : _) : StopClear.Statement (.vredmaxInt x0 x1 x2 x3 x4) := stopBit_mkWord _ _ _
theorem StopClear.vredminInt (x0 : _) (x1 : _) (x2 : _) (x3 : _) (x4 : _) : StopClear.Statement (.vredminInt x0 x1 x2 x3 x4) := stopBit_mkWord _ _ _
theorem StopClear.wsadd (x0 : _) (x1 : _) (x2 : _) (x3 : _) (x4 : _) : StopClear.Statement (.wsadd x0 x1 x2 x3 x4) := stopBit_mkWord _ _ _
theorem StopClear.wsrnd (x0 : _) (x1 : _) (x2 : _) (x3 : _) (x4 : _) : StopClear.Statement (.wsrnd x0 x1 x2 x3 x4) := stopBit_mkWord _ _ _
theorem StopClear.wsclr (x0 : _) (x1 : _) : StopClear.Statement (.wsclr x0 x1) := stopBit_mkWord _ _ _
theorem StopClear.wsmovW (x0 : _) (x1 : _) (x2 : _) : StopClear.Statement (.wsmovW x0 x1 x2) := stopBit_mkWord _ _ _
theorem StopClear.wsmovV (x0 : _) (x1 : _) (x2 : _) : StopClear.Statement (.wsmovV x0 x1 x2) := stopBit_mkWord _ _ _
theorem StopClear.wsmov (x0 : _) (x1 : _) (x2 : _) : StopClear.Statement (.wsmov x0 x1 x2) := stopBit_mkWord _ _ _
theorem StopClear.wsmovPop (x0 : _) (x1 : _) : StopClear.Statement (.wsmovPop x0 x1) := stopBit_mkWord _ _ _
theorem StopClear.kdef (x0 : _) (x1 : _) (x2 : _) (x3 : _) (x4 : _) (x5 : _) : StopClear.Statement (.kdef x0 x1 x2 x3 x4 x5) := stopBit_mkWord _ _ _
theorem StopClear.ktake (x0 : _) (x1 : _) (x2 : _) (x3 : _) (x4 : _) : StopClear.Statement (.ktake x0 x1 x2 x3 x4) := stopBit_mkWord _ _ _
theorem StopClear.kcnt (x0 : _) (x1 : _) (x2 : _) : StopClear.Statement (.kcnt x0 x1 x2) := stopBit_mkWord _ _ _
theorem StopClear.mpass (x0 : _) (x1 : _) (x2 : _) (x3 : _) (x4 : _) (x5 : _) : StopClear.Statement (.mpass x0 x1 x2 x3 x4 x5) := stopBit_mkWord _ _ _
theorem StopClear.mzero (x0 : _) (x1 : _) : StopClear.Statement (.mzero x0 x1) := stopBit_mkWord _ _ _
theorem StopClear.mread (x0 : _) (x1 : _) (x2 : _) (x3 : _) : StopClear.Statement (.mread x0 x1 x2 x3) := stopBit_mkWord _ _ _
theorem StopClear.mwrite (x0 : _) (x1 : _) (x2 : _) (x3 : _) : StopClear.Statement (.mwrite x0 x1 x2 x3) := stopBit_mkWord _ _ _
theorem StopClear.mstat (x0 : _) (x1 : _) : StopClear.Statement (.mstat x0 x1) := stopBit_mkWord _ _ _
theorem StopClear.msetBase (x0 : _) (x1 : _) : StopClear.Statement (.msetBase x0 x1) := stopBit_mkWord _ _ _
theorem StopClear.msetStride (x0 : _) (x1 : _) : StopClear.Statement (.msetStride x0 x1) := stopBit_mkWord _ _ _
theorem StopClear.msetFmt (x0 : _) (x1 : _) (x2 : _) (x3 : _) (x4 : _) : StopClear.Statement (.msetFmt x0 x1 x2 x3 x4) := stopBit_mkWord _ _ _
theorem StopClear.msetScale (x0 : _) (x1 : _) (x2 : _) (x3 : _) : StopClear.Statement (.msetScale x0 x1 x2 x3) := stopBit_mkWord _ _ _
theorem StopClear.gset (x0 : _) (x1 : _) : StopClear.Statement (.gset x0 x1) := stopBit_mkWord _ _ _
theorem StopClear.gsetAdd (x0 : _) (x1 : _) : StopClear.Statement (.gsetAdd x0 x1) := stopBit_mkWord _ _ _
theorem StopClear.sld (x0 : _) (x1 : _) : StopClear.Statement (.sld x0 x1) := stopBit_mkWord _ _ _
theorem StopClear.sset (x0 : _) (x1 : _) : StopClear.Statement (.sset x0 x1) := stopBit_mkWord _ _ _
theorem StopClear.fset (x0 : _) (x1 : _) (x2 : _) : StopClear.Statement (.fset x0 x1 x2) := stopBit_mkWord _ _ _
theorem StopClear.smov (x0 : _) (x1 : _) (x2 : _) : StopClear.Statement (.smov x0 x1 x2) := stopBit_mkWord _ _ _
theorem StopClear.sclr (x0 : _) (x1 : _) : StopClear.Statement (.sclr x0 x1) := stopBit_mkWord _ _ _
theorem StopClear.ksetW (x0 : _) (x1 : _) (x2 : _) : StopClear.Statement (.ksetW x0 x1 x2) := stopBit_mkWord _ _ _
theorem StopClear.ksetC (x0 : _) (x1 : _) (x2 : _) : StopClear.Statement (.ksetC x0 x1 x2) := stopBit_mkWord _ _ _
theorem StopClear.ksetBnd (x0 : _) (x1 : _) (x2 : _) : StopClear.Statement (.ksetBnd x0 x1 x2) := stopBit_mkWord _ _ _
theorem StopClear.ksetCur (x0 : _) (x1 : _) (x2 : _) : StopClear.Statement (.ksetCur x0 x1 x2) := stopBit_mkWord _ _ _
theorem StopClear.ksetLc (x0 : _) (x1 : _) (x2 : _) : StopClear.Statement (.ksetLc x0 x1 x2) := stopBit_mkWord _ _ _
theorem StopClear.ksetAdd (x0 : _) (x1 : _) (x2 : _) : StopClear.Statement (.ksetAdd x0 x1 x2) := stopBit_mkWord _ _ _
theorem StopClear.kcopy (x0 : _) (x1 : _) (x2 : _) (x3 : _) : StopClear.Statement (.kcopy x0 x1 x2 x3) := stopBit_mkWord _ _ _
theorem StopClear.kmc (x0 : _) (x1 : _) (x2 : _) (x3 : _) (x4 : _) : StopClear.Statement (.kmc x0 x1 x2 x3 x4) := stopBit_mkWord _ _ _
theorem StopClear.kfill (x0 : _) (x1 : _) (x2 : _) : StopClear.Statement (.kfill x0 x1 x2) := stopBit_mkWord _ _ _
theorem StopClear.kcoll (x0 : _) (x1 : _) (x2 : _) (x3 : _) (x4 : _) (x5 : _) : StopClear.Statement (.kcoll x0 x1 x2 x3 x4 x5) := stopBit_mkWord _ _ _
theorem StopClear.kpf (x0 : _) (x1 : _) : StopClear.Statement (.kpf x0 x1) := stopBit_mkWord _ _ _
theorem StopClear.kcan (x0 : _) : StopClear.Statement (.kcan x0) := stopBit_mkWord _ _ _
theorem StopClear.kstat (x0 : _) (x1 : _) (x2 : _) : StopClear.Statement (.kstat x0 x1 x2) := stopBit_mkWord _ _ _
theorem StopClear.asyncFaultTaken : StopClear.Statement (.asyncFaultTaken) := stopBit_zero
theorem StopClear.dueEntryVisible : StopClear.Statement (.dueEntryVisible) := stopBit_zero
theorem StopClear.fullEmptyResultArrive (x0 : _) : StopClear.Statement (.fullEmptyResultArrive x0) := stopBit_zero
theorem StopClear.yieldExpire : StopClear.Statement (.yieldExpire) := stopBit_zero
theorem StopClear.loadPerform (x0 : _) : StopClear.Statement (.loadPerform x0) := stopBit_zero
theorem StopClear.storePerform (x0 : _) : StopClear.Statement (.storePerform x0) := stopBit_zero
theorem StopClear.extentResident (x0 : _) (x1 : _) : StopClear.Statement (.extentResident x0 x1) := stopBit_zero
theorem StopClear.sideLogReplay : StopClear.Statement (.sideLogReplay) := stopBit_zero
theorem StopClear.extentFirstTouch (x0 : _) (x1 : _) : StopClear.Statement (.extentFirstTouch x0 x1) := stopBit_zero
theorem StopClear.extentMigrate (x0 : _) (x1 : _) (x2 : _) : StopClear.Statement (.extentMigrate x0 x1 x2) := stopBit_zero
theorem StopClear.accessCounterHalve : StopClear.Statement (.accessCounterHalve) := stopBit_zero
theorem StopClear.xlatHandleFill (x0 : _) : StopClear.Statement (.xlatHandleFill x0) := stopBit_zero
theorem StopClear.cardStart (x0 : _) : StopClear.Statement (.cardStart x0) := stopBit_zero
theorem StopClear.cardComplete (x0 : _) : StopClear.Statement (.cardComplete x0) := stopBit_zero
theorem StopClear.mOpStart : StopClear.Statement (.mOpStart) := stopBit_zero
theorem StopClear.mOpEnd : StopClear.Statement (.mOpEnd) := stopBit_zero
theorem StopClear.crevComplete : StopClear.Statement (.crevComplete) := stopBit_zero
theorem StopClear.spawnPerform (x0 : _) : StopClear.Statement (.spawnPerform x0) := stopBit_zero
theorem StopClear.joinPerform (x0 : _) : StopClear.Statement (.joinPerform x0) := stopBit_zero
theorem StopClear.poolHandover : StopClear.Statement (.poolHandover) := stopBit_zero
theorem StopClear.cmdTailWrite (x0 : _) (x1 : _) : StopClear.Statement (.cmdTailWrite x0 x1) := stopBit_zero
theorem StopClear.cmdCtlWrite (x0 : _) (x1 : _) : StopClear.Statement (.cmdCtlWrite x0 x1) := stopBit_zero
theorem StopClear.launch (x0 : _) : StopClear.Statement (.launch x0) := stopBit_zero
theorem StopClear.graph (x0 : _) : StopClear.Statement (.graph x0) := stopBit_zero
theorem StopClear.graphNodeStart (x0 : _) (x1 : _) : StopClear.Statement (.graphNodeStart x0 x1) := stopBit_zero
theorem StopClear.waitRecord (x0 : _) : StopClear.Statement (.waitRecord x0) := stopBit_zero
theorem StopClear.waitRecheck (x0 : _) : StopClear.Statement (.waitRecheck x0) := stopBit_zero
theorem StopClear.signal (x0 : _) : StopClear.Statement (.signal x0) := stopBit_zero
theorem StopClear.fenceRecord (x0 : _) : StopClear.Statement (.fenceRecord x0) := stopBit_zero
theorem StopClear.launchEnd (x0 : _) : StopClear.Statement (.launchEnd x0) := stopBit_zero
theorem StopClear.hangLimit (x0 : _) : StopClear.Statement (.hangLimit x0) := stopBit_zero
theorem StopClear.wallLimit (x0 : _) : StopClear.Statement (.wallLimit x0) := stopBit_zero
theorem StopClear.preemption (x0 : _) : StopClear.Statement (.preemption x0) := stopBit_zero
theorem StopClear.contextStop (x0 : _) : StopClear.Statement (.contextStop x0) := stopBit_zero
theorem StopClear.contextResume (x0 : _) (x1 : _) (x2 : _) (x3 : _) : StopClear.Statement (.contextResume x0 x1 x2 x3) := stopBit_zero
theorem StopClear.fatalFault : StopClear.Statement (.fatalFault) := stopBit_zero
theorem StopClear.abortTimeout (x0 : _) : StopClear.Statement (.abortTimeout x0) := stopBit_zero
theorem StopClear.sweepStart : StopClear.Statement (.sweepStart) := stopBit_zero
theorem StopClear.sweepCorePause : StopClear.Statement (.sweepCorePause) := stopBit_zero
theorem StopClear.sweepComplete : StopClear.Statement (.sweepComplete) := stopBit_zero
theorem StopClear.hostRead (x0 : _) : StopClear.Statement (.hostRead x0) := stopBit_zero
theorem StopClear.hostWrite (x0 : _) (x1 : _) : StopClear.Statement (.hostWrite x0 x1) := stopBit_zero
theorem StopClear.getTdispVersion (x0 : _) : StopClear.Statement (.getTdispVersion x0) := stopBit_zero
theorem StopClear.getTdispCapabilities (x0 : _) : StopClear.Statement (.getTdispCapabilities x0) := stopBit_zero
theorem StopClear.lockInterfaceRequest (x0 : _) : StopClear.Statement (.lockInterfaceRequest x0) := stopBit_zero
theorem StopClear.getDeviceInterfaceReport (x0 : _) : StopClear.Statement (.getDeviceInterfaceReport x0) := stopBit_zero
theorem StopClear.getDeviceInterfaceState (x0 : _) : StopClear.Statement (.getDeviceInterfaceState x0) := stopBit_zero
theorem StopClear.startInterfaceRequest (x0 : _) : StopClear.Statement (.startInterfaceRequest x0) := stopBit_zero
theorem StopClear.stopInterfaceRequest (x0 : _) : StopClear.Statement (.stopInterfaceRequest x0) := stopBit_zero
theorem StopClear.tdiError (x0 : _) (x1 : _) : StopClear.Statement (.tdiError x0 x1) := stopBit_zero
theorem StopClear.spdmRequest (x0 : _) (x1 : _) : StopClear.Statement (.spdmRequest x0 x1) := stopBit_zero
theorem StopClear.vendorDefinedRequest (x0 : _) (x1 : _) (x2 : _) : StopClear.Statement (.vendorDefinedRequest x0 x1 x2) := stopBit_zero
theorem StopClear.tokGo : StopClear.Statement (.tokGo) := stopBit_zero
theorem StopClear.lockedItemWrite (x0 : _) (x1 : _) (x2 : _) : StopClear.Statement (.lockedItemWrite x0 x1 x2) := stopBit_zero
theorem StopClear.migrationSend (x0 : _) : StopClear.Statement (.migrationSend x0) := stopBit_zero
theorem StopClear.migrationConfirm (x0 : _) (x1 : _) : StopClear.Statement (.migrationConfirm x0 x1) := stopBit_zero
theorem StopClear.retryWindowExpire (x0 : _) : StopClear.Statement (.retryWindowExpire x0) := stopBit_zero
theorem StopClear.reattestWindowExpire (x0 : _) : StopClear.Statement (.reattestWindowExpire x0) := stopBit_zero
theorem StopClear.flitCrcError (x0 : _) (x1 : _) : StopClear.Statement (.flitCrcError x0 x1) := stopBit_zero
theorem StopClear.linkDown (x0 : _) : StopClear.Statement (.linkDown x0) := stopBit_zero
theorem StopClear.peerMemoryRequest (x0 : _) : StopClear.Statement (.peerMemoryRequest x0) := stopBit_zero
theorem StopClear.pausedResponse (x0 : _) (x1 : _) : StopClear.Statement (.pausedResponse x0 x1) := stopBit_zero
theorem StopClear.resumed (x0 : _) : StopClear.Statement (.resumed x0) := stopBit_zero
theorem StopClear.memberMissing (x0 : _) (x1 : _) : StopClear.Statement (.memberMissing x0 x1) := stopBit_zero
theorem StopClear.waitlimExpire (x0 : _) (x1 : _) : StopClear.Statement (.waitlimExpire x0 x1) := stopBit_zero
theorem StopClear.collSegmentReceive (x0 : _) (x1 : _) (x2 : _) (x3 : _) (x4 : _) : StopClear.Statement (.collSegmentReceive x0 x1 x2 x3 x4) := stopBit_zero
theorem StopClear.resumeMember (x0 : _) (x1 : _) (x2 : _) (x3 : _) : StopClear.Statement (.resumeMember x0 x1 x2 x3) := stopBit_zero
theorem StopClear.collJobComplete (x0 : _) : StopClear.Statement (.collJobComplete x0) := stopBit_zero
theorem StopClear.collJobFault (x0 : _) (x1 : _) : StopClear.Statement (.collJobFault x0 x1) := stopBit_zero
theorem StopClear.kmcDestStop (x0 : _) (x1 : _) (x2 : _) : StopClear.Statement (.kmcDestStop x0 x1 x2) := stopBit_zero
theorem StopClear.brown : StopClear.Statement (.brown) := stopBit_zero
theorem StopClear.shedComplete (x0 : _) : StopClear.Statement (.shedComplete x0) := stopBit_zero
theorem StopClear.stackReturn : StopClear.Statement (.stackReturn) := stopBit_zero
theorem StopClear.brownoutEscalate (x0 : _) : StopClear.Statement (.brownoutEscalate x0) := stopBit_zero
theorem StopClear.pwrf (x0 : _) : StopClear.Statement (.pwrf x0) := stopBit_zero
theorem StopClear.rackingStop (x0 : _) : StopClear.Statement (.rackingStop x0) := stopBit_zero
theorem StopClear.powerUp : StopClear.Statement (.powerUp) := stopBit_zero
theorem StopClear.erestartReached (x0 : _) : StopClear.Statement (.erestartReached x0) := stopBit_zero
theorem StopClear.restartPwrf : StopClear.Statement (.restartPwrf) := stopBit_zero
theorem StopClear.phaseLoss (x0 : _) : StopClear.Statement (.phaseLoss x0) := stopBit_zero
theorem StopClear.thermalSample (x0 : _) (x1 : _) : StopClear.Statement (.thermalSample x0 x1) := stopBit_zero
theorem StopClear.patternChange (x0 : _) (x1 : _) : StopClear.Statement (.patternChange x0 x1) := stopBit_zero
theorem StopClear.thermalCut (x0 : _) : StopClear.Statement (.thermalCut x0) := stopBit_zero
theorem StopClear.hbmRefresh (x0 : _) (x1 : _) : StopClear.Statement (.hbmRefresh x0 x1) := stopBit_zero
theorem StopClear.frameZeroComplete (x0 : _) (x1 : _) : StopClear.Statement (.frameZeroComplete x0 x1) := stopBit_zero
theorem StopClear.correctedError (x0 : _) (x1 : _) (x2 : _) : StopClear.Statement (.correctedError x0 x1 x2) := stopBit_zero
theorem StopClear.journalEntryTimeout : StopClear.Statement (.journalEntryTimeout) := stopBit_zero
theorem StopClear.uncorrectableError (x0 : _) (x1 : _) (x2 : _) : StopClear.Statement (.uncorrectableError x0 x1 x2) := stopBit_zero
theorem StopClear.scrubPass (x0 : _) (x1 : _) (x2 : _) : StopClear.Statement (.scrubPass x0 x1 x2) := stopBit_zero
theorem StopClear.scrubrcpt (x0 : _) : StopClear.Statement (.scrubrcpt x0) := stopBit_zero
theorem StopClear.ejhead : StopClear.Statement (.ejhead) := stopBit_zero
theorem StopClear.journalTrim (x0 : _) : StopClear.Statement (.journalTrim x0) := stopBit_zero
theorem StopClear.restartReport : StopClear.Statement (.restartReport) := stopBit_zero
theorem StopClear.sweepRequest : StopClear.Statement (.sweepRequest) := stopBit_zero
theorem StopClear.fwUpdate (x0 : _) (x1 : _) (x2 : _) (x3 : _) : StopClear.Statement (.fwUpdate x0 x1 x2 x3) := stopBit_zero
theorem StopClear.fwHeartbeat : StopClear.Statement (.fwHeartbeat) := stopBit_zero
theorem StopClear.fwHeartbeatTimeout : StopClear.Statement (.fwHeartbeatTimeout) := stopBit_zero
theorem StopClear.registerWrite (x0 : _) (x1 : _) : StopClear.Statement (.registerWrite x0 x1) := stopBit_zero
theorem StopClear.droopCapChange (x0 : _) : StopClear.Statement (.droopCapChange x0) := stopBit_zero
theorem StopClear.linkUp (x0 : _) : StopClear.Statement (.linkUp x0) := stopBit_zero
theorem StopClear.linkLaneLost (x0 : _) (x1 : _) : StopClear.Statement (.linkLaneLost x0 x1) := stopBit_zero
theorem StopClear.memberStateReport (x0 : _) (x1 : _) (x2 : _) : StopClear.Statement (.memberStateReport x0 x1 x2) := stopBit_zero
theorem StopClear.sweepVisit (x0 : _) : StopClear.Statement (.sweepVisit x0) := stopBit_zero
theorem StopClear.bufferSpaceEntryWrite (x0 : _) (x1 : _) (x2 : _) : StopClear.Statement (.bufferSpaceEntryWrite x0 x1 x2) := stopBit_zero
theorem StopClear.powerLoss : StopClear.Statement (.powerLoss) := stopBit_zero
theorem StopClear.migrationImport (x0 : _) (x1 : _) : StopClear.Statement (.migrationImport x0 x1) := stopBit_zero

end Sys2Proof.Laws
end

