-- ==== Sys2Proof/Tests/Slice0.lean ====
section
/-! SUPPORT. Tests: ill-formed terms that the checks of WellFormed refuse, instruction words written out in the spec, one
step of small machines with results from the spec, and for every obligation a state and operands that meet its
hypotheses (`met_<Name>`). -/

namespace Sys2Proof.Tests

open Sys2Proof Sys2Proof.Machine Sys2Proof.Safety

set_option Elab.async false

/-! ### Ill-formed terms are refused, one for each check -/

theorem test_ill_source : (Instr.aadd 0 (.main 28 false) .zero).wellFormed = false := by decide
theorem test_ill_source_c : (Instr.pand 1 (.main 8 false) .zero).wellFormed = false ∧
    (Instr.br 0 false (.small 0)).wellFormed = false ∧ (Instr.dclr .queue).wellFormed = false := by decide
theorem test_ill_source_cap : (Instr.cmov 0 (.main 16 false)).wellFormed = false ∧
    (Instr.cmov 0 (.imm 1)).wellFormed = false := by decide
theorem test_ill_source_kx : (Instr.ksetAdd 0 .queue .zero).wellFormed = false ∧
    (Instr.ksetAdd 28 .zero .zero).wellFormed = false := by decide
theorem test_ill_source_mask : (Instr.vmnot .va 0 .latch).wellFormed = false := by decide
theorem test_ill_source_sum : (Instr.wsmov .va 0 (.main 4 false)).wellFormed = false := by decide
theorem test_ill_source_handle : (Instr.xrel (.main 8 false)).wellFormed = false := by decide
theorem test_ill_source_s : (Instr.smov true 0 (.main 16 false)).wellFormed = false := by decide
theorem test_ill_kitty : (Instr.kdef .va 3 0 0 (.main 25 false) .all).wellFormed = false ∧
    (Instr.ktake .va 3 0 24 0).wellFormed = false := by decide
theorem test_ill_destination : (Instr.div ⟨false, .w64⟩ 28 .zero .zero).wellFormed = false := by decide
theorem test_ill_xput : (Instr.xput .i .i 0 .zero).wellFormed = false ∧ (Instr.xput .i .c 8 .zero).wellFormed = false := by
  decide
theorem test_ill_fcvt : (Instr.fcvt .dyn .i32 .i64 0 .zero).wellFormed = false ∧
    (Instr.fcvt .dyn .s .s 0 .zero).wellFormed = false ∧ (Instr.fcvt .rto .h .s 0 .zero).wellFormed = false := by decide
theorem test_ill_pack : (Instr.vpack .va .hq false 3 0 0 .zero).wellFormed = false ∧
    (Instr.vpack .va .ds false 0 1 0 .zero).wellFormed = false ∧
    (Instr.vunpk .va .i16 false 2 0 0 .zero).wellFormed = false := by decide
theorem test_ill_sum_access : (Instr.vldVA .ws32 0 .zero .zero).wellFormed = false := by decide
theorem test_ill_done_bit : (Instr.kcan 60).wellFormed = false ∧ (Instr.mread false 0 0 60).wellFormed = false := by decide
theorem test_ill_format : (Instr.fset 0 true 1).wellFormed = false ∧ (Instr.fset 0 false 1).wellFormed = false ∧
    (Instr.msetFmt 0 2 0 9 0).wellFormed = false ∧ (Instr.msetScale 0 1 0 false).wellFormed = false := by decide
theorem test_ill_system_register : (Instr.sysr 0 0x68).wellFormed = false ∧ (Instr.sysw 0 0x20).wellFormed = false := by
  decide
theorem test_ill_pset : (Instr.pset 1 .zero .z 1).wellFormed = false := by decide
theorem test_ill_rounding : (Instr.wsrnd .va .s32 0 (.main 0 false) .rto).wellFormed = false := by decide

/-! ### Words that the spec writes out in hexadecimal decode to the instruction it writes beside them -/

theorem test_word_call : decodeWord 0x00C0002C = .ok (.call 0 false 44) := by decide
theorem test_word_lend : decodeWord 0x0183FFA8 = .ok (.lend 0 (-88)) := by decide
theorem test_word_wall : decodeWord 0x04420080 = .ok (.wallWait (.main 1 false)) := by decide
theorem test_word_sysr : decodeWord 0x09040105 = .ok (.sysr 2 0x105) := by decide
theorem test_word_dclr : decodeWord 0x04C03080 = .ok (.dclr (.imm 1)) := by decide
theorem test_word_cbndr : decodeWord 0x15008086 = .ok (.cbndr 2 (.main 1 false) (.main 6 false)) := by decide
theorem test_word_cget : decodeWord 0x15814167 = .ok (.cget 5 (.main 2 false) .length) := by decide
theorem test_word_cperm : decodeWord 0x15460801 = .ok (.cperm 3 (.main 2 false) 1) := by decide
theorem test_word_cinc : decodeWord 0x1480C1E1 = .ok (.cinc 3 (.main 3 false) (.imm 1)) := by decide
theorem test_word_vld : decodeWord 0x188040FF = .ok (.vldVA .lanes 1 (.main 1 false) (.imm (-1))) := by decide
theorem test_word_vst : decodeWord 0x1A804107 = .ok (.vstVA .lanes 1 (.main 2 false) (.main 7 false)) := by decide
theorem test_word_vor : decodeWord 0xB45822C6 = .ok (.vor .va .w64 0 .queue .zero) := by decide
theorem test_word_vredmax : decodeWord 0xB9508088 = .ok (.vredmaxFp .va .s 2 (.main 1 false) (.m 0)) := by decide
theorem test_word_vdiv : decodeWord 0xB2114304 = .ok (.vdivFp .va .s 5 (.main 6 false) (.main 4 false)) := by decide
theorem test_word_vpack : decodeWord 0xB6D20380 = .ok (.vpack .va .sb false 0 0 8 (.main 7 false)) := by decide
theorem test_word_mset_base : decodeWord 0x51403000 = .ok (.msetBase 0 0x3000) := by decide
theorem test_word_mset_fmt : decodeWord 0x51502C2C = .ok (.msetFmt 0 12 2 12 2) := by decide
theorem test_word_mset_scale : decodeWord 0xD1580110 = .ok (.msetScale 0 0 1 true) := by decide
theorem test_word_mpass : decodeWord 0xD0400001 = .ok (.mpass 0 0 0 0 0 true) ∧
    decodeWord 0xD0489000 = .ok (.mpass 4 2 1 0 0 false) := by decide
theorem test_word_mread : decodeWord 0xD0C00080 = .ok (.mread false 0 1 0) := by decide
theorem test_word_gset : decodeWord 0xD1860006 = .ok (.gset 3 6) := by decide
theorem test_word_fset : decodeWord 0xF0C50739 = .ok (.fset 2 true 0x739) := by decide
theorem test_word_sld : decodeWord 0xF0403C00 = .ok (.sld 0 0x3C00) := by decide
theorem test_word_kset : decodeWord 0xE0403201 = .ok (.ksetW 0 0 (.main 1 false)) := by decide
theorem test_word_kcopy : decodeWord 0xE080A000 = .ok (.kcopy 0 5 false false) := by decide
theorem test_word_reserved : decodeWord 0x2FC00000 = .error .reservedOpcode := by decide
/-- `add.i32 i20, i2, i5` with its fields from the tables of chapter 03. -/
theorem test_word_add : decodeWord (0#1 ++ 2#3 ++ 0x01#6 ++ 0b010#3 ++ 20#5 ++ 0b0000010#7 ++ 0b0100101#7) =
    .ok (.add .w32 20 (.main 2 false) (.main 5 true)) := by decide

/-! ### A small machine

One running context of ASID 1 on core 0 of cluster 0, in launch 1; buffer 1 is memory, 2 the core's own local array, 3 the
code segment, 4 the pool; registers hold the small values that the tests name. -/

def buffer (kind : BufKind) (index : Nat) : BufEntry :=
  { length := 1048576, kind := kind, valid := true, shared := false, world := false, rack := 0, key := 0, owner := 1,
    gen := 1, stackSet := 1, pch := 0, stride := 0, extmap := index, home := 15, loff := 0, gfloor := 0 }

/-- The bank of the local array: 49,152 bytes. -/
def localBuffer : BufEntry := { buffer .local 2 with length := 49152 }

def table : Space :=
  ⟨1, 8, [(1, buffer .memory 1), (2, localBuffer), (3, buffer .code 3), (4, buffer .memory 4)]⟩

/-- A tagged capability over the first 65,536 bytes of a buffer, with every permission. -/
def cap (index cursor : Nat) : CapV := mkCap index 1 255 0 0 65536 cursor true

def resident (map : Nat) : Extent :=
  { map := map, ext := 0, state := .hbm, mig := false, stack := 0, frame := 7, peer := 0, owner := 1, world := false, counter := 0 }

def place : Place :=
  { Place.zero with
    launch := 1, asid := 1, poolsz := 16, zown := 3, gLo := 0, gHi := 8192, own := 1, sbanks := 1, image := 3, segMap := 3,
    segBlocks := 1, frame := cap 1 4096 }

def record : LaunchRec :=
  { anchor := false, meld := false, preempt := false, asid := 1, rows := 1, cols := 1, row0 := 0, col0 := 0, cores := 1,
    image := 3, pool := 4, poolsz := 16, frame := 1, save := 9, framesz := 64, arg := 1, argPerms := 3, argCur := 0, argBase := 0,
    argLen := 64, s1 := 0, hang := 0, wall := 0, timeout := 10, tag := 0 }

def image : ImageInfo :=
  { entry := 0, handler := none, l1 := 0, ztiles := 2, gunits := 0, nblocks := 1, segMap := 3, segBase := 0, segKey := 0,
    segNonce := 0, banks := 1, l1max := 0, plan := [], bufs := [] }

def pool : Pool :=
  { map := 4, index := 4, gen := 1, size := 16, slots := [⟨0, 0, false⟩, ⟨3, 1, true⟩], queue := [], pos := [] }

def launch1 : Launch :=
  { id := 1, stream := 0, seq := 0, level := 0, node := none, lrec := record, img := image, row := 0, col := 0, clusters := [0],
    pool := pool, bars := Vector.replicate 4 Barrier.zero, clBars := [], state := .running, first := none, journal := 0,
    stained := [] }

def put (w : RegWrite) (c : Ctx) : Ctx := c.putReg w 0

/-- i1 = 255, i2 = -1, i3 = 7; a1 = 5, a2 = 64; c1 = memory at 0, c2 = local array at 64; g1 = 3. -/
def regs (c : Ctx) : Ctx :=
  put (.gen 1 3) (put (.cap 2 (cap 2 64)) (put (.cap 1 (cap 1 0)) (put (.addr 2 64) (put (.addr 1 5) (put (.int 3 7)
    (put (.int 2 (-1)) (put (.int 1 255) c)))))))

def world : State :=
  { State.reset with
    ctx := regs (Ctx.create place), spaces := [table], exts := [resident 1, resident 3, resident 4], launches := [launch1]
    clus := { Cluster.blank 0 with table := some table } }

/-- The state after a word or an event. -/
def after (i : Instr) (s : State) : State :=
  match exec i s with
  | .next t => t
  | .fault _ => s
  | .refused _ => s

/-- The exposed results that a word adds. -/
def results (i : Instr) (s : State) : List DueEntry := (after i s).ctx.due

/-- The cause of the trap that a word takes. -/
def trapped (i : Instr) (s : State) : Option Cause := ((after i s).ctx.bun.trap).map (fun (t : TrapInfo) => t.cause)

/-- The vectors among the exposed results of a word. -/
def vectors (i : Instr) (s : State) : List V2048 :=
  (results i s).flatMap (fun (e : DueEntry) => e.writes.filterMap (fun (w : RegWrite) =>
    match w with
    | .vec _ _ v => some v
    | _ => none))

def x (n : BitVec 5) : Src := .main n false

/-! ### One word on the small machine, results by hand from the rules -/

/-- R110: addition wraps at 64 bits. -/
theorem test_aadd : results (.aadd 3 (x 1) (.imm (-6))) world = [⟨1, false, [.addr 3 (-1)], 0, 0⟩] := by decide +kernel
/-- R110: `ashr` keeps the sign, `amovh` shifts left by 16 and takes 16 bits. -/
theorem test_ashr : results (.ashr 3 (.imm (-8)) (.imm 2)) world = [⟨1, false, [.addr 3 (-2)], 0, 0⟩] := by decide +kernel
theorem test_amovh : results (.amovh 1 0x1234) world = [⟨1, false, [.addr 1 0x51234], 0, 0⟩] := by decide +kernel
/-- R111: `lt` is signed, `ltu` unsigned. -/
theorem test_acmp : results (.acmp .lt 2 (.imm (-1)) (x 1)) world = [⟨1, false, [.pred 2 true], 0, 0⟩] ∧
    results (.acmp .ltu 2 (.imm (-1)) (x 1)) world = [⟨1, false, [.pred 2 false], 0, 0⟩] := by decide +kernel
/-- R35: 255 + 7 wraps to 6 at 8 bits; the signed saturating sum of -1 and 7 is 6, of 127 and 7 is 127. -/
theorem test_add : results (.add .w8 4 (x 1) (x 3)) world = [⟨1, false, [.int 4 6], 0, 0⟩] := by decide +kernel
theorem test_add_sat : results (.addSat ⟨true, .w8⟩ 4 (x 1) (x 3)) world = [⟨1, false, [.int 4 255], 0, 0⟩] ∧
    results (.addSat ⟨false, .w8⟩ 4 (x 1) (x 3)) world = [⟨1, false, [.int 4 6], 0, 0⟩] := by decide +kernel
/-- R36: -1 divided by 7 is 0 toward zero; 255 by 7 is 36, the remainder 3; a divisor of 0 traps IDIV. -/
theorem test_div : (after (.div ⟨true, .w8⟩ 4 (x 1) (x 3)) world).ctx.mem.pend = [⟨.int 4 36, 0, 0⟩] ∧
    (after (.div ⟨false, .w8⟩ 4 (x 1) (x 3)) world).ctx.mem.pend = [⟨.int 4 0, 0, 0⟩] := by decide +kernel
theorem test_rem_zero : trapped (.rem ⟨true, .w8⟩ 4 (x 1) .zero) world = some .idiv := by decide +kernel
/-- R113: 255 has 24 leading zeros in 32 bits and 8 ones; `ctz` of 0 is the width. -/
theorem test_counts : results (.clz .w32 4 (x 1)) world = [⟨1, false, [.int 4 24], 0, 0⟩] ∧
    results (.popc .w32 4 (x 1)) world = [⟨1, false, [.int 4 8], 0, 0⟩] ∧
    results (.ctz .w16 4 .zero) world = [⟨1, false, [.int 4 16], 0, 0⟩] := by decide +kernel
/-- R118: bits 2..5 of 255: position 2, length 4 (B = 3 * 64 + 2). -/
theorem test_bfx : results (.bfx false 4 (x 1) (x 5)) (world.onCtx (put (.int 5 0xC2))) =
    [⟨1, false, [.int 4 15], 0, 0⟩] := by decide +kernel
/-- R41: 1 + 1 = 2 exactly; the largest FP32 doubled overflows to infinity with OF and NX. -/
theorem test_fadd : results (.fadd .s 4 (x 5) (x 5)) (world.onCtx (put (.int 5 0x3F800000))) =
    [⟨4, false, [.int 4 0x40000000], 0, 0⟩] := by decide +kernel
theorem test_fadd_overflow : (results (.fadd .s 4 (x 5) (x 5)) (world.onCtx (put (.int 5 0x7F7FFFFF)))).map
    (fun (e : DueEntry) => e.writes) = [[.int 4 0x7F800000]] := by decide +kernel
/-- R40: one third of FP32 rounded to nearest is 0x3EAAAAAB. -/
theorem test_fdiv : ((after (.fdiv .s 4 (x 5) (x 6)) (world.onCtx (fun c => put (.int 5 0x3F800000)
    (put (.int 6 0x40400000) c)))).ctx.mem.pend).map (fun (p : Pending) => p.write) = [.int 4 0x3EAAAAAB] := by
  decide +kernel
/-- R43: 1.5 to a signed 32-bit integer, to nearest even 2, toward zero 1. -/
theorem test_fcvt : (results (.fcvt .rne .s .i32 4 (x 5)) (world.onCtx (put (.int 5 0x3FC00000)))).map
      (fun (e : DueEntry) => e.writes) = [[.int 4 2]] ∧
    (results (.fcvt .rtz .s .i32 4 (x 5)) (world.onCtx (put (.int 5 0x3FC00000)))).map
      (fun (e : DueEntry) => e.writes) = [[.int 4 1]] := by decide +kernel
/-- R98: DISP counts words from the bundle; a `ret` on an empty return stack traps ILLEGAL. -/
theorem test_bra : (after (.bra 0 false 3) (world.onCtx (fun c => { c with pc := 16 }))).ctx.bun.next = some 28 := by
  decide +kernel
theorem test_ret_empty : trapped (.ret 0 false) world = some .illegal := by decide +kernel
/-- R101: a counter of 1 goes to 0 without a branch. -/
theorem test_lend : (after (.lend 0 (-4)) (world.onCtx (put (.loop 0 1 true)))).ctx.due =
    [⟨1, false, [.loop 0 0 false], 0, 0⟩] ∧ (after (.lend 0 (-4)) (world.onCtx (put (.loop 0 1 true)))).ctx.bun.next = none := by
  decide +kernel
/-- R104 and R96: bit 0 of g1 = 3 is set; predicate 0 always reads 1. -/
theorem test_pset : results (.pset 1 (x 1) .bit 0) world = [⟨1, false, [.pred 1 true], 0, 0⟩] := by decide +kernel
/-- R257: `ffd` finds the lowest set bit under the mask, 64 for none. -/
theorem test_ffd : results (.ffd 2 (.imm (-1))) (world.onCtx (fun c => (c.setDone 9).setDone 5)) =
      [⟨1, false, [.gen 2 5], 0, 0⟩] ∧ results (.ffd 2 .zero) world = [⟨1, false, [.gen 2 64], 0, 0⟩] := by decide +kernel
/-- R212 and R214: the cursor moves alone; permissions only go away. -/
theorem test_cinc : (results (.cinc 3 (x 1) (x 2)) world).map (fun (e : DueEntry) => e.writes) =
    [[.cap 3 (cap 1 64)]] := by decide +kernel
theorem test_cperm : (results (.cperm 3 (x 1) 1) world).map (fun (e : DueEntry) => e.writes) =
    [[.cap 3 (mkCap 1 1 1 0 0 65536 0 true)]] := by decide +kernel
/-- R213: 64 bytes from the cursor of c2 at 64. -/
theorem test_cbnd : (results (.cbnd 3 (x 2) (x 2)) world).map (fun (e : DueEntry) => e.writes) =
    [[.cap 3 (mkCap 2 1 255 0 64 128 64 true)]] := by decide +kernel
/-- R215: selector 7 is the length. -/
theorem test_cget : (results (.cget 4 (x 2) .length) world).map (fun (e : DueEntry) => e.writes) =
    [[.addr 4 65536]] := by decide +kernel
/-- R204: the checks in their order: an untagged capability, a misaligned address, an address beyond the bounds. -/
theorem test_check_untag : trapped (.stA .w64 0 .zero .zero) world = some .untag := by decide +kernel
theorem test_check_align : trapped (.stA .w64 1 (x 1) .zero) world = some .align := by decide +kernel
theorem test_check_bound : trapped (.stA .w64 2 (x 6) .zero) (world.onCtx (put (.addr 6 (49152 - 64)))) = some .bound := by
  decide +kernel

/-- A store of 255 to the local array at 64, and a load of the same bytes. -/
def stored : State := after (.storePerform 0) (after (.stA .w16 2 .zero (x 7)) (world.onCtx (put (.addr 7 0x1FF8))))

/-- R8 and R218: the bytes of a store lie little-endian at the buffer's offset in the array. -/
theorem test_store : Memory.read stored.core.la 63 4 = [0, 0xF8, 0x1F, 0] := by decide +kernel
/-- R227: a signed load extends, an unsigned one does not. -/
theorem test_load : ((after (.loadPerform 0) (after (.ldI ⟨false, .w8⟩ 2 .zero .zero) stored)).ctx.lq .i).map
      (fun (e : LqEntry) => e.data) = [some (.s (-8))] ∧
    ((after (.loadPerform 0) (after (.ldA ⟨true, .w8⟩ 2 .zero .zero) stored)).ctx.lq .a).map
      (fun (e : LqEntry) => e.data) = [some (.s 0xF8)] := by decide +kernel
/-- R232: `amo.add` leaves the sum in memory and answers the old value. -/
theorem test_amo : (let s := after (.storePerform 0) (after (.amoAdd .w16 true 2 .cl .rlx (x 1)) stored)
    Memory.read s.core.la 64 2 = [0xFD, 0x1F] ∧ (s.ctx.lq .a).map (fun (e : LqEntry) => e.data) = [some (.s 0x1FF8)]) := by
  decide +kernel
/-- R233: `cas` writes only where the old value is the one expected. -/
theorem test_cas : (let s := (stored.onCtx (fun c => c.setSq .a [⟨.s 9, 0⟩]))
    Memory.read (after (.storePerform 0) (after (.cas .w16 2 .cl .rlx (x 1)) s)).core.la 64 2 = [0xF8, 0x1F] ∧
    Memory.read (after (.storePerform 0) (after (.cas .w16 2 .cl .rlx (x 7)) s)).core.la 64 2 = [9, 0]) := by decide +kernel
/-- R131: every element adds, an immediate stands in every element; R145: a lane rotation. -/
theorem test_vadd : (vectors (.vadd .va (.int .w8) 1 .zero (.imm (-1))) world).map (fun v => (el v 0 8, el v 255 8)) =
    [(255, 255)] := by decide +kernel
theorem test_vidx : (vectors (.vidx .vb .w64 1 (.imm 3)) world).map (fun v => (el v 0 64, el v 31 64)) = [(3, 34)] := by decide +kernel
/-- R57: the sum of 32 elements of 64 bits, each 3; with no active element 0. -/
theorem test_vredsum : (vectors (.vredsum .va (.int .w64) 1 (.imm 3) .all) world).map (fun v => el v 7 64) = [96] := by decide +kernel
/-- R55: 1.0 is 2^149 in a sum of 32-bit reach. -/
theorem test_wsadd : (results (.wsadd .va .s32 0 (x 1) (.m 1)) (world.onCtx (fun c => put (.mask .va 1 1)
    (put (.vec .va 1 0x3F800000) c)))).map (fun (e : DueEntry) => e.writes) = [[.wsinc .va 0 false (2 ^ 149) 0]] := by
  decide +kernel
/-- R181: a base replaces the low 16 bits alone; R187: `sset` fills its register. -/
theorem test_mset : results (.msetStride 2 0x20) (world.onCtx (put (.sd 2 0x30001))) =
    [⟨1, false, [.sd 2 0x200001], 0, 0⟩] := by decide +kernel
/-- R178: a tile zeroed by `mzero` after its end. -/
theorem test_mzero : (let s := after .mOpEnd (after .mOpStart (after (.mzero false 1) world))
    (vget s.core.tiles 1 Tile.zero).full = true ∧ s.ctx.mem.mq = []) := by decide +kernel
theorem test_mzero_perm : trapped (.mzero false 2) world = some .perm := by decide +kernel
/-- R212: a kx register takes a sum; R244: `kset` of word 4. -/
theorem test_kset : results (.ksetAdd 6 .zero (.imm 1)) world = [⟨1, false, [.kx 6 1], 0, 0⟩] ∧
    results (.ksetW 0 0 (.imm 2)) world = [⟨1, false, [.kjWord 0 0 2], 0, 0⟩] := by decide +kernel
/-- R105, R106: `yield` waits at most 1,024 cycles, `halt` ends the context. -/
theorem test_yield : (after (.yield (x 4)) (world.onCtx (put (.gen 4 5000)))).ctx.wait.yield = 1024 := by decide +kernel
theorem test_halt : (after .halt world).ctx.phase = .ended := by decide +kernel
/-- R329 and R327: SWTRAP with a code at the end of the bundle, and the entry to a handler. -/
theorem test_trap : ((after (.trap 0 false (.imm 5) 12) world).ctx.bun.post).map (fun (i : TrapInfo) => (i.cause, i.addr, i.code)) =
    some (.swtrap, 5, 12) := by decide +kernel

/-! ### Events -/

/-- The first AES-256 case of the GCM standard's own test vectors: zero key, zero IV, no data. -/
theorem test_gmac : gmac (List.replicate 32 0) (List.replicate 12 0) [] = 0x530f8afbc74536b9a963b4f1c4cb738b := by decide +kernel
/-- R403: the check value that CRC-32 catalogues give for the nine digits "123456789". -/
theorem test_crc32 : crc32 [0x31, 0x32, 0x33, 0x34, 0x35, 0x36, 0x37, 0x38, 0x39] = 0xCBF43926 := by decide +kernel
/-- R408: the patterns of 16, 8, 4 and 1 slots. -/
theorem test_pattern : slotPattern 16 = 0xFFFF ∧ slotPattern 8 = 0xAAAA ∧ slotPattern 4 = 0x8888 ∧ slotPattern 1 = 0x8000 := by
  decide +kernel
/-- R409: at 75 degrees a region's integral gains 1 and leaks DLEAK = 1. -/
theorem test_thermal : ((after (.thermalSample 0 80) State.reset).regionOf 0).d = 1 := by decide +kernel
/-- R348: LOCK and START move a TDI to RUN and step its measurement generation each time. -/
theorem test_tdi : (let s := State.reset.modPart 1 (fun p => { p with session := true })
    let t := after (.startInterfaceRequest 1) (after (.lockInterfaceRequest 1) s)
    (t.partOf 1).tdi = .run ∧ (t.partOf 1).mgen = 2) := by decide +kernel
/-- R301: a doorbell sets the tail. -/
theorem test_doorbell : ((after (.cmdTailWrite 3 5) State.reset).streamOf 3).tail = 5 := by decide +kernel
/-- R1: an event of a module's fabric does not exist on a VPM9-P. -/
theorem test_absent : exec (.linkDown 0) { State.reset with code := .vpm9p } = .fault .absentUnit := rfl
/-- One step of the machine runs a word placed at its program counter: `halt` ends the context. -/
theorem test_step : (match step (State.reset.withFetchWord 32 0x08800000) with
    | .next t => t.ctx.phase
    | .fault _ => .vacant
    | .refused _ => .vacant) = .ended := by decide +kernel

/-! ### For every obligation, states and operands that meet its hypotheses

Each theorem names its obligation; its parts are the hypotheses of the clauses in their order, with the operands at which
two clauses meet. Hypotheses over a constant of Config without a value (a signature that checks, a key that unwraps) are
met under that constant's answer, which nothing in Lean fixes. -/

def ok (o : Out) : Bool :=
  match o with
  | .next _ => true
  | .fault _ => false
  | .refused _ => false

def on (f : Ctx → Ctx) : State := world.onCtx f

theorem met_EncodeDecodeRoundTrip : (Instr.add .w64 31 (.main 27 true) (.imm 31)).isWord = true ∧
    (Instr.add .w64 31 (.main 27 true) (.imm 31)).wellFormed = true := by decide
theorem met_DecodedWordHasNoOtherReading : decodeWord 0xFFFFFFFF = .error .reservedOpcode ∧
    decodeWord 0x88800000 = .ok .halt := by decide

/-- A delivered cycle in which nothing holds the context: the bundle around `halt`. -/
def fetched : State := State.reset.withFetchWord 32 0x08800000
def waited : State := fetched.holdSpawns.settleWait.1
def bundle : List Instr := [.halt, .nop .A, .nop .I, .nop .VA]

theorem met_StepRunsDecodedInstruction : fetched.agenda = [] ∧ fetched.acted = false ∧ fetched.delivered = true ∧
    fetched.ctx.nextFault = none ∧ fetched.holdSpawns.settleWait.2 = false ∧ waited.accessHolds = false ∧
    waited.codeHeld = false ∧
    (waited.fetchBundle.2.toOption) = some bundle ∧ waited.fetchBundle.1.readyButSources bundle = true ∧
    waited.fetchBundle.1.logHolds bundle = true ∧ waited.fetchBundle.1.emptyRead bundle = none ∧ waited.fetchBundle.1.sourcesFull bundle = true ∧
    waited.ctx.place.prim = true ∧ ceilDiv (bankReads bundle) waited.core.dropCap ≤ waited.ctx.bubblesLeft + 1 ∧
    ok (runWords bundle waited) = true ∧ (Instr.brown).isWord = false ∧ waited.arrayTouch .halt = none ∧
    (waited.arrayTouch (.sld 0 0x3C00)).isSome = true ∧
    trapped (.ret 0 false) world = some .illegal ∧ world.ctx.bun.trap = none := by decide +kernel
theorem met_ResetState : (27 : BitVec 5).toNat < 28 := by decide
/-- Steps from states in canonical form: a host request that no window accepts. -/
noncomputable def asked : State := { world with agenda := [.hostRead ⟨0, 0, 0, false, false, 0, .cxlMem⟩] }

theorem asked_mem : MemInv asked := ⟨by decide, by decide, (fun _ h => nomatch h), (fun _ h => nomatch h)⟩
theorem asked_arrays : ArrInv asked := ⟨by decide, by decide, (fun _ h => nomatch h), (fun _ h => nomatch h)⟩
theorem met_StepKeepsMemoryCanonical : MemInv asked ∧ ok (step asked) = true := ⟨asked_mem, by decide +kernel⟩
theorem met_StepKeepsArraysCanonical : ArrInv asked ∧ ok (step asked) = true := ⟨asked_arrays, by decide +kernel⟩

/-- The return stack with `n` entries. -/
def nested (n : Nat) : State := on (fun c => { c with c := { c.c with depth := n } })

theorem met_TransferResults : (world.ctx.pred 0).1 = true ∧ (world.ctx.pred 1).1 = false ∧
    (world.ctx.rdC (x 1)).1.toNat % 4 ≠ 0 ∧ (world.ctx.rdC .zero).1.toNat % 4 = 0 ∧ world.ctx.c.depth = 0 ∧
    (nested 1).ctx.c.depth = 0 + 1 ∧ (nested 15).ctx.c.depth ≠ 16 ∧ (nested 16).ctx.c.depth = 16 := by decide +kernel
theorem met_LoopPredicateResults : (vget world.ctx.c.l 0 ⟨7, 0⟩).val = 0 ∧
    (vget (on (put (.loop 0 1 true))).ctx.c.l 0 ⟨7, 0⟩).val = 1 ∧
    (vget (on (put (.loop 0 2 true))).ctx.c.l 0 ⟨7, 0⟩).val = 2 := by decide +kernel
theorem met_DoneBitResults : (world.ctx.rdC (x 1)).1 ≠ 0 ∧ (world.ctx.rdC .zero).1 = 0 ∧
    (world.ctx.setDone 63).c.done.getLsbD 63 = true ∧ world.ctx.c.done.getLsbD 0 = false := by decide +kernel

/-- A context in handler mode, its fault record naming BADDR 0 and RADDR 16 of the bundle around `halt`. -/
def handling : State := (world.withFetchWord 32 0x08800000).onCtx (fun c => { c with handler := true, st := { c.st with frec := 16 * 2 ^ 64 } })

theorem met_TrapAndReturnResults : (world.ctx.pred 0).1 = !false ∧ (world.ctx.pred 0).1 = true ∧ world.ctx.handler = false ∧
    handling.ctx.handler = true ∧ handling.ctx.frecFlags % 4 = 0 ∧ handling.skipTarget.isSome = true ∧
    (handling.ctx.rdC .zero).1.toNat % 4 = 0 ∧ (handling.ctx.rdC .zero).1.toNat < handling.ctx.place.segBlocks * 1024 ∧
    (handling.ctx.rdC .zero).1.toNat % 1024 < 1008 := by decide +kernel

/-- The launch stopped whole, and its context stopped and saved. -/
def stopping : State := world.modLaunch 1 (fun l => { l with state := .stopped .preempt })
noncomputable def stopped : State := (after (.contextStop .preempt) stopping).modLaunch 1 (fun l => { l with state := .running })
def withHandler : State := on (fun c => { c with place := { c.place with handler := some 512 } })

theorem met_TrapTaken : withHandler.ctx.handler = false ∧ withHandler.ctx.place.handler = some 512 ∧ handling.ctx.handler = true ∧
    world.ctx.place.handler = none ∧ (stopping.curLaunch.map (fun (l : Launch) => l.state)) = some (.stopped .preempt) ∧
    stopping.ctx.phase = .running ∧ stopping.ctx.mem.pend = [] ∧ stopping.ctx.mem.xlats = [] ∧ stopping.savable = true ∧
    (stopped.savedAt 1 0 0 0).isSome = true ∧ stopping.power.phase = .on ∧ stopped.sweep.active = false ∧ (stopped.launches.map (fun (l : Launch) => (stopped.mayResume l, l.state))) =
      [(true, .running)] ∧ (stopped.findCluster 0).shed = false ∧ world.ctx.bun.post = none ∧
    (world.commit []).ctx.phase = .running := by decide +kernel
/-- `sysw` of register 0x20, which has no writable field, before the NOPs that close its bundle. -/
def badSysw : BitVec 32 := BitVec.ofBool false ++ 0#3 ++ 0x25#6 ++ 0#2 ++ 1#3 ++ 0x20#17
def badBundle : List (BitVec 32) := [badSysw, 0x10000000, 0x20000000, 0xB0000000]

theorem met_SystemRegisterResults : (0x10 : BitVec 17) ≠ 0x11 ∧ world.ctx.st.loose = [] ∧ sysWritable 0x20 = false ∧
    takeBundle 8 badBundle = some badBundle ∧ 3 ≤ badBundle.tail.length ∧
    unitsRise (badBundle.map (fun y => (unitField y).toNat)) = true ∧ badBundle.find? badOpcode = none := by decide +kernel

theorem met_ContinuationWordResults : world.curLaunch = some launch1 ∧ launch1.id = world.ctx.place.launch ∧
    launch1.state = .running ∧ (world.ctx.rdC .zero).1.toNat = 0 ∧ (world.ctx.rdC (.imm 1)).1.toNat = 1 ∧
    65535 < (world.ctx.rdC (.imm (-1))).1.toNat ∧ world.notices = [] ∧
    ((world.modLaunch 1 (fun l => { l with state := .aborting 0x10 10 })).curLaunch.map (fun (l : Launch) =>
      (l.id, l.state, l.state.isAborting))) = some (1, .aborting 0x10 10, true) ∧ launch1.state.isAborting = false ∧
    ((on (put (.gen 4 65535))).ctx.rdC (x 4)).1.toNat = 65535 ∧
    (vget (on (put (.gen 4 0x80000000))).ctx.c.g 4 tv0).val.toNat = 2 ^ 31 ∧ (vget world.ctx.c.g 1 tv0).val.toNat = 3 ∧
    world.accCheck world.ctx.place.frame 0 (frameLayout 3).2 (pR + pW + pLC + pSC) 16 = .ok (buffer .memory 1, 4096) ∧
    (world.ctx.rdC (x 1)).1.toNat < world.ctx.place.poolsz ∧ world.ctx.place.poolsz ≤ (world.ctx.rdC (.imm (-1))).1.toNat ∧
    world.ctx.place.link = 0xFFFF ∧ (on (fun c => { c with place := { c.place with link := 15 } })).ctx.place.link = 15 := by
  decide +kernel

/-- c3 is untagged; c4 has bounds that no format of 20 bits takes exactly from its cursor. -/
def caps : State := on (fun c => put (.addr 6 (2 ^ 21 + 1)) (put (.cap 4 (mkCap 1 1 255 2 0 (2 ^ 19 + 4) 1 true)) c))
def fits (s : State) (a b : Src) : Bool :=
  let v := (s.ctx.rdCap a).1
  let top := v.cursor + (s.ctx.rdA 0 b).1.toNat
  v.tag && decide (v.base ≤ v.cursor) && decide (top ≤ v.top) && decide (top ≤ 2 ^ 40)
def exact (s : State) (a b : Src) : Bool :=
  exactBounds (s.ctx.rdCap a).1.cursor ((s.ctx.rdCap a).1.cursor + (s.ctx.rdA 0 b).1.toNat)

theorem met_CapabilityWordResults : caps.sweep.active = false ∧ fits caps (x 2) (x 2) = true ∧ exact caps (x 2) (x 2) = true ∧
    fits caps (x 4) (x 6) = true ∧ exact caps (x 4) (x 6) = false ∧ (caps.ctx.rdCap (x 1)).1.tag = true ∧
    fits caps (x 1) (x 6) = false ∧ (caps.ctx.rdCap (x 3)).1.tag = false := by decide +kernel
theorem met_CapabilityWordsNeverWiden : (results (.cbndr 3 (x 4) (x 6)) caps).map (fun (e : DueEntry) => e.writes.map
    (fun (w : RegWrite) => match w with
      | .cap _ r => r.tag
      | _ => false)) = [[true]] := by decide +kernel

/-- c5 is the code segment at 0, c6 the same at the tail of a block, and a `crev` of buffer 1 that waits. -/
def code : State := on (fun c => put (.cap 6 (cap 3 1008)) (put (.cap 5 (cap 3 0)) c))
def revoking : State := after (.crev 3 (x 1)) code
noncomputable def revoked : State := after .crevComplete revoking

theorem met_RevocationResults : coreCheck code.table (cap 3 0) 0 4 pX 4 = .ok (buffer .code 3, 0) ∧
    (buffer .code 3).kind = .code ∧ (cap 3 0).index = code.ctx.place.image ∧ (cap 3 0).cursor % 1024 < 1008 ∧
    1008 ≤ (cap 3 1008).cursor % 1024 ∧
    (coreCheck code.table (cap 3 1008) 0 4 pX 4).toOption.isSome = true ∧ (buffer .memory 1).shared = false ∧ code.ctx.bun.decided = false ∧ code.ctx.c.depth ≠ 16 ∧
    coreCheck code.table (cap 1 0) 0 4 pX 4 = .ok (buffer .memory 1, 0) ∧
    (coreCheck code.table CapV.null 0 4 pX 4).toOption = none ∧ (cap 1 0).tag = true ∧
    code.table.entry 1 = some (buffer .memory 1) ∧ (cap 1 0).gen = 1 ∧ (cap 1 0).perms &&& 128 ≠ 0 ∧
    revoking.ctx.wait.crev = some ⟨1, 3, cap 1 0, 0, none⟩ ∧ revoking.table.entry 1 = some (buffer .memory 1) ∧
    revoking.released (some .pk) revoking.ctx.mem.aseq = true ∧
    (after (.crev 3 (x 1)) (after (.stA .w64 1 .zero (x 1)) code)).ctx.mem.outs.length = 1 ∧
    revoked.ctx.wait.crev = some ⟨1, 3, cap 1 0, 0, some 2⟩ ∧ (revoked.table.entry 1).map (fun (e : BufEntry) => e.gen) = some 2 ∧
    revoked.cardsName 1 1 { buffer .memory 1 with gen := 2 } 1 = false ∧ revoked.sweep.active = false := by decide +kernel
theorem met_AccessIssueResults : world.accCheck (cap 1 0) 64 8 1 8 = .ok (buffer .memory 1, 64) ∧
    (world.accCheck (cap 1 0) 5 8 1 8).toOption = none ∧ world.accCheck (cap 1 0) 64 8 2 8 = .ok (buffer .memory 1, 64) ∧
    world.accCheck (cap 1 0) 0 16 9 16 = .ok (buffer .memory 1, 0) ∧ world.accCheck (cap 2 0) 0 16 18 16 = .ok (localBuffer, 0) ∧
    (cap 1 0).perms &&& 32 ≠ 0 ∧ (buffer .memory 1).kind ≠ .local ∧ localBuffer.kind = .local ∧
    (world.laneCheck (cap 1 0) 64 [(0, 64), (31, 312)] 1 false).toOption = some (buffer .memory 1, 0) ∧
    (world.laneCheck (cap 1 0) 64 [(0, 65536)] 1 false).toOption = none ∧
    world.accCheck (cap 1 0) 0 288 1 48 = .ok (buffer .memory 1, 0) ∧ world.accCheck (cap 1 0) 0 48 2 48 = .ok (buffer .memory 1, 0) ∧
    ((on (fun c => c.setSq .va [⟨.v 0, 0⟩, ⟨.v 0, 0⟩])).ctx.sqVal .va 0).1.isVec = true ∧
    ((on (fun c => c.setSq .va [⟨.v 0, 0⟩, ⟨.v 0, 0⟩])).ctx.sqVal .va 1).1.isVec = true ∧
    ((on (fun c => c.setSq .va [⟨.w32 0, 0⟩])).ctx.sqVal .va 0).1.isW32 = true ∧
    ((on (fun c => c.setSq .va [⟨.w64 0, 0⟩])).ctx.sqVal .va 0).1.isW64 = true ∧
    ((on (fun c => c.setSq .va [⟨.w64 0, 0⟩])).ctx.sqVal .va 0).1.isVec = false := by decide +kernel
theorem met_AtomicIssue : world.accCheck (cap 1 0) 0 1 67 1 = .ok (buffer .memory 1, 0) ∧
    world.accCheck (cap 1 0) 0 8 67 8 = .ok (buffer .memory 1, 0) ∧ world.accCheck (cap 2 0) 0 288 67 48 = .ok (localBuffer, 0) ∧
    ((on (fun c => c.setSq .vb [⟨.w64 0, 0⟩])).ctx.sqVal .vb 0).1.isW64 = true ∧
    ((on (fun c => c.setSq .vb [⟨.v 0, 0⟩])).ctx.sqVal .vb 0).1.isW32 = false := by decide +kernel
theorem met_TaintAndTransferWordResults : coreCheck world.table (cap 1 0) 64 1 1 1 = .ok (buffer .memory 1, 64) ∧
    (buffer .memory 1).kind ≠ .local ∧ coreCheck world.table (cap 2 0) 64 1 1 1 = .ok (localBuffer, 64) ∧
    (7 : BitVec 5).toNat < 8 ∧ world.ctx.wrongPopU .va (x 1) = false ∧
    (on (fun c => c.setLq .va [⟨0, some (.w32 0), 0⟩])).ctx.wrongPopU .va .queue = true := by decide +kernel
theorem met_DivisionResults : (27 : BitVec 5).toNat < 28 ∧ (world.ctx.rdI 0 .zero).1.setWidth 8 = (0 : BitVec 8) ∧
    (world.ctx.rdI 0 (.imm 1)).1.setWidth 8 ≠ (0 : BitVec 8) ∧ world.ctx.wrongPop .va 0 (x 1) = false ∧
    world.ctx.wrongPop .va 0 (.imm 1) = false ∧ (List.range 256).all (fun e => el (world.ctx.rdV .va 8 0 (.imm 1)).1 e 8 != 0) = true ∧
    el (world.ctx.rdV .va 8 0 (x 1)).1 255 8 = 0 ∧ withHandler.ctx.place.handler ≠ none := by decide +kernel
theorem met_ScalarFloatResults : (unpack .s 0x7FC00000).isNan = true ∧ (unpack .s 0x7F800001).isSnan = true ∧
    (unpack .s 0x3F800000).isNan = false := by decide +kernel
theorem met_FloatExactWhenRepresentable : ∃ v w : ℚ, codeVal .s 0x3F800000 = some v ∧ codeVal .s 0x40000000 = some w ∧
    v + v = w ∧ w ≠ 0 := by
  refine ⟨1, 2, ?_, ?_, by norm_num, by norm_num⟩
  · rw [codeVal, show unpack .s 0x3F800000 = .fin false (2 ^ 23) (-23) from by decide]
    norm_num [ratOf]
  · rw [codeVal, show unpack .s 0x40000000 = .fin false (2 ^ 23) (-22) from by decide]
    norm_num [ratOf]

theorem met_VectorIntegerResults : world.ctx.wrongPop .va 0 (x 1) = false ∧ world.ctx.wrongPop .vb (qCount .queue) (.imm 1) = false := by
  decide +kernel
theorem met_VectorFloatResults : world.ctx.wrongPop .vb 0 .latch = false ∧ world.ctx.wrongPop .vb 0 (x 27) = false := by
  decide +kernel

/-- A wide-sum entry at the head of VA's load-data queue. -/
def widePop : State := on (fun c => c.setLq .va [⟨0, some (.w64 5), 0⟩])

theorem met_VectorSelectMoveResults : world.ctx.wrongPop .va 0 (x 1) = false ∧ world.ctx.wrongPop .va 0 (x 2) = false ∧
    widePop.ctx.wrongPop .va 0 .queue = true := by decide +kernel
theorem met_VectorConversionReductionResults : world.ctx.wrongPop .va 0 (x 1) = false ∧ PackPair.isNarrow .hq = true ∧
    PackPair.isNarrow .sh = false ∧ (vget world.ctx.s.f 2 ⟨7, 0⟩).val.toNat = 0 ∧
    (vget (on (put (.fmt 2 0x80000739))).ctx.s.f 2 ⟨7, 0⟩).val.toNat ≠ 0 ∧ (world.ctx.rdSel .va (.m 1)).1 = 0 := by decide +kernel

/-- Kitty 0 over the first 64 entries, with `n` of them taken, and the masks of VA all ones or zero. -/
def kitty (n : Nat) : State := on (fun c => put (.mask .va 1 0xFFFFFFFF)
  { c with st := { c.st with kitty := vset c.st.kitty 0 ⟨0, 64, 0, n, 0⟩ } })

theorem met_WideSumKittyResults : world.ctx.wrongPop .va 0 (x 1) = false ∧ (widePop.ctx.lqVal .va 0).1.isWide = true ∧
    ((on (fun c => c.setLq .va [⟨0, some (.v 5), 0⟩])).ctx.lqVal .va 0).1.isWide = false ∧
    ((kitty 32).ctx.rdSel .va (.m 0)).1 = 0 ∧ ((kitty 32).ctx.rdSel .va (.m 1)).1 = 0xFFFFFFFF ∧
    (kitty 32).ctx.firstOutside 0 (48 * 64) = none ∧ 32 + 32 ≤ (vget (kitty 32).ctx.st.kitty 0 Kitty.zero).cap ∧
    (vget (kitty 33).ctx.st.kitty 0 Kitty.zero).cap < 33 + 32 := by decide +kernel
theorem met_WideSumOrderFree : wsF false (2 ^ 375 - 2) = 2 ^ 375 - 2 ∧ wsF false (2 ^ 375 - 2) + 1 < (2 : Int) ^ 375 ∧
    -(2 : Int) ^ 375 ≤ wsF false (2 ^ 375 - 2) - 1 ∧ wsF false (2 ^ 375 - 2) + 1 + -1 < (2 : Int) ^ 375 ∧ 15 < 16 := by decide +kernel

/-- sd1: base 0, stride 256 bytes, both operands of 8-bit integers; sd2: base 16 bytes; sd3: base past the scratchpad. -/
def descs : State := on (fun c => put (.sd 3 0x08000) (put (.sd 2 0x80001) (put (.sd 1 0x100000) c)))

theorem met_MatrixIssueResults : (59 : BitVec 6).toNat < 60 ∧ descs.ctx.place.zown.getLsbD 0 = true ∧
    descs.ctx.place.zown.getLsbD 1 = true ∧ descs.ctx.place.zown.getLsbD 2 = false ∧
    descs.ctx.rowsOutside (sdBase (descs.ctx.sd 1).1) (sdStride (descs.ctx.sd 1).1) 256 32 = none ∧
    sdBase (descs.ctx.sd 1).1 % 3 = 0 ∧ descs.ctx.firstOutside 0 48 = none ∧ sdBase (descs.ctx.sd 2).1 % 3 ≠ 0 ∧
    descs.ctx.rowsOutside (sdBase (descs.ctx.sd 3).1) (sdStride (descs.ctx.sd 3).1) 128 32 ≠ none ∧
    sdAtype (descs.ctx.sd 1).1 ≠ 12 ∧ sdBtype (descs.ctx.sd 1).1 ≠ 12 ∧ passKind 0 0 0 0 = some .int ∧
    (List.range 4).all (fun j => stepOk .int false (cpStep 255 j)) = true ∧ passKind 10 0 10 0 = some .f32 ∧
    descs.ctx.rowsOutside 0 (sdStride (descs.ctx.sd 1).1) (8 * opSw 0 0 * 2) 32 = none ∧ descs.ctx.place.gLo ≤ 0 ∧
    0 + 2 * opSw 0 0 / 4 ≤ descs.ctx.place.gHi := by decide +kernel

/-- kc1 tagged over memory, kc2 over the local array, kc3 untagged. -/
def kcs : State := on (fun c => put (.kx 1 48) (put (.kc 2 (cap 2 0)) (put (.kc 1 (cap 1 0)) c)))

theorem met_TableWordResults : world.ctx.firstOutside (16 * 3068) 64 = none ∧
    world.ctx.firstOutside (16 * 3069) 64 = some 49152 ∧ (15 : BitVec 5).toNat < 16 ∧ kcs.sweep.active = false ∧
    (kcs.ctx.rdKc (x 1)).1.tag = true ∧ (kcs.ctx.rdKc (x 1)).1.base ≤ (kcs.ctx.rdKc (x 1)).1.cursor ∧
    (kcs.ctx.rdKc (x 1)).1.cursor + (kcs.ctx.rdKx (x 1)).1.toNat ≤ (kcs.ctx.rdKc (x 1)).1.top ∧
    (kcs.ctx.rdKc (x 3)).1.tag = false ∧ kcs.accCheck (kcs.ctx.rdKc (x 2)).1 48 16 9 16 = .ok (localBuffer, 48) ∧
    localBuffer.isOwn 0 = true ∧ kcs.ctx.mem.outs = [] ∧ kcs.ctx.mem.slog = [] := by decide +kernel

/-- kj0: two rows of 96 bytes from buffer 1 to buffer 4; kj1: the same from memory to grist; kj2: from memory to the
destination in the local array's table; kj3: one row of FP32 in the local array for a collective job. -/
def job (src dst : CapV) (w4 w5 w6 w7 : W64) : JobCard := ⟨src, dst, w4, w5, w6, w7⟩
def jobs : State := { on (fun c => { c with k := { c.k with
    kj := (((vset c.k.kj 0 ⟨job (cap 1 192) (cap 4 4096) (96 + 2 * 2 ^ 24) (96 + 96 * 2 ^ 32) 0 0, 0⟩).setIfInBounds 1
      ⟨job (cap 1 0) CapV.null (96 + 2 ^ 24) 96 0 4, 0⟩).setIfInBounds 2
      ⟨job (cap 1 0) (cap 2 0) (96 + 2 ^ 24) 96 0 0, 0⟩).setIfInBounds 3
      ⟨job (cap 1 0) (cap 4 0) (64 + 2 ^ 24) 1 (10 + 10 * 16) 0, 0⟩
    kc := vset c.k.kc 1 ⟨cap 1 0, 0⟩ } }) with
  core := (Core.blank 0 0).laWriteCap 0 (cap 4 4096)
  groups := [{ entry := { GroupEntry.zero with valid := true, gid := 2, g := 2, rank := 0, asid := 1, members := [0, 1] },
               lastStep := some 0, members := [], early := [], ahead := [], wrote := [], failed := [] }] }
def jc (j : BitVec 3) : JobCard := (jobs.ctx.kj j).1
noncomputable def copying : State := after (.cardStart 0) (after (.kcopy 0 5 false false) jobs)

theorem met_CardIssueResults : (5 : BitVec 6).toNat < 60 ∧ (jc 0).fieldsOk 0 0 = true ∧ (jc 0).w7 = 0 ∧ (jc 0).cen = false ∧
    jobs.cardSide (jc 0).src 192 1 1 true = .ok (buffer .memory 1) ∧ jobs.cardSide (jc 0).dst 192 2 1 true = .ok (buffer .memory 4) ∧
    (jobs.footprint (buffer .memory 1) 1 192 192).meets (jobs.footprint (buffer .memory 4) 4 4096 192) = false ∧
    (jc 1).fieldsOk 0 0 = true ∧ (jc 1).w7.toNat < 2 ^ 13 ∧ (jc 1).rows ≤ 32 ∧ (jc 1).wbytes 0 0 % 32 = 0 ∧
    jobs.cardSide (jc 1).src 96 1 1 true = .ok (buffer .memory 1) ∧ jobs.ctx.place.gLo ≤ (jc 1).goff ∧
    (jc 1).goff + 96 / 32 ≤ jobs.ctx.place.gHi ∧ (jc 2).fieldsOk 0 0 = true ∧
    capCheck jobs.table (jc 2).dst 9 0 = .ok localBuffer ∧ localBuffer.isOwn 0 = true ∧
    jobs.cardSide (jc 2).dst 16 9 16 true = .ok localBuffer ∧ jobs.core.laReadCap 0 = cap 4 4096 ∧
    jobs.kmcDests (jc 2) false (jobs.footprint (buffer .memory 1) 1 0 96) [(0, cap 4 4096)] =
      .ok [(cap 4 4096, buffer .memory 4)] ∧ (jc 4).fieldsOk 0 0 = false ∧
    (jobs.groups.find? (fun g => g.entry.gid == 2)).isSome = true ∧ (jc 3).collOk .ar .fp 2 = true ∧ jobs.table.asid = 1 ∧
    jobs.coll = [] ∧ 0 < (jc 3).step ∧ jobs.cardSide (jc 3).src 64 1 4 true = .ok (buffer .memory 1) ∧
    jobs.cardSide (jc 3).dst 64 2 4 true = .ok (buffer .memory 4) ∧
    jobs.accCheck (vget jobs.ctx.k.kc 1 ⟨CapV.null, 0⟩).val 0 8 2 8 = .ok (buffer .memory 1, 0) ∧
    jobs.prefetchDrops (jc 4) .l2 = true ∧ jobs.prefetchDrops (jc 0) .l2 = false ∧ jobs.cardOfDone 5 = none ∧
    copying.cardOfDone 5 = some 0 ∧ (copying.core.cards.map (fun (c : Card) => c.isJob 2)) = [false] ∧
    copying.ctx.place.cluster = copying.clus.num ∧ copying.ctx.place.core = copying.core.num := by decide +kernel
theorem met_ScalarWordFrame : world.ctx.bun.trap = none ∧ trapped (.add .w8 28 (x 1) .queue) world = none ∧
    trapped (.acmp .ne 7 (x 1) .zero) world = none ∧ trapped (.cbnd 15 (x 2) (x 2)) caps = none := by decide +kernel
theorem met_VectorWordFrame : world.ctx.bun.trap = none ∧ trapped (.vredsum .va (.fp .s) 31 (x 1) .all) world = none ∧
    trapped (.vcmpInt .vb ⟨true, .w8⟩ .le 7 (x 1) (x 2)) world = none ∧ trapped (.wsadd .va .d64 3 (x 1) .all) world = none ∧
    trapped (.ksetAdd 27 (x 1) (x 2)) world = none ∧ (27 : BitVec 5).toNat < 28 ∧
    trapped (.fdiv .d 27 (x 1) (x 2)) world = none ∧ trapped (.vsqrt .vb .h 0 (x 1)) world = none := by decide +kernel
theorem met_ResultLands : (RegWrite.int 31 5 ≠ .int 30 5) ∧ (3 : BitVec 3) ≠ 0 ∧ (27 : BitVec 5).toNat < 28 ∧
    latchOf (.int 31 5) = some .I ∧ latchOf (.handle 3 5) ≠ some .A ∧ world.ctx.va.w[(3 : BitVec 2).toNat]?.isSome = true ∧
    world.ctx.k.kj[(7 : BitVec 3).toNat]?.isSome = true := by decide +kernel

/-- One entry at 0 left, one result on its way, a translate on its way, a fault of a port. -/
noncomputable def dividing : State := after (.div ⟨true, .w8⟩ 27 (x 1) (x 3)) world
noncomputable def translating : State := after (.xlat 3 (x 1) (x 2)) world
/-- A context that yields for two cycles beside another one, in a delivered cycle. -/
def waiting : State :=
  { (on (fun c => { c with wait := ⟨2, none, none⟩ })) with
    others := [{ world.ctx with place := { place with slot := 1 } }] }
def portFault : PortFault := ⟨world.ctx.trapInfo .perm .A, false⟩
def faulty (h : Option Nat) : State := on (fun c => { c with ports := [portFault], place := { c.place with handler := h } })

theorem met_ResultEventResults : ((on (fun c => c.putDue 0 [.int 1 2] 0 0)).ctx.due.map (fun (e : DueEntry) => e.rem)) = [0] ∧
    dividing.ctx.mem.pend[0]? = some ⟨.int 27 36, 0, 0⟩ ∧
    ((after (.vdivFp .va .s 27 (x 1) (x 1)) world).ctx.mem.pend.map (fun (p : Pending) => p.write matches .vec _ _ _)) = [true] ∧
    (on (fun c => { c with mem := { c.mem with pend := [⟨.cap 15 (cap 1 0), 1, 0⟩] } })).ctx.mem.pend[0]? =
      some ⟨.cap 15 (cap 1 0), 1, 0⟩ ∧ world.sweep.active = false ∧
    waiting.agenda = [] ∧ waiting.acted = false ∧ waiting.delivered = true ∧ waiting.ctx.nextFault = none ∧
    waiting.poolHolds = false ∧ waiting.peerOccupied = true ∧ waiting.ctx.wait = ⟨1 + 1, none, none⟩ ∧
    (after (.yield (.imm 1)) world).ctx.wait.yield = 1 ∧ world.peerOccupied = false ∧
    (let two := { world with others := [{ world.ctx with place := { place with slot := 1 } }] }
     two.peerOccupied = true) ∧
    translating.ctx.mem.xlats.length = 1 ∧ translating.extentHolds 1 0 = false ∧ world.extentHolds 9 0 = true ∧
    world.ctx.ports = [] ∧ (faulty (some 512)).ctx.phase = .running ∧ (faulty (some 512)).ctx.ports[0]? = some portFault ∧
    (faulty (some 512)).ctx.handler = false ∧ (faulty (some 512)).ctx.place.handler = some 512 ∧
    (faulty none).ctx.place.handler = none := by decide +kernel

/-- A store to the last bytes of a line of memory that waits to perform; a load of them; an atomic and a `cas`. -/
noncomputable def storing : State := after (.stA .w64 1 (x 6) (x 1)) (on (put (.addr 6 184)))
noncomputable def loading : State := after (.ldI ⟨false, .w64⟩ 1 (x 6) .zero) (on (put (.addr 6 184)))
noncomputable def adding : State := after (.amoAdd .w64 true 1 .cl .rlx (x 1)) world
noncomputable def swapping : State := after (.cas .w64 1 .cl .rlx (x 1)) (on (fun c => c.setSq .a [⟨.s 9, 0⟩]))

noncomputable def summing : State := after (.amoWsadd .va true 1 .cl .rlx) (on (fun c => c.setSq .va [⟨.w64 5, 0⟩]))

/-- What the first access of a queue does, and whether nothing holds it, its port check passes and no poison is read. -/
structure First where
  op : AccOp
  loc : Loc
  pieces : List Piece
  size : Nat
  id : Option Nat
  free : Bool
deriving DecidableEq

def firstOf (s : State) (l : List Access) : Option First :=
  (l.head?).map (fun (x : Access) =>
    ⟨x.op, x.loc, x.pieces, x.size, x.id, s.canPerform x && (s.badPieces x).isEmpty && !s.readsPoison x⟩)
def first (s : State) : Option First := firstOf s s.ctx.mem.outs
def plain (s : State) : Bool := s.ctx.mem.outs.all (fun (x : Access) => x.rel.isNone && x.acq.isNone)

theorem met_LoadStorePerformResults : first storing = some ⟨.store, .mem 1, [⟨0, 184, 5⟩], 8, none, true⟩ ∧
    plain storing = true ∧ 184 % 192 + 8 ≤ 192 ∧ storing.clus.clock + 1 < 65536 ∧
    storing.clus.lines = [] ∧ first (after (.stA .w16 2 .zero (x 7)) world) = some ⟨.store, .loc 0, [⟨0, 64, 0⟩], 2, none, true⟩ ∧
    first loading = some ⟨.load .i ⟨false, .w64⟩, .mem 1, [⟨0, 184, 0⟩], 8, some 0, true⟩ ∧
    plain loading = true ∧ findLine loading.core.l1 1 0 = none ∧
    first (after (.ldI ⟨true, .w8⟩ 2 .zero .zero) world) = some ⟨.load .i ⟨true, .w8⟩, .loc 0, [⟨0, 64, 0⟩], 1, some 0, true⟩ := by
  decide +kernel
theorem no_kitty (c : Ctx) (n : Nat) (h : (world.withCtx c).allCtx.all (fun d =>
    (List.range n).all (fun w => !d.liveWord w)) = true) (o m : Nat) (b : o + m ≤ 8 * n) : NoKitty (world.withCtx c) 0 o m := by
  intro d hd _ _ _ w hw _
  have h1 := List.all_eq_true.mp h d hd
  have h2 := List.all_eq_true.mp h1 w (List.mem_range.mpr (by omega))
  simpa using h2
theorem met_LoadStorePerformResults_canonical : HasCore world 0 ∧ ArrInv asked ∧ NoKitty world 0 64 288 :=
  ⟨.inl rfl, asked_arrays, no_kitty world.ctx 64 (by decide +kernel) 64 288 (by decide)⟩
/-- A load of a capability from the local array. -/
theorem met_LoadStorePerformResults_cap :
    first (after (.lcap 3 (x 2) .zero) (on (put (.cap 2 (cap 2 64))))) =
      some ⟨.lcap 3, .loc 0, [⟨0, 64, 0⟩], 16, some 0, true⟩ := by decide +kernel
theorem met_AtomicPerformResults : first adding = some ⟨.amo .add ⟨true, .w64⟩ true, .mem 1, [⟨0, 0, 5⟩], 8, some 0, true⟩ ∧
    plain adding = true ∧ first swapping = some ⟨.cas .w64 9, .mem 1, [⟨0, 0, 5⟩], 8, some 0, true⟩ ∧
    plain swapping = true ∧ adding.clus.lines = [] ∧
    first (after (.amoAdd .w64 false 1 .cl .rlx (x 1)) world) = some ⟨.amo .add ⟨true, .w64⟩ false, .mem 1, [⟨0, 0, 5⟩], 8, none, true⟩ ∧
    first (after (.amoAdd .w64 false 2 .cl .rlx (x 1)) world) = some ⟨.amo .add ⟨true, .w64⟩ false, .loc 0, [⟨0, 64, 5⟩], 8, none, true⟩ ∧
    first summing = some ⟨.wsadd true, .mem 1, [⟨0, 0, 5⟩], 288, none, true⟩ := by decide +kernel

/-- A store retired into the side log, its extent resident again; an absent extent that an access touches; one in SCM. -/
noncomputable def logged : State :=
  { after (.stA .w64 1 .zero (x 1)) { world with exts := [] } with exts := [resident 1] }
noncomputable def unlogged : State := after (.stA .w64 1 .zero (x 1)) { world with exts := [] }
noncomputable def touching : State := { after (.ldA ⟨true, .w64⟩ 1 .zero .zero) world with exts := [] }
def inScm : State := { world with exts := [{ resident 1 with state := .scm }] }

/-- The extent of buffer 1 in SCM, with a frame that its zero writes have not reached yet, or have; an absent extent with
such a frame. -/
def allocated (clean : Bool) : Frame := ⟨0, 8, 1, 0, 1, false, clean⟩
def bringing : State := { inScm with zeroing := [allocated false] }
def arriving : State := { inScm with zeroing := [allocated true] }
def zeroing : State := { world with exts := [], zeroing := [allocated false] }

theorem met_ReplayExtentResults : world.ctx.mem.slog = [] ∧
    firstOf logged logged.ctx.mem.slog = some ⟨.store, .mem 1, [⟨0, 0, 5⟩], 8, none, true⟩ ∧
    unlogged.ctx.mem.slog.map unlogged.canPerform = [false] ∧ logged.clus.lines = [] ∧ touching.extent 1 0 = none ∧
    touching.needer 1 0 = some (buffer .memory 1) ∧ (buffer .memory 1).extmap = 1 ∧ touching.allocated 1 0 = none ∧
    frameStack (buffer .memory 1) 0 = 0 ∧ touching.freeOn 0 = some 0 ∧
    zeroing.zeroing.find? (fun g => g.stack == 0 && g.num == 8 && !g.clean) = some (allocated false) ∧
    zeroing.extent 1 0 = none ∧ (0 + 1) * 3145728 ≤ 2 ^ 40 ∧
    bringing.zeroing.find? (fun g => g.stack == 0 && g.num == 8 && !g.clean) = some (allocated false) ∧
    world.extent 1 0 = some (resident 1) ∧ (resident 1).state = .hbm ∧ inScm.extent 1 0 = some { resident 1 with state := .scm } ∧
    inScm.allocated 1 0 = none ∧ bringing.allocated 1 0 = some (allocated false) ∧ (allocated false).clean = false ∧
    arriving.allocated 1 0 = some (allocated true) ∧ (allocated true).clean = true ∧
    inScm.entryOfMap 1 = some (buffer .memory 1) ∧ inScm.freeOn 0 = some 0 ∧ world.freeInScm = some 0 ∧
    world.code = .vpm9mh ∧ world.movable (resident 1) = true ∧
    world.exts.all (fun (y : Extent) => decide ((resident 1).counter ≤ y.counter)) = true ∧ translating.pinned 1 0 = true := by
  decide +kernel

/-- M queues whose only entry waits, and runs. -/
noncomputable def mzeroing : State := after (.mzero false 1) world
noncomputable def mreading : State := after .mOpStart (after (.mread false 1 1 59) descs)
noncomputable def mwriting : State := after .mOpStart (after (.mwrite .single 1 1 59) descs)
noncomputable def mstating : State := after .mOpStart (after (.mstat 1 59) descs)
def gristy : State := descs.onCtx (fun c => c) |> fun s => { s with core := { s.core with
  gristAsid := vset s.core.gristAsid 0 (some 1) } }
noncomputable def mpassing : State := after .mOpStart (after (.mpass 1 1 0 0 1 false) gristy)

theorem met_MatrixOperationResults : mzeroing.mStarts = true ∧
    (mzeroing.ctx.mem.mq.map (fun (e : MEntry) => (e.op, e.run.isSome))) = [(.zero 1 false, false)] ∧
    ((after .mOpStart mzeroing).ctx.mem.mq.map (fun (e : MEntry) => (e.op, e.run.isSome))) = [(.zero 1 false, true)] ∧
    (mreading.ctx.mem.mq.map (fun (e : MEntry) => (e.op, e.run.isSome))) = [(.read 1 false 0 16 59, true)] ∧
    (mwriting.ctx.mem.mq.map (fun (e : MEntry) => (e.op, e.run.isSome))) = [(.write 1 .single 0 16 59 0, true)] ∧
    (mstating.ctx.mem.mq.map (fun (e : MEntry) => (e.op, e.run.isSome))) = [(.stat 0 59, true)] := by decide +kernel
theorem met_MatrixOperationResults_kitty : NoKitty mreading 0 256 128 ∧ mreading.core.num = 0 :=
  ⟨fun c hc _ _ _ w hw _ => by
    have h : mreading.allCtx.all (fun d => (List.range 64).all (fun w => !d.liveWord w)) = true := by decide +kernel
    simpa using List.all_eq_true.mp (List.all_eq_true.mp h c hc) w (List.mem_range.mpr (by omega)), by decide +kernel⟩
/-- A pass of each kind that the general clause covers: INT at 16 bits, and FP64 over two tiles. -/
theorem met_MatrixPassIsExact_general : PassKind.num .int = 0 ∧ (0x05 : Nat) / 4 ^ (1 % 4) % 4 = 1 ∧ 30 + 1 < 32 ∧
    32 * 8190 + 8 * opSw 0 0 * 1 ≤ 262144 ∧ 32 * 0 + 8 * opSw 3 0 * 4 ≤ 262144 := by decide
theorem met_MatrixPassIsExact_blocks : (FVal.fin false 3 (-1)).isFinite = true ∧ ratOf (.fin false 3 (-1)) = some (3 / 2) ∧
    (FVal.nan true).isNan = true ∧ (FVal.inf true).isInf = true := by
  refine ⟨rfl, ?_, rfl, rfl⟩
  norm_num [ratOf]
theorem met_MatrixPassIsExact : (mpassing.ctx.mem.mq.map (fun (e : MEntry) => (e.op, e.run.isSome))) =
      [(.pass 1 0 1 0 false (0x100000 : BitVec 256) 0 0 0 0 0 0, true)] ∧
    (List.range 128).all (fun e => decide (vget mpassing.core.gristAsid ((32 * 0 + e) / 4096) none =
      some mpassing.ctx.place.asid)) = true := by decide +kernel

/-- The card of `copying` before it started, held on an absent extent, and a multicast card. -/
noncomputable def queuedCard : State := after (.kcopy 0 5 false false) jobs
noncomputable def cast : State := after (.kmc 2 6 0 false false) jobs
noncomputable def absentCard : State := { queuedCard with exts := [] }
def held (s : State) (c : Card) : Bool := c.ranges.any (fun r => s.rangeHeld r.1 r.2.1 r.2.2)

/-- R249: a running card that completes has written its bytes at their places: byte 10 of the row. -/
theorem test_card_completes :
    (after (.cardComplete 0) (copying.memWrite 1 202 [7])).memRead 4 4106 1 = [7] := by decide +kernel

theorem met_CardEventResults : copying.cardReady 0 = false ∧ queuedCard.cardReady 0 = true ∧ absentCard.cardReady 0 = true ∧
    queuedCard.core.cards.map (fun (c : Card) => c.started) = [false] ∧
    queuedCard.core.cards.map (fun (c : Card) => c.isJob 2) = [false] ∧ queuedCard.core.cards.map (held queuedCard) = [false] ∧
    absentCard.core.cards.map (held absentCard) = [true] ∧ copying.core.cards.map (held copying) = [false] ∧
    copying.core.cards.map (fun (c : Card) => c.started) = [true] ∧
    copying.core.cards.map (fun (c : Card) => c.kind) = [.copy false] ∧
    copying.core.cards.map (fun (c : Card) => c.dstEnt) = [some (buffer .memory 4)] ∧
    copying.core.cards.map (fun (c : Card) => c.srcEnt) = [buffer .memory 1] ∧
    copying.core.cards.map (fun (c : Card) => c.flags) = [0] ∧
    copying.core.cards.map (fun (c : Card) => c.card) = [jc 0] ∧
    copying.core.cards.map (fun (c : Card) => [c.slot, c.launch, c.db]) =
      [[copying.ctx.place.slot, copying.ctx.place.launch, 5]] ∧
    (copying.core.cards.all (fun (c : Card) => (List.range 5).all (fun i =>
      copying.chunkCause c (some (buffer .memory 4, 4096)) 96 i == 0))) = true ∧
    (jc 0).cen = false ∧ (jc 0).rbytes = 96 ∧ (jc 0).dstride = 96 ∧ copying.poison = [] ∧ copying.clus.lines = [] ∧
    cast.core.cards.map (fun (c : Card) => c.kind) = [.mcast false [(cap 4 4096, buffer .memory 4)]] ∧
    cast.core.cards.map (fun (c : Card) => c.stops) = [[]] ∧ cast.core.cards.map (fun (c : Card) => c.started) = [false] := by
  decide +kernel

/-- A spawn and a join that wait to perform; a slot that waits for its record while slot 0 is queued. -/
noncomputable def spawning : State := (after .spawn world).settleFence
noncomputable def joining : State := (after (.join (x 1)) world).settleFence
def handing : State := (on (fun c => { c with phase := .waiting })).modLaunch 1 (fun l => { l with pool := { l.pool with queue := [0] } })

theorem met_PoolEventResults : first spawning = some ⟨.spawn, .mem 4, [⟨0, 64 * 16, 0⟩], 64, none, true⟩ ∧
    spawning.ctx.mem.outs.map (fun (x : Access) => (x.rel, x.acq)) = [(some .pk, some .pk), (none, some .pk)] ∧
    spawning.curLaunch = some launch1 ∧ pool.freeSlot = some 1 ∧
    spawning.clus.lines = [] ∧ spawning.present 4 (64 * 1 / 3145728) = true ∧ handing.ctx.wait.crev = none ∧
    handing.present 4 0 = true ∧ handing.poolHeld launch1 0 64 = false ∧
    1 < pool.size ∧ 64 * pool.size ≤ 64 * 16 ∧ first joining = some ⟨.join 3, .mem 0, [], 0, none, true⟩ ∧
    handing.ctx.phase = .waiting ∧ handing.ctx.mem.outs = [] ∧ handing.ctx.mem.slog = [] ∧ handing.ctx.mem.mq = [] ∧ handing.poolShed = false ∧
    (handing.curLaunch.map (fun (l : Launch) => (handing.choose l 0).map (fun p => p.1))) = some (some 0) ∧
    pool.slots.all (fun y => y.slot != 0 || !y.parked) = true ∧ world.ctx.phase ≠ .waiting := by decide +kernel

/-- Stream 0 enabled with 16 entries and one record at its head; partition 0 has ASID 1. -/
def streamed (r : Nat) (ls : List Launch) : State :=
  { world with
    launches := ls, parts := [{ Part.blank 0 with asids := [1] }], hostMem := Memory.write [] 0 (natToBytes 128 r)
    streams := [{ Stream.blank 0 with enable := true, size := 4, tail := 1 }] }
def waitRec (v : Nat) : Nat := 3 + 1 * 2 ^ 16 + 1 * 2 ^ 32 + v * 2 ^ 128
def signalRec : Nat := 4 + 1 * 2 ^ 16 + 1 * 2 ^ 32 + 5 * 2 ^ 128
noncomputable def standing : State := after (.waitRecord 0) (streamed (waitRec 1) [])

def tenant' (st : TdiState) : State := { world with parts := [{ Part.blank 1 with tdi := st }] }

theorem met_StreamResults : world.power.phase = .on ∧ ({ world with power := { Power.reset with phase := .off } } : State).power.phase ≠ .on ∧
    (world.partOf 0).tdi = .unlocked ∧ ((tenant' .error).partOf 1).tdi = .error ∧ ((tenant' .run).partOf 1).tdi.secure = true ∧
    ((0x300 : W64).extractLsb' 8 2).toNat ≠ ((tenant' .run).streamOf 1).level ∧ (0xF0 : W64).getLsbD 0 = false ∧ (0x41 : W64).getLsbD 0 = true ∧
    (world.streamOf 0).enable = false ∧ (world.streamOf 0).owed = [] ∧ world.lostBegins = [] ∧ world.streamBusy 63 = false ∧
    (world.streamOf 0).waiting = false ∧ (∀ r ∈ [3 + 2 ^ 8, 4 + 2 ^ 9, 5 + 2 ^ 8, 5, waitRec 0, waitRec 1, signalRec],
      (streamed r []).headRecord 0 = some r ∧ (streamed r []).mayServe 0 = true) ∧
    parseCmd (3 + 2 ^ 8) = .bad ∧ parseCmd (4 + 2 ^ 9) = .bad ∧ parseCmd (5 + 2 ^ 8) = .bad ∧ parseCmd 5 = .fence ∧
    parseCmd (waitRec 1) = .wait 1 1 0 1 ∧ parseCmd signalRec = .signal false 1 1 0 5 ∧
    (streamed signalRec []).syncEntry 0 1 1 0 = some (buffer .memory 1) ∧
    (streamed signalRec []).engineHeld (buffer .memory 1) 0 8 = false ∧ (streamed signalRec []).present 1 0 = true ∧
    State.extent { streamed signalRec [] with exts := [] } 1 0 = none ∧
    (streamed (waitRec 1) []).syncWord (buffer .memory 1) 0 = 0 ∧ standing.waitingCmd 0 = some (.wait 1 1 0 1) ∧
    standing.syncEntry 0 1 1 0 = some (buffer .memory 1) := by decide +kernel

/-- A LAUNCH record of no rows, one that can start, a GRAPH record over a code buffer without a graph image. -/
def launchRow (rows : Nat) : Nat := 1 + 1 * 2 ^ 16 + rows * 2 ^ 32 + 2 ^ 40
def graphRec : Nat := 2 + 1 * 2 ^ 16 + 3 * 2 ^ 32 + 1 * 2 ^ 48
def refusal (p : Plan) : Option Nat :=
  match p with
  | .refuse c => some c
  | .wait => none
  | .stop _ => none
  | .start _ _ _ => none
def node (k : Nat) (r : LaunchRec) (st : GState) : GNode := ⟨k, r, false, st⟩
def graphed : State := { streamed 5 [] with
  graphs := [⟨2, 0, 0, none, 0, [node 0 record (.ended 0 0), node 1 { record with rows := 0 } .pending, node 2 record .running], [(0, 1)]⟩] }

theorem met_LaunchResults : (streamed (launchRow 0) []).headRecord 0 = some (launchRow 0) ∧
    parseCmd (launchRow 0) = .launch (launchRec (launchRow 0)) ∧ (streamed (launchRow 0) []).mayServe 0 = true ∧
    refusal ((streamed (launchRow 0) []).planLaunch 0 0 (launchRec (launchRow 0))) = some 1 ∧
    parseCmd (1 + 2 ^ 12) = .bad ∧ (streamed (1 + 2 ^ 12) []).mayServe 0 = true ∧
    (streamed graphRec []).headRecord 0 = some graphRec ∧ (streamed graphRec []).mayServe 0 = true ∧
    parseCmd graphRec = .graph 1 3 1 0 ∧ (streamed graphRec []).graphCause 0 1 3 1 ≠ 0 ∧
    ((streamed graphRec []).streamOf 0).restored = false ∧
    ({ world with code := .vpm9p } : State).code = .vpm9p ∧
    (graphed.graphs.map (fun (g : Graph) => g.nodes.map (fun (z : GNode) => z.bad))) = [[false, false, false]] ∧
    ({ node 1 record .pending with bad := true } : GNode).bad = true ∧
    (graphed.graphs.map (fun (g : Graph) => (g.nodeReady 1, g.nodes.map (fun (z : GNode) => z.state)))) =
      [(true, [.ended 0 0, .pending, .running])] ∧ graphed.noHigher 0 = true ∧ graphed.tdiOpen 0 = true ∧
    graphed.ljFree = true ∧
    refusal (graphed.planLaunch 0 0 { record with rows := 0 }) = some 1 ∧
    world.launchOf 1 = some launch1 ∧ launch1.node = none ∧ world.unfit launch1 = false ∧ world.launchOver launch1 = false ∧
    (after .halt world).launchOver { launch1 with pool := { pool with slots := [] } } = true ∧
    ({ launch1 with pool := { pool with slots := [] } } : Launch).verdict = (0, 0) := by decide +kernel

/-- Where an image opens (its signature and its block key are Config's), a record finds its rectangle and starts. -/
def starter : State :=
  { streamed 5 [] with spaces := [⟨1, 16, table.entries ++ [(9, { buffer .memory 9 with length := 16777216 })]⟩] }
def parts : ImageParts := ⟨0, 0, image, 0, 0, 0, 0, 0, 0⟩

theorem met_LaunchResults_start (h : starter.openImage (starter.partOf 0) (buffer .code 3) = .ok parts) :
    starter.planHead 0 record = .start parts 0 0 := by
  have a : ((starter.streamOf 0).begun.isNone && !starter.ljFree || starter.restartFirst 0) = false := by decide +kernel
  have m : starter.engineHeld (buffer .code 3) 0 (buffer .code 3).length = false := by decide +kernel
  have r : starter.recordsReach record = true := by decide +kernel
  have b : record.rangeCause = 0 := by decide +kernel
  have c : (starter.partOf 0).asids.contains record.asid = true := by decide +kernel
  have d : (starter.spaceOf record.asid).entry record.image = some (buffer .code 3) := by decide +kernel
  have e : ((buffer .code 3).kind != .code) = false := by decide +kernel
  have f : starter.claimable 0 record = true := by decide +kernel
  have g : starter.claim [] 0 record parts.info = some (0, 0) := by decide +kernel
  have k : starter.stepFive record parts.info = 0 := by decide +kernel
  simp only [State.planHead, State.planLaunch, a, b, c, d, e, f, g, h, k, m, r]
  simp

/-- A GRAPH record over a graph image, at magic 0x4B564731 in buffer 3, whose header, which Config lays out, counts one node. -/
def graphImage : State := { streamed graphRec [] with mem := Memory.write [] (memKey 3 0) (natToBytes 4 0x4B564731) }

theorem met_LaunchResults_graph (h : Config.graphCounts (graphImage.homeNum 3 0 64) = (1, 0, 0, 0)) :
    graphImage.graphCause 0 1 3 1 = 0 ∧ (graphImage.readGraph 1 3 1).1 ≠ [] := by
  have a : (graphImage.partOf 0).asids.contains 1 = true := by decide +kernel
  have b : (graphImage.spaceOf 1).entry 3 = some (buffer .code 3) := by decide +kernel
  have c : (graphImage.spaceOf 1).entry 1 = some (buffer .memory 1) := by decide +kernel
  have d : graphImage.homeNum 3 0 4 = 0x4B564731 := by decide +kernel
  have e : (buffer .code 3).extmap = 3 := rfl
  have f : (buffer .memory 1).extmap = 1 := rfl
  constructor
  · simp only [State.graphCause, a, b, c, e, f, d, State.readGraph, h]
    simp [buffer]
  · simp only [State.readGraph, h]
    decide
theorem met_LaunchResults_graph_record : graphImage.headRecord 0 = some graphRec ∧ graphImage.mayServe 0 = true ∧
    graphImage.graphs = [] ∧ ((graphImage.streamOf 0).restored, (graphImage.streamOf 0).begun) = (false, none) := by
  decide +kernel

/-- The launch with limits that its context and its clock have reached, and under an abort. -/
def limited : State := { (on (fun c => { c with st := { c.st with hang := 65536 }, ports := [portFault] })).modLaunch 1 (fun l =>
  { l with lrec := { l.lrec with hang := 1, wall := 1 }, first := some 0 }) with cycle := 16384 }
def aborting : State := { world.modLaunch 1 (fun l => { l with state := .aborting 0x10 10 }) with cycle := 160 }
def recOf (s : State) : Option LaunchRec := (s.launchOf 1).map (fun (l : Launch) => l.lrec)

theorem met_LimitStopResults : (limited.launchOf 1).map (fun (l : Launch) => l.state) = some .running ∧
    (recOf limited).map (fun r => (r.hang, r.wall)) = some (1, 1) ∧ limited.ctx.place.launch = 1 ∧
    limited.ctx.phase = .running ∧ 1 * 65536 ≤ limited.ctx.st.hang ∧
    (limited.launchOf 1).map (fun (l : Launch) => l.first) = some (some 0) ∧ 0 + 1024 * 1 ≤ limited.ticks ∧
    (recOf world).map (fun r => (r.hang, r.wall)) = some (0, 0) ∧
    (aborting.launchOf 1).map (fun (l : Launch) => l.state) = some (.aborting 0x10 10) ∧ 10 ≤ aborting.ticks ∧
    ({ aborting with cycle := 159 } : State).ticks < 10 ∧ aborting.ctx.phase = .running ∧ limited.ctx.handler = false ∧
    limited.ctx.place.handler = none ∧ limited.ctx.ports = [portFault] ∧ withHandler.ctx.handler = false ∧
    withHandler.ctx.place.handler = some 512 ∧ stopping.stopRequested stopping.ctx .preempt = true ∧
    world.stopRequested world.ctx .preempt = false ∧ stopping.savable = true ∧ stopping.core.cards = [] := by decide +kernel

/-- A launch of level 0 that gives way to a record of level 1 where an image opens. -/
def yielding : State := { starter with
  launches := [{ launch1 with lrec := { record with preempt := true, cores := 255 } }], streams := [{ Stream.blank 0 with level := 1 }] }
def wide : LaunchRec := { record with anchor := true, cores := 255, poolsz := 16 }

theorem met_LimitStopResults_preempt (h : yielding.openImage (yielding.partOf 0) (buffer .code 3) = .ok parts) :
    yielding.planHead 0 wide = .stop [1] ∧ yielding.noHigher 1 = true := by
  have a : ((yielding.streamOf 0).begun.isNone && !yielding.ljFree || yielding.restartFirst 0) = false := by decide +kernel
  have l : (yielding.streamOf 0).level = 1 := by decide +kernel
  have m : yielding.engineHeld (buffer .code 3) 0 (buffer .code 3).length = false := by decide +kernel
  have b : wide.rangeCause = 0 := by decide +kernel
  have c : (yielding.partOf 0).asids.contains wide.asid = true := by decide +kernel
  have d : (yielding.spaceOf wide.asid).entry wide.image = some (buffer .code 3) := by decide +kernel
  have e : ((buffer .code 3).kind != .code) = false := by decide +kernel
  have f : yielding.claimable 0 wide = true := by decide +kernel
  have g : yielding.claim [] 0 wide parts.info = none := by decide +kernel
  have k : (yielding.claim (yielding.stopping 0) 0 wide parts.info).isSome = false := by decide +kernel
  have v : yielding.victims 0 1 wide parts.info = some [1] := by decide +kernel
  refine ⟨?_, by decide +kernel⟩
  simp only [State.planHead, State.planLaunch, a, b, c, d, e, f, g, h, k, v, l, m]
  simp

/-- A sweep in progress on a small machine; one whose only core is paused, with every stale tag gone; an old generation. -/
noncomputable def sweeping : State := after .sweepRequest world
noncomputable def swept : State := after .sweepCorePause sweeping
def aged : State := { world with spaces := [⟨1, 8, [(1, { buffer .memory 1 with gen := 3584, gfloor := 0 })]⟩] }

theorem met_SweepResults : world.sweep.active = false ∧ sweeping.sweep.active = true ∧ sweeping.ctx.place.cluster = sweeping.core.cluster ∧
    sweeping.ctx.place.core = sweeping.core.num ∧ sweeping.ctx.phase = .running ∧ sweeping.sweepDone = false ∧
    swept.sweep.active = true ∧ swept.sweepDone = true ∧
    aged.spaces.all (fun sp => sp.entries.all (fun p => p.2.valid && decide (3584 ≤ (p.2.gen + 4096 - p.2.gfloor) % 4096))) = true ∧
    (swept.sweep.sgen.find? (fun (y : (Nat × Nat) × Nat) => y.1 == (1, 1))) = some ((1, 1), 1) := by decide +kernel

/-- A module at a step of its power: a brown-out, a stack that is being shed, hibernation, without power, restart. -/
def powered (p : Power) : State := { world with power := p }
def phased (p : PowerPhase) : State := powered { Power.reset with phase := p }
def shedding (k : Nat) : State := powered { Power.reset with brown := true, shedding := some k }

/-- Partition 1 with ASID 1, a session and a TDI in a state; its buffer 1 secure or not. -/
def tenant (st : TdiState) (secure : Bool) : State :=
  { world with
    parts := [{ Part.blank 1 with asids := [1], session := true, tdi := st, ide := true, attested := true }]
    spaces := [⟨1, 8, [(1, { buffer .memory 1 with world := secure })]⟩], launches := [], hdm := [⟨0, 0, 1, 4096, 1, 1⟩] }
def request : HostReq := ⟨1, 4096 + 1048568, 8, true, true, 0, .pcie 0 false⟩
def shedHome : State := { tenant .run true with power := { Power.reset with shed := [0] } }
def heldTdi (at_ : Nat) : State := { tenant .locked true with
  parts := [{ Part.blank 1 with asids := [1], session := true, tdi := .locked, held := some at_ }], cycle := 160
  keys := [⟨1, .held 1, 5⟩] }

theorem met_HostTdispResults : (tenant .run true).hostOpen = true ∧
    (tenant .run true).windowEntry request = some { buffer .memory 1 with world := true } ∧
    (tenant .run true).hostAccepts request { buffer .memory 1 with world := true } = true ∧ 1048568 + 8 ≤ 2 ^ 40 ∧
    (tenant .run true).engineHeld { buffer .memory 1 with world := true } 1048568 8 = false ∧
    (tenant .run true).poisonIn 1 1048568 8 = [] ∧ (tenant .run true).writeWaits request = false ∧
    (extentsOf 1048568 8).all ((tenant .run true).present 1) = true ∧
    (tenant .run false).hostAccepts request (buffer .memory 1) = true ∧ (phased (.hib 1)).hostOpen = false ∧
    State.writeWaits { tenant .run true with heldHost := [⟨request, some []⟩] } request = true ∧
    State.writeWaits { tenant .run true with heldHost := [⟨request, some []⟩] } { request with order := .cxlMem } = false ∧
    State.writeWaits { tenant .run true with heldHost := [⟨request, some []⟩] } { request with order := .pcie 0 true } = false ∧
    (tenant .run true).keySerial 0 = some 0 ∧ (tenant .run true).windowOff request = 1048568 ∧
    (tenant .run true).windowEntry { request with addr := 4096 + 1048569 } = none ∧
    (tenant .run false).hostAccepts { request with fn := 2 } (buffer .memory 1) = false ∧
    (tenant .run true).keySerial 5 = none ∧
    (tenant .locked true).hostAccepts request { buffer .memory 1 with world := true } = false ∧
    (tenant .run true).hostAccepts { request with tbit := false } { buffer .memory 1 with world := true } = false ∧
    (tenant .run true).partOfAsid 1 = some 1 ∧ shedHome.engineHeld { buffer .memory 1 with world := true } 1048568 8 = true ∧
    (world.partOf 1).session = false ∧ ((tenant .unlocked false).partOf 1).session = true ∧
    ((tenant .unlocked false).partOf 1).tdi = .unlocked ∧ ((tenant .unlocked false).lockKeys 1).isSome = true ∧
    ((tenant .locked false).partOf 1).tdi = .locked ∧ ((tenant .error false).partOf 1).tdi = .error ∧
    ((heldTdi 11).partOf 1).held = some 11 ∧ (heldTdi 11).ticks < 11 ∧ 10 ≤ (heldTdi 10).ticks ∧ 1 ≤ 63 ∧ 63 < 64 := by
  decide +kernel

/-- A token for the retry window of partition 1, staged with its value; the same with one field wrong. -/
noncomputable def tokenBody : Token :=
  { item := 7, part := 1, mgen := 0, seq := 1, vhash := LockedValue.vhash (.retry 3600), mac := 0 }
noncomputable def signed (t : Token) : Token := { t with mac := Config.tokenMac 0 t.fields }
noncomputable def tokened (t : Token) (v : LockedValue) : State := { tenant .locked false with
  mgmt := { Mgmt.reset with tokStage := t, staged := [(.retry, v)] } }
def migrating (until_ : Nat) : State := { tenant .locked false with
  parts := [{ Part.blank 1 with asids := [1], tdi := .locked, migr := some until_ }], keys := [⟨2, .sealed 1, 5⟩], cycle := 160 }

theorem met_TenancyResults : ((tenant .locked false).partOf 1).session = true ∧ (world.partOf 1).session = false ∧
    ((tenant .unlocked false).partOf 1).tdi = .unlocked ∧ LockedValue.fits (.retry 60) .retry = true ∧
    ((tenant .locked false).partOf 1).tdi = .locked ∧ ((tenant .locked false).partOf 1).migr = none ∧
    ((tenant .locked false).partOf 1).tdi.secure = true ∧ ((tenant .unlocked false).partOf 1).tdi.secure = false ∧
    (tenant .locked false).launches = [] ∧ (tenant .locked false).hostOpen = true ∧ (phased (.hib 2)).hostOpen = false ∧
    ((migrating 11).partOf 1).migr = some 11 ∧ (migrating 11).ticks < 11 ∧
    10 ≤ (migrating 10).ticks ∧ (migrating 11).lateConfirm 1 5 = false ∧
    (tenant .locked false).keys = [] ∧ (([⟨1, 7, [(2, 1)]⟩, ⟨2, 8, [(2, 2)]⟩] : List WrappedKey).map (fun k => k.index)).Nodup ∧
    ((tenant .locked false).spaceOf 2).entry 1 = none ∧ ((tenant .locked false).spaceOf 2).entry 2 = none ∧
    ((tenant .locked false).partOf 1).wrapKey ≠ 5 ∧
    (tenant .locked false).partOfAsid 2 = none ∧ ((tenant .locked false).spaceOf 2).entry 4095 = none ∧
    (BufEntry.ofBits (2 ^ 42)).valid = true ∧ (BufEntry.ofBits (2 ^ 42)).shared = false := by decide +kernel
theorem met_TenancyResults_open : (({ world with parts := [{ Part.blank 1 with keyEx := true }] } : State).partOf 1).keyEx = true ∧
    (world.partOf 1).keyEx = false ∧ ((tenant .locked false).partOf 1).attested = true ∧
    ((tenant .locked false).partOf 1).asids = [1] ∧ ((tenant .locked false).spaceOf 1).entry 1 = some (buffer .memory 1) ∧
    (buffer .memory 1).owner = 1 ∧ (buffer .memory 1).isLocal = false ∧ 0 < (buffer .memory 1).length ∧
    (tenant .unlocked false).deferred = [] ∧ (Deferred.direct 1 .retry (.retry 5)).target = (1, 1) ∧
    (tenant .unlocked false).losers 1 (.clusters [0] false) = [0] ∧ ((tenant .unlocked false).partOf 0).tdi.secure = false ∧
    (tenant .unlocked false).itemWaits 1 (.clusters [0] false) = false ∧
    State.itemWaits { tenant .unlocked false with launches := [launch1] } 1 (.clusters [0] false) = true := by decide +kernel
/-- Where the other module is authenticated and the blob unwraps, which Config decides, its key may be imported. -/
theorem met_TenancyResults_import (z : Nat) (h : Config.peerAuth (tenant .locked false).nextId = true)
    (u : Config.unwrap (Config.migrKey (tenant .locked false).nextId) 7 = some z) :
    (after (.migrationImport 1 (.keys [⟨5, 7, []⟩] [])) (tenant .locked false)).keys = [⟨5, .live 1, z⟩] := by
  have hk : unwrapKeys (tenant .locked false).nextId [⟨5, 7, []⟩] = some [(⟨5, 7, []⟩, z)] := by simp [unwrapKeys, u]
  have a : (tenant .locked false).hostOpen = true := by decide +kernel
  have b : ((tenant .locked false).partOf 1).tdi = .locked := by decide +kernel
  have c : ((tenant .locked false).partOf 1).attested = true := by decide +kernel
  simp only [after, exec, execMigrationImport, a, b, c, h, hk]
  rfl
theorem met_TenancyResults_mac : (signed tokenBody).mac = Config.tokenMac 0 (signed tokenBody).fields ∧
    ({ signed tokenBody with mac := (signed tokenBody).mac + 1 } : Token).mac ≠ Config.tokenMac 0 (signed tokenBody).fields ∧
    (signed { tokenBody with item := 9 }).mac = Config.tokenMac 0 (signed { tokenBody with item := 9 }).fields := by
  refine ⟨rfl, ?_, rfl⟩
  exact Nat.succ_ne_self _
theorem met_TenancyResults_token (t : Token) (v : LockedValue) : ((tokened t v).mgmt.tokStage = t) ∧
    (signed tokenBody).mgen = ((tokened t v).partOf 1).mgen.toNat ∧ (signed tokenBody).part = 1 ∧ (signed tokenBody).item < 9 ∧
    ((tokened t v).partOf 1).tokSeen < (signed tokenBody).seq ∧ (tokened t (.retry 3600)).stagedOf 7 = some (.retry, .retry 3600) ∧
    LockedValue.vhash (.retry 3600) = (signed tokenBody).vhash ∧
    LockedValue.vhash (.retry 3600) ≠ ({ signed tokenBody with vhash := (signed tokenBody).vhash + 1 } : Token).vhash ∧
    ({ signed tokenBody with mgen := 1 } : Token).mgen ≠ ((tokened t v).partOf 1).mgen.toNat ∧
    ({ signed tokenBody with seq := 0 } : Token).seq ≤ ((tokened t v).partOf 1).tokSeen := by
  refine ⟨rfl, rfl, rfl, by decide, Nat.zero_lt_one, rfl, rfl, (Nat.succ_ne_self _).symm, Nat.one_ne_zero, Nat.le_refl 0⟩

/-- A request of peer 3 to buffer 1; an access to an extent that peer 3 holds, one that returns a value and one that does
not; a link at its sixteenth replay. -/
def peerReq (off : Nat) (op : PeerOp) : PeerReq := ⟨3, 1, 1, off, false, op⟩
def remote : State := { world with
  exts := [{ resident 1 with state := .remote, peer := 3 }], links := [{ Link.blank 0 with up := true }] }
noncomputable def remoteLoad : State := after (.ldA ⟨true, .w64⟩ 1 .zero .zero) remote
noncomputable def remoteStore : State := after (.stA .w64 1 .zero (x 1)) remote
def replaying (n : Nat) : State := { world with links := [{ Link.blank 15 with up := true, seq := 5, replays := n }] }

theorem met_FabricResults : ({ world with code := .vpm9p } : State).code = .vpm9p ∧ world.code = .vpm9mh ∧ world.heldHost = [] ∧
    ((replaying 16).linkOf 15).seq = 5 ∧ 16 ≤ ((replaying 16).linkOf 15).replays ∧ ((replaying 15).linkOf 15).replays < 16 ∧
    7 ∉ ((replaying 15).linkOf 15).lost ∧ world.journal.close.full = false ∧ world.power.phase ≠ .off ∧
    (world.spaceOf 1).entry 7 = none ∧ (world.spaceOf 1).entry 1 = some (buffer .memory 1) ∧
    ({ world with power := { Power.reset with phase := .hib 2 } } : State).answersPaused (buffer .memory 1) 0 8 = true ∧
    world.answersPaused (buffer .memory 1) 1048568 8 = false ∧ 1048568 + peerLen (.add 8 1) ≤ (buffer .memory 1).length ∧
    (buffer .memory 1).length < 1048569 + peerLen (.read 8) ∧ (buffer .memory 1).world = (peerReq 0 (.read 8)).world ∧
    (extentsOf 1048568 8).all (world.present 1) = true ∧ world.portOkMem (buffer .memory 1) 1048568 8 = true ∧
    world.poisonIn 1 1048568 8 = [] ∧ peerLen (.write [1, 2] []) = 2 ∧ peerLen (.swap 8 1) = 8 ∧ peerLen (.cas 4 1 2) = 4 ∧
    remoteLoad.ctx.mem.outs.map (fun (y : Access) => (y.op.returns, remoteLoad.heldByPeer y 3)) = [(true, [(1, 0)])] ∧
    remoteStore.ctx.mem.outs.map (fun (y : Access) => (y.op.returns, y.op.isFence)) = [(false, false)] ∧
    remoteStore.ctx.mem.outs.map (fun (y : Access) => remoteStore.heldByPeer y 3) = [[(1, 0)]] ∧
    remoteStore.ctx.mem.slog.length < 32 := by decide +kernel

/-- Group 2 of two members with the all-gather job of member 0 in place of the card of `copying`; contributions `recv`,
the declaration `d` of member 1. -/
def decl (step : Nat) : CollDecl := ⟨step, .ag, .ws32, 0, 2, 0⟩
noncomputable def collecting (recv : List ((Nat × Nat) × List Nat)) (d : CollDecl) (st : MState) (written : Bool)
    (reports : List Nat) : State :=
  { copying with
    core := { copying.core with cards := copying.core.cards.map (fun (c : Card) => { c with kind := .coll 2 .ag .ws32 3 0 }) }
    groups := copying.groups.map (fun (g : Group) => { g with
      entry := { g.entry with waitlim := 1 }, members := [⟨1, st, 0⟩], lastStep := some 2 })
    coll := [⟨2, recv, [(1, d)], [], [], written, reports, false, [], 0⟩] }
noncomputable def gathered : State := collecting [((0, 0), [1, 2]), ((1, 0), [3, 4])] (decl 3) .active false []
noncomputable def finished : State := collecting [((0, 0), [1, 2]), ((1, 0), [3, 4])] (decl 3) .active true [1]
noncomputable def alone (st : MState) : State := collecting [((0, 0), [1, 2])] (decl 3) st false []
noncomputable def late : State := { alone .missing with cycle := 16 * (2 ^ 20 + 1) }
/-- The job while member 1 has announced a step; with its context stopped, the card saved with it; after its card has ended. -/
noncomputable def ahead (n : Nat) : State :=
  { gathered with coll := gathered.coll.map (fun (y : CollJob) => { y with steps := [(1, n)] }) }
noncomputable def stoppedJob : State := { gathered with
  core := { gathered.core with cards := [] }
  ctx := { gathered.ctx with phase := .stopped, saved := some ⟨.preempt, .running, 0, gathered.core.cards, [], [], 0, false⟩ } }
noncomputable def left : State := { gathered with core := { gathered.core with cards := [] } }

theorem met_CollectiveResults : gathered.code = .vpm9mh ∧ (gathered.groupOf 2).map (fun (g : Group) => (g.entry.rank, g.entry.g)) = some (0, 2) ∧
    (jobs.collOf 2).isNone = true ∧ (jobs.groupOf 2).map (fun (g : Group) => g.early.length) = some 0 ∧
    (left.collOf 2).isSome = true ∧ (left.jobAt 2).isNone = true ∧
    (gathered.jobAt 2).map (fun (p : Core × Nat × Card) => (p.1, p.2.1)) = some (gathered.core, 0) ∧
    (gathered.jobAt 2).map (fun (p : Core × Nat × Card) => p.2.2.job.map (fun j => (p.2.2.decl j, segCount (p.2.2.es j) (p.2.2.elems j)))) =
      some (some (decl 3, 1)) ∧
    (gathered.jobAt 2).map (fun (p : Core × Nat × Card) =>
      (gathered.cardOwner p.2.2 gathered.ctx, decide (p.2.2.db < 60), p.2.2.started)) = some (true, true, true) ∧
    gathered.clus.num = gathered.core.cluster ∧ gathered.jobWrites 2 = true ∧ finished.jobDone 2 = true ∧
    (gathered.collOf 2).map (fun (y : CollJob) => y.reports) = some [] ∧ gathered.jobStep 2 = some 3 ∧
    (alone .active).jobDone 2 = false ∧ (alone .active).jobWrites 2 = false ∧
    (alone .active).jobCause 2 = none ∧ (alone .faulted).jobCause 2 = some 0x13 ∧ late.jobCause 2 = some 0x12 ∧
    (late.groupOf 2).map (fun (g : Group) => late.missingLong g 1) = some true ∧
    (collecting [] { decl 3 with count := 3 } .active false []).jobCause 2 = some 0x15 ∧
    (ahead 4).jobCause 2 = some 0x14 ∧ (gathered.groupOf 2).bind (fun (g : Group) => g.lastStep) = some 2 ∧
    (gathered.jobAt 2).map (fun (p : Core × Nat × Card) => (p.2.2.dstEnt, p.2.2.card.dst.cursor)) = some (some (buffer .memory 4), 4096) ∧
    (buffer .memory 4).loc 0 4096 = (.mem 4, 4096) ∧ gathered.core.num = 0 ∧
    ((gathered.groupOf 2).bind (fun g => (gathered.jobAt 2).bind (fun p => p.2.2.job.bind (fun j =>
      gathered.collResult g p.2.2 j)))).map (fun r => (r.1.length, r.1.take 1, r.2)) = some (192, [1], 0) ∧
    gathered.portOk (buffer .memory 4) (.mem 4) 4096 192 = true ∧ 4096 + 192 ≤ 2 ^ 40 := by decide +kernel
theorem met_CollectiveResults_stopped : gathered.restoringIn 1 = false ∧ left.jobStep 2 = none ∧
    (stoppedJob.collOf 2).isSome = true ∧ stoppedJob.jobStep 2 = some 3 ∧ (stoppedJob.jobAt 2).isNone = true ∧
    (State.restoringIn { stoppedJob with ctx := { stoppedJob.ctx with
      saved := stoppedJob.ctx.saved.map (fun v => { v with dark := true }) } } 1) = true := by decide +kernel
theorem met_CollectiveResults_canonical : MemInv gathered :=
  ⟨by decide +kernel, by decide +kernel, (fun _ h => nomatch h), (fun _ h => nomatch h)⟩

theorem met_PowerFailResults : world.power.phase = .on ∧ world.power.brown = false ∧ world.power.shedding = none ∧
    world.restarting = false ∧ (powered { Power.reset with brown := true }).power.shedding = none ∧
    world.nextShed = some 7 ∧ world.ctx.phase.occupied = true ∧ (shedding 7).power.brown = true ∧
    (shedding 0).stackSaved 0 = false ∧ (shedding 7).stackSaved 7 = true ∧
    (powered { Power.reset with shed := [7, 6] }).power.shed.getLast? = some 6 ∧ world.heldHost = [] ∧ world.power.shed = [] ∧
    (phased (.hib 2)).allSaved = false ∧ (phased (.hib 1)).hibDrained = true ∧
    ({ phased (.hib 1) with ctx := { world.ctx with mem := { world.ctx.mem with mq := mzeroing.ctx.mem.mq } } } : State).hibDrained = false ∧
    ({ phased (.hib 2) with ctx := Ctx.vacant 0 0 0 } : State).allSaved = true ∧ (phased .off).power.phase = .off := by
  decide +kernel

/-- A sealed manifest of a small machine, valid after a power loss. -/
def stoppedLaunch : Launch := { launch1 with state := .stopped .pwrf }
def sealed : Manifest := ({ world with ctx := Ctx.vacant 0 0 0, exts := [] } : State).manifest
theorem signed_verifies (m : Manifest) : m.signed.verifies = true := by
  simp only [Manifest.verifies, Manifest.signed, beq_self_eq_true, Bool.true_and, beq_iff_eq]
  rfl
def resumable (cut : Bool) (m : Option Manifest) : State :=
  { State.reset with power := { Power.reset with phase := .restart 2, slotA := m, cut := cut } }

theorem met_RestartResults : world.mgmt.cutCause.getLsbD 0 = false ∧ world.power.phase ≠ .off ∧
    (phased .off).code = .vpm9mh ∧ (phased .off).journal.close.full = false ∧
    (powered { Power.reset with phase := .off, cut := true }).power.cut = true ∧ (phased .off).power.cut = false ∧
    ({ phased .off with code := .vpm9p } : State).power.phase = .off ∧ (phased (.restart 2)).restarting = true ∧
    world.restarting = false ∧ (phased (.restart 2)).mgmt.erestart = 1200 ∧
    (resumable false (some sealed)).power.phase = .restart 2 ∧
    sealed.lost = [] ∧ sealed.launches.length = 1 ∧
    (({ world with ctx := Ctx.vacant 0 0 0, exts := [], launches := [stoppedLaunch] } : State).manifest.launches.any
      (fun (l : Launch) => l.state.isStopped)) = true ∧
    ({ world with ctx := Ctx.vacant 0 0 0, exts := [], launches := [] } : State).manifest.launches = [] ∧ (resumable false (some sealed)).regions = [] ∧
    (resumable true (some sealed)).power.cut = true ∧ (resumable false none).power.valid.isNone = true := by decide +kernel
theorem met_RestartResults_valid : (resumable false (some sealed.signed)).power.valid = some sealed.signed := by
  have h : (sealed.signed.seq == Power.reset.counter + 1) = true := by decide +kernel
  have a : (resumable false (some sealed.signed)).power.slotA = some sealed.signed := rfl
  have b : (resumable false (some sealed.signed)).power.slotB = none := rfl
  have c : (resumable false (some sealed.signed)).power.counter = Power.reset.counter := rfl
  simp only [Power.valid, a, b, c, Option.toList, List.append_nil, List.filter, signed_verifies, Bool.true_and, h]

/-- Region 47 at a number of samples since its last rise, a damage integral and a slot count. -/
def heated (d slots since lost : Nat) : State :=
  { world with regions := [{ Region.blank 47 with d := d, slots := slots, since := since, lost := lost }] }
def capped : State := { world with mgmt := { Mgmt.reset with pcap := 8 } }

theorem met_ThermalResults : 47 < 48 ∧ (heated 0 16 0 0).journal.close.full = false ∧
    (heated 0 16 0 0).regions.all (fun (r : Region) => decide (r.lost < 2) && !r.shed) = true ∧
    ((heated 0 16 0 0).regionOf 47).sampled * 1000 ≤ (heated 0 16 0 0).ticks ∧
    (after (.thermalSample 47 74) (heated 0 16 0 0)).ticks < ((after (.thermalSample 47 74) (heated 0 16 0 0)).regionOf 47).sampled * 1000 ∧
    ((heated 0 16 0 0).regionOf 47).lost = 0 ∧
    ((heated 0 16 0 1).regionOf 47).lost = 1 ∧ ((heated 0 16 0 1).regionOf 47).shed = false ∧
    (heated 0 16 0 1).power.phase = .on ∧ (74 : Int) < 75 ∧ 75 + 5 * ((11 : Nat) : Int) ≤ 130 ∧ (130 : Int) < 80 + 5 * ((11 : Nat) : Int) ∧
    (135 : Int) ≤ 135 ∧ ((after (.thermalSample 47 74) (heated (2 ^ 26) 16 0 0)).regionOf 47).slots = 15 ∧
    ((after (.thermalSample 47 74) (heated 1 15 99 0)).regionOf 47).slots = 16 ∧
    ((after (.thermalSample 47 74) (heated 1 15 98 0)).regionOf 47).slots = 15 ∧
    capped.cycle % 16 = 0 ∧ capped.slotsFor 0 = 8 ∧ 8 < patternSlots (capped.findCluster 0).pattern ∧
    capped.ctx.place.cluster = 0 ∧ capped.ctx.phase.occupied = true ∧ ({ capped with cycle := 17 } : State).cycle % 16 ≠ 0 ∧
    9 ≠ capped.slotsFor 0 ∧ 8 ∈ [8, 12, 16] ∧ 9 ∉ [8, 12, 16] := by decide +kernel
theorem met_PatternFollowsSlots : 1 ≤ (world.regionOf (clusterRegion 191)).slots ∧ 1 ≤ world.mgmt.pcap ∧ 191 < 192 ∧
    world.cycle % 16 = 0 ∧ ({ world with cycle := 1 } : State).cycle % 16 ≠ 0 ∧ (15 + 1) * 16 / 16 = 16 := by decide +kernel

/-- An open correction of a cache at location 5 first met at tick 0; a module at cycle `c`. -/
noncomputable def correcting (c : Nat) : State := { after (.correctedError .l2 5 9) world with cycle := c }
noncomputable def fixes (n : Nat) : State :=
  { world with corrections := List.replicate n ⟨false, Config.rowOf 5, 0⟩ }
def spoiled : State := { world with poison := [memKey 1 48], patrol := [memKey 1 48] }
def range1 : PhysRange := ⟨false, 0, 0, 1⟩
def scrubbing (c : Nat) : State := { world with scrubs := [⟨range1, 0, []⟩], cycle := c }
def refreshing (c : Nat) : State := { world with refreshed := [(3, 0)], cycle := c }

theorem met_ErrorResults : ((correcting 16).journal.openEntry.map (fun (e : JEntry) => ([e.type, e.loc, e.synd, e.count, e.first], e.src))) =
      some ([1, 5, 9, 1, 0], .l2) ∧ ¬ (JSrc.l2 = JSrc.hbm ∨ JSrc.l2 = JSrc.scm) ∧ world.journal.openEntry = none ∧
    world.journal.full = false ∧ 0 + 2 ^ 24 ≤ (correcting (16 * 2 ^ 24)).ticks ∧ (correcting (16 * 2 ^ 24 - 1)).ticks < 0 + 2 ^ 24 ∧
    memKey 1 (95 / sectorBytes * sectorBytes) ∈ spoiled.poison ∧ memKey 1 (96 / sectorBytes * sectorBytes) ∉ spoiled.poison ∧
    memKey 1 48 ∈ spoiled.patrol ∧ spoiled.patrolMay (memKey 1 48) = true ∧ memKey 1 48 / 2 ^ 40 = 1 ∧ memKey 1 48 % 2 ^ 40 = 48 ∧
    world.hasUnit .scm = true ∧ State.hasUnit { world with code := .vpm9p } .scm = false ∧
    world.zeroing.find? (fun (f : Frame) => f.stack == 0 && f.num == 7 && !f.clean) = none ∧
    bringing.zeroing.find? (fun (f : Frame) => f.stack == 0 && f.num == 8 && !f.clean) = some ⟨0, 8, 1, 0, 1, false, false⟩ ∧
    (bringing.extent 1 0).map (fun (e : Extent) => e.state) = some .scm ∧
    world.scrubs = [] ∧ ((scrubbing 0).scrubs.find? (fun (q : ScrubReq) => q.range == range1)) = some ⟨range1, 0, []⟩ ∧
    (scrubbing 0).ticks < 0 + (scrubbing 0).passTicks range1 ∧
    0 + (scrubbing (2 ^ 51)).passTicks range1 ≤ (scrubbing (2 ^ 51)).ticks ∧ (scrubbing 0).journal.close.full = false ∧
    (refreshing 0).refreshed.find? (fun (y : Nat × Nat) => y.1 == 3) = some (3, 0) ∧ 0 + 1560 ≤ (refreshing 1560).cycle ∧
    (refreshing 1559).cycle < 0 + 1560 ∧ (refreshing 6239).cycle < 0 + 6240 := by decide +kernel
theorem met_ErrorResults_row : ((fixes 14).corrections.filter (fun (y : RowFix) =>
      decide ((fixes 14).ticks < y.at_ + 2 ^ 30) && y.scm == false && y.row == Config.rowOf 5)).length = 14 ∧
    ((fixes 15).corrections.filter (fun (y : RowFix) =>
      decide ((fixes 15).ticks < y.at_ + 2 ^ 30) && y.scm == false && y.row == Config.rowOf 5)).length = 15 ∧
    world.retired = [] := by
  refine ⟨?_, ?_, rfl⟩ <;> simp [fixes, world, State.reset, State.ticks]

/-- A journal whose entry 0 is closed and whose head has been read; an update that waits for its heartbeat. -/
noncomputable def headed : State := after .ejhead (after .journalEntryTimeout (correcting (16 * 2 ^ 24)))
def updating (c : Nat) : State := { world with mgmt := { Mgmt.reset with fwNew := some (7, 0) }, cycle := c }

theorem met_ManagementResults : headed.journal.headIndex = some 0 ∧ headed.journal.heads = [0] ∧ headed.journal.openEntry = none ∧
    headed.journal.full = false ∧ 1 ∉ headed.journal.heads ∧ world.power.phase = .on ∧ world.mgmt.fwNew = none ∧
    (updating 0).mgmt.fwNew = some (7, 0) ∧ (updating 0).ticks < 0 + 50000000 ∧ 0 + 50000000 ≤ (updating 800000000).ticks ∧
    (phased .off).power.phase = .off ∧ (phased (.hib 2)).power.phase = .hib 2 ∧ MgmtReg.portFn (.cmdBase 63) = some 63 ∧
    63 < 64 ∧ world.groupFits (GroupEntry.ofBits 1) = true ∧ world.power.shed = [] ∧ world.power.shedding = none ∧
    hibOk 470 480 [7, 6, 5, 4, 3, 2, 1] 60 1200 = true ∧ hibOk 450 455 [7] 40 600 = true ∧ hibOk 490 495 [0] 200 3600 = true ∧
    hibOk 449 480 [7] 60 1200 = false ∧ (powered { Power.reset with shed := [7] }).power.shed ≠ [] ∧
    world.coll = [] ∧ gathered.coll.any (fun (j : CollJob) => j.gid == 2) = true ∧ natBit 1 0 = true ∧ natBit 2 0 = false := by
  decide +kernel
theorem met_ManagementResults_update (h v x : Nat) (ok : Config.versionOk h v = true)
    (sig : Config.sigOk Config.fwKey h x = true) : (after (.fwUpdate h h x v) world).mgmt.fwNew = some (h, 0) := by
  simp [after, exec, execFwUpdate, moduleOnly, State.startUpdate, ok, sig, world, State.reset, Power.reset, Mgmt.reset, State.ticks]

end Sys2Proof.Tests
end

/-! SUPPORT. Integer division (R24, R36, R114, R137): the model's arithmetic on numbers is that of words, the elements
and zero lanes of a vector, what a division answers, and what a trap leaves alone. -/

namespace Sys2Proof.Proofs

open Sys2Proof Sys2Proof.Machine Sys2Proof.Safety Sys2Proof.Laws

/-! ### Numbers as words of a width -/

theorem signedVal_eq_toInt (w n : Nat) : signedVal w n = (BitVec.ofNat w n).toInt := by
  simp only [signedVal]
  rw [BitVec.toInt_eq_toNat_cond, BitVec.toNat_ofNat]
  cases w with
  | zero => simp [Nat.mod_one]
  | succ k =>
    rw [Nat.pow_succ, Nat.add_sub_cancel]
    split <;> split <;> omega

theorem intVal_toNat (uns : Bool) {w : Nat} (x : BitVec w) :
    intVal uns w x.toNat = if uns then (x.toNat : Int) else x.toInt := by
  unfold intVal
  rw [signedVal_eq_toInt, BitVec.ofNat_toNat, BitVec.setWidth_eq, Nat.mod_eq_of_lt x.isLt]

theorem ofNat_wrapInt (w : Nat) (z : Int) : BitVec.ofNat w (wrapInt w z) = BitVec.ofInt w z := by
  apply BitVec.eq_of_toNat_eq
  rw [BitVec.toNat_ofNat, BitVec.toNat_ofInt]
  unfold wrapInt
  exact Nat.mod_eq_of_lt ((Int.toNat_lt (Int.emod_nonneg _ (by positivity))).2
    (Int.emod_lt_of_pos _ (by positivity)))

/-- A result of width `w` extends by the sign of its type (R93). -/
theorem extend64_eq (uns : Bool) (w n : Nat) :
    extend64 (!uns) w n =
      if uns then (BitVec.ofNat w n).setWidth 64 else (BitVec.ofNat w n).signExtend 64 := by
  unfold extend64
  cases uns with
  | false => rw [signedVal_eq_toInt]; rfl
  | true =>
    apply BitVec.eq_of_toNat_eq
    simp [BitVec.toNat_setWidth]

/-- A value of an integer type is its own clamp (R35). -/
theorem clampInt_intVal (uns : Bool) {w : Nat} (x : BitVec w) :
    clampInt uns w (intVal uns w x.toNat) = intVal uns w x.toNat := by
  rw [intVal_toNat]
  unfold clampInt intMin intMax
  cases uns with
  | true =>
    have := x.isLt
    simp only [if_true]
    omega
  | false =>
    have lo := BitVec.le_toInt x
    have hi := BitVec.toInt_lt (x := x)
    simp only [Bool.false_eq_true, if_false, Nat.cast_pow, Nat.cast_ofNat]
    omega

/-! ### Quotients and remainders of words (R36) -/

theorem tdiv_toNat {w : Nat} (x y : BitVec w) : Int.tdiv (x.toNat : Int) (y.toNat : Int) = ((x / y).toNat : Int) := by
  rw [BitVec.toNat_udiv, Int.ofNat_tdiv]

theorem ofNat_iDiv (uns : Bool) {w : Nat} (x y : BitVec w) :
    BitVec.ofNat w (iDiv uns w x.toNat y.toNat) = if uns then x / y else x.sdiv y := by
  unfold iDiv
  rw [ofNat_wrapInt, intVal_toNat, intVal_toNat]
  cases uns with
  | true =>
    simp only [if_true]
    rw [tdiv_toNat, BitVec.ofInt_natCast, BitVec.ofNat_toNat, BitVec.setWidth_eq]
  | false => exact BitVec.eq_of_toInt_eq (by simp [BitVec.toInt_sdiv])

theorem ofNat_iRem (uns : Bool) {w : Nat} (x y : BitVec w) :
    BitVec.ofNat w (iRem uns w x.toNat y.toNat) = if uns then x % y else x.srem y := by
  unfold iRem
  rw [ofNat_wrapInt, intVal_toNat, intVal_toNat]
  cases uns with
  | true => simp [← Int.ofNat_tmod, ← BitVec.toNat_umod]
  | false => simp [← BitVec.toInt_srem]

/-- Only the minimum by -1 has a quotient that its type cannot hold. -/
theorem tdiv_toInt {w : Nat} (hw : 0 < w) (x y : BitVec w)
    (h : ¬ (x.toInt = -(2 : Int) ^ (w - 1) ∧ y.toInt = -1)) : Int.tdiv x.toInt y.toInt = (x.sdiv y).toInt := by
  refine (BitVec.toInt_sdiv_of_ne_or_ne x y ?_).symm
  by_contra hxy
  obtain ⟨rfl, rfl⟩ : x = BitVec.intMin w ∧ y = -1#w := by simpa [not_or] using hxy
  exact h ⟨BitVec.toInt_intMin_of_pos hw, by simp [BitVec.neg_one_eq_allOnes, BitVec.toInt_allOnes, hw]⟩

theorem ofNat_iDivSat (uns : Bool) {w : Nat} (hw : 0 < w) (x y : BitVec w) :
    BitVec.ofNat w (iDivSat uns w x.toNat y.toNat) =
      if uns then x / y
      else if x.toInt = -(2 : Int) ^ (w - 1) ∧ y.toInt = -1 then BitVec.ofInt w ((2 : Int) ^ (w - 1) - 1)
      else x.sdiv y := by
  unfold iDivSat iSat
  rw [ofNat_wrapInt, intVal_toNat, intVal_toNat]
  cases uns with
  | true =>
    have keep := clampInt_intVal true (x / y)
    rw [intVal_toNat] at keep
    simp only [if_true] at keep ⊢
    rw [tdiv_toNat, keep, BitVec.ofInt_natCast, BitVec.ofNat_toNat, BitVec.setWidth_eq]
  | false =>
    simp only [Bool.false_eq_true, if_false]
    split
    · next h =>
      obtain ⟨hx, hy⟩ := h
      have sat : clampInt false w (2 ^ (w - 1)) = 2 ^ (w - 1) - 1 := by
        simp [clampInt, intMin, intMax]
      rw [hx, hy, Int.tdiv_neg, Int.tdiv_one, Int.neg_neg, sat]
    · next h =>
      have keep := clampInt_intVal false (x.sdiv y)
      rw [intVal_toNat] at keep
      simp only [Bool.false_eq_true, if_false] at keep
      rw [tdiv_toInt hw x y h, keep, BitVec.ofInt_toInt]

/-! ### Elements of a vector register (R127) -/

theorem toNat_el (v : V2048) (e w : Nat) : (el v e w).toNat = elemOf v.toNat e w :=
  BitVec.extractLsb'_toNat _ _ _

theorem ofElems_lt (w : Nat) (l : List Nat) : ofElems w l < 2 ^ (w * l.length) := by
  induction l with
  | nil => exact Nat.one_pos
  | cons x xs ih =>
    have hx : x % 2 ^ w < 2 ^ w := Nat.mod_lt _ (by positivity)
    calc ofElems w (x :: xs) = x % 2 ^ w + 2 ^ w * ofElems w xs := rfl
      _ < 2 ^ w * (ofElems w xs + 1) := by rw [Nat.mul_add, Nat.mul_one]; omega
      _ ≤ 2 ^ w * 2 ^ (w * xs.length) := Nat.mul_le_mul_left _ ih
      _ = 2 ^ (w * (x :: xs).length) := by rw [← Nat.pow_add, List.length_cons, Nat.mul_succ, Nat.add_comm]

theorem elemOf_ofElems (w : Nat) (l : List Nat) (e : Nat) (h : e < l.length) :
    elemOf (ofElems w l) e w = l[e] % 2 ^ w := by
  unfold elemOf natField
  rw [Nat.shiftRight_eq_div_pow]
  induction l generalizing e with
  | nil => cases h
  | cons x xs ih =>
    cases e with
    | zero => simp [ofElems, Nat.add_mul_mod_self_left]
    | succ e =>
      have drop : ofElems w (x :: xs) / 2 ^ w = ofElems w xs := by
        rw [ofElems, Nat.add_mul_div_left _ _ (by positivity), Nat.div_eq_of_lt (Nat.mod_lt _ (by positivity)),
          Nat.zero_add]
      rw [Nat.mul_succ, Nat.add_comm, Nat.pow_add, ← Nat.div_div_eq_div_mul, drop]
      exact ih e (Nat.lt_of_succ_lt_succ h)

theorem el_vecOf (w : Nat) (l : List Nat) (e : Nat) (h : e < l.length) (fits : w * l.length ≤ 2048) :
    el (vecOf w l) e w = BitVec.ofNat w l[e] := by
  apply BitVec.eq_of_toNat_eq
  have small := (ofElems_lt w l).trans_le (Nat.pow_le_pow_right (by decide) fits)
  unfold vecOf
  rw [toNat_el, BitVec.toNat_ofNat, Nat.mod_eq_of_lt small, elemOf_ofElems w l e h, BitVec.toNat_ofNat]

theorem el_map2 (w : Nat) (f : Nat → Nat → Nat) (x y : V2048) (e : Nat) (h : e < 2048 / w) :
    el (map2 w f x y) e w = BitVec.ofNat w (f (el x e w).toNat (el y e w).toNat) := by
  unfold map2
  have len : ((elems w x.toNat).zipWith f (elems w y.toNat)).length = 2048 / w := by
    simp [elems, elemCount]
  rw [el_vecOf w _ e (len ▸ h) (len ▸ Nat.mul_div_le _ _)]
  simp [elems, toNat_el]

/-! ### Zero divisors of a vector (R137) -/

theorem bits_pos (w : Width) : 0 < w.bits := by cases w <;> decide
theorem perLane_pos (w : Width) : 0 < 64 / w.bits := by cases w <;> decide

/-- The elements of a lane fill it. -/
theorem bits_mul_perLane (w : Width) : w.bits * (64 / w.bits) = 64 := by cases w <;> decide

/-- A vector has 32 lanes of elements. -/
theorem elemCount_eq_lanes (w : Width) : 2048 / w.bits = 32 * (64 / w.bits) := by cases w <;> decide

theorem laneOf_eq (w : Width) (e : Nat) : w.bits * e / 64 = e / (64 / w.bits) := by
  conv_lhs => rw [← bits_mul_perLane w]
  exact Nat.mul_div_mul_left _ _ (bits_pos w)

theorem laneOf_lt (w : Width) {e : Nat} (h : e < 2048 / w.bits) : w.bits * e / 64 < 32 := by
  rw [laneOf_eq, Nat.div_lt_iff_lt_mul (perLane_pos w)]
  exact elemCount_eq_lanes w ▸ h

theorem testBit_ofElems_one (l : List Nat) (k : Nat) (h : k < l.length) :
    (ofElems 1 l).testBit k = decide (l[k] % 2 = 1) := by
  have bit := elemOf_ofElems 1 l k h
  rw [elemOf, natField, Nat.one_mul, Nat.shiftRight_eq_div_pow, Nat.pow_one] at bit
  rw [Nat.testBit_eq_decide_div_mod_eq, bit]

theorem getLsbD_zeroLanes (w : Width) (v : V2048) (k : Nat) (hk : k < 32) :
    (zeroLanes w.bits v).getLsbD k = true ↔ ∃ e, e < 2048 / w.bits ∧ w.bits * e / 64 = k ∧ el v e w.bits = 0 := by
  have marked : (zeroLanes w.bits v).getLsbD k = true ↔
      ∃ j < 64 / w.bits, el v (k * (64 / w.bits) + j) w.bits = 0 := by
    unfold zeroLanes
    rw [BitVec.getLsbD_ofNat, testBit_ofElems_one _ k (by simpa using hk)]
    simp [hk, ← BitVec.toNat_inj, toNat_el, apply_ite (· % 2)]
  rw [marked]
  have hp := perLane_pos w
  constructor
  · rintro ⟨j, hj, hz⟩
    refine ⟨k * (64 / w.bits) + j, ?_, ?_, hz⟩
    · rw [elemCount_eq_lanes]
      calc k * (64 / w.bits) + j < (k + 1) * (64 / w.bits) := by rw [Nat.succ_mul]; omega
        _ ≤ 32 * (64 / w.bits) := Nat.mul_le_mul_right _ hk
    · rw [laneOf_eq, Nat.mul_comm, Nat.mul_add_div hp, Nat.div_eq_of_lt hj, Nat.add_zero]
  · rintro ⟨e, -, rfl, hz⟩
    rw [laneOf_eq]
    exact ⟨e % (64 / w.bits), Nat.mod_lt _ hp, by rwa [Nat.div_add_mod']⟩

theorem zeroLanes_eq_zero_iff (w : Width) (v : V2048) :
    zeroLanes w.bits v = 0 ↔ ∀ e, e < 2048 / w.bits → el v e w.bits ≠ 0 := by
  constructor
  · intro h e he hz
    have := (getLsbD_zeroLanes w v _ (laneOf_lt w he)).2 ⟨e, he, rfl, hz⟩
    rw [h] at this
    simp at this
  · intro h
    refine BitVec.eq_of_getLsbD_eq fun k hk => ?_
    rw [BitVec.ofNat_eq_ofNat, BitVec.getLsbD_zero, ← Bool.not_eq_true, getLsbD_zeroLanes w v k hk]
    rintro ⟨e, he, -, hz⟩
    exact h e he hz

/-! ### What a division does (R24, R114, R137) -/

/-- A scalar division traps on a divisor of 0, and otherwise sends its result on its way. -/
theorem iDivide_eq (ty : XType) (f : Nat → Nat → Nat) (d : BitVec 5) (a b : Src) (s : State) :
    let x : BitVec ty.w.bits := (s.ctx.rdI 0 a).1.setWidth ty.w.bits
    let y : BitVec ty.w.bits := (s.ctx.rdI (qCount a) b).1.setWidth ty.w.bits
    let r : BitVec ty.w.bits := BitVec.ofNat ty.w.bits (f x.toNat y.toNat)
    iDivide ty f d a b s =
      if y = 0 then raiseC s .idiv .I
      else .next (pended s .i (qCount a + qCount b) (.int d (if ty.uns then r.setWidth 64 else r.signExtend 64))
        ((s.ctx.rdI 0 a).2 ||| (s.ctx.rdI (qCount a) b).2) 0) := by
  simp only [iDivide, Ctx.rdI2, pended, extend64_eq, ← BitVec.toNat_inj, BitVec.toNat_setWidth, BitVec.ofNat_eq_ofNat,
    BitVec.toNat_ofNat, Nat.zero_mod]

/-- A vector division traps with the lanes of its zero divisors, and otherwise sends its result on its way. -/
theorem vDivide_eq (u : VUnit) (ty : XType) (f : Nat → Nat → Nat) (d : BitVec 5) (a b : Src) (s : State)
    (ha : s.ctx.wrongPop u 0 a = false) (hb : s.ctx.wrongPop u (qCount a) b = false) :
    let x : V2048 := (s.ctx.rdV u ty.w.bits 0 a).1
    let y : V2048 := (s.ctx.rdV u ty.w.bits (qCount a) b).1
    vDivide u ty f d a b s =
      if zeroLanes ty.w.bits y = 0 then
        .next (pended s u.dunit (qCount a + qCount b) (.vec u d (map2 ty.w.bits f x y))
          ((s.ctx.rdV u ty.w.bits 0 a).2 ||| (s.ctx.rdV u ty.w.bits (qCount a) b).2) 0)
      else raise s { s.ctx.trapInfo .idiv u.unit with lanes := some (zeroLanes ty.w.bits y) } := by
  simp only [vDivide, vSrc2, ha, hb, Bool.or_self, Bool.false_eq_true, if_false, vPutFE, pended]

/-! ### A register that waits for its result is empty (R24) -/

theorem isFull_setEmpty_int (c : Ctx) (d : BitVec 5) (h : d.toNat < 28) :
    (c.setEmpty (.i d)).isFull (.i d) = false := by
  simp [Ctx.setEmpty, Ctx.isFull, vget, vmod, h]

theorem isFull_putFE_int (c : Ctx) (d : BitVec 5) (v : W64) (t : Taint) (fl : BitVec 5) (h : d.toNat < 28) :
    (c.putFE (.int d v) t fl).isFull (.i d) = false := by
  simp only [Ctx.putFE, RegWrite.ref, h, if_true]
  exact isFull_setEmpty_int _ d h

/-! ### What a trap leaves alone (R327, R337) -/

theorem memberFaulted_ctx (s : State) (g : Group) : (s.memberFaulted g).ctx = s.ctx := by
  unfold State.memberFaulted State.sendFabric
  split <;> rfl

theorem launchFaulted_ctx (s : State) (launch asid : Nat) : (s.launchFaulted launch asid).ctx = s.ctx := by
  unfold State.launchFaulted
  generalize (s.groupsOf asid).filter _ = l
  induction l generalizing s with
  | nil => rfl
  | cons g r ih => exact (ih _).trans (memberFaulted_ctx s g)

theorem sameFiles_freeze (c : Ctx) (s : State) : SameFiles c s.freeze.ctx ↔ SameFiles c s.ctx := by
  unfold State.freeze
  rw [launchFaulted_ctx]
  exact Iff.rfl

theorem freeze_fflags (s : State) : s.freeze.ctx.st.fflags = s.ctx.st.fflags := by
  unfold State.freeze
  rw [launchFaulted_ctx]
  rfl

theorem sameBytes_onCtx (s : State) (f : Ctx → Ctx) : SameBytes s (s.onCtx f) :=
  ⟨fun _ _ => rfl, fun _ _ => rfl, fun _ _ => rfl⟩

/-- A context with its fault record written (R326). The record is an argument, so that a proof about the other fields
never evaluates the numbers that make it up. -/
def recorded (c : Ctx) (record : BitVec 512) : Ctx := { c with st := { c.st with frec := record } }

theorem recorded_keeps (c : Ctx) (record : BitVec 512) :
    SameFiles c (recorded c record) ∧ (recorded c record).st.fflags = c.st.fflags :=
  ⟨⟨rfl, rfl, rfl, rfl, rfl, rfl, rfl, rfl⟩, rfl⟩

/-- A context as its handler at `h` begins (R327). -/
def atHandler (c : Ctx) (h : Nat) : Ctx :=
  let c1 := { c with handler := true, savedPath := c.path, path := 0, pc := h, bubblesLeft := 0 }
  { c1 with bun := c1.freshBun h }

theorem atHandler_recorded_keeps (c : Ctx) (record : BitVec 512) (h : Nat) :
    SameFiles c (atHandler (recorded c record) h) ∧ (atHandler (recorded c record) h).st.fflags = c.st.fflags ∧
      (atHandler (recorded c record) h).due = c.due ∧ (atHandler (recorded c record) h).mem = c.mem :=
  ⟨⟨rfl, rfl, rfl, rfl, rfl, rfl, rfl, rfl⟩, rfl, rfl, rfl⟩

theorem takeTrap_handler_keeps (s : State) (i : TrapInfo) (h1 : s.ctx.handler = false)
    (h2 : s.ctx.place.handler ≠ none) :
    SameBytes s (s.takeTrap i) ∧ SameFiles s.ctx (s.takeTrap i).ctx ∧
      (s.takeTrap i).ctx.st.fflags = s.ctx.st.fflags ∧ (s.takeTrap i).ctx.due = s.ctx.due ∧
      (s.takeTrap i).ctx.mem = s.ctx.mem := by
  obtain ⟨h, hh⟩ := Option.ne_none_iff_exists'.1 h2
  have taken : s.takeTrap i = s.onCtx (fun c => atHandler (recorded c (frecBits i c.st.bundles)) h) := by
    simp only [State.takeTrap, h1, hh, State.onCtx, atHandler, recorded]
  rw [taken, State.onCtx_ctx]
  exact ⟨sameBytes_onCtx _ _, atHandler_recorded_keeps s.ctx _ h⟩

/-- Whether a handler takes it or the context freezes, a trap writes no register and no flag. -/
theorem takeTrap_keeps_files (s : State) (i : TrapInfo) :
    SameFiles s.ctx (s.takeTrap i).ctx ∧ (s.takeTrap i).ctx.st.fflags = s.ctx.st.fflags := by
  by_cases fatal : s.ctx.handler = true ∨ s.ctx.place.handler = none
  · have taken : s.takeTrap i = (s.onCtx (fun c => recorded c (frecBits i c.st.bundles))).freeze :=
      takeTrap_fatal s i fatal
    rw [taken, sameFiles_freeze, freeze_fflags]
    exact recorded_keeps s.ctx _
  · obtain ⟨h1, h2⟩ := not_or.1 fatal
    obtain ⟨-, files, flags, -, -⟩ := takeTrap_handler_keeps s i (Bool.eq_false_iff.2 h1) h2
    exact ⟨files, flags⟩

/-- A state whose current bundle names the trap of a word (R16, R95). -/
def named (s : State) (i : TrapInfo) : State := s.onCtx (fun c => { c with bun := { c.bun with trap := some i } })

/-- A raised trap is taken, and the bundle names it. -/
theorem raise_eq_named (s : State) (i : TrapInfo) : raise s i = .next (named (s.takeTrap i) i) := rfl

theorem named_trap (s : State) (i : TrapInfo) : (named s i).ctx.bun.trap = some i := rfl
theorem sameFiles_named (c : Ctx) (s : State) (i : TrapInfo) : SameFiles c (named s i).ctx ↔ SameFiles c s.ctx :=
  Iff.rfl
theorem sameBytes_named (s t : State) (i : TrapInfo) : SameBytes s (named t i) ↔ SameBytes s t := Iff.rfl
theorem named_fflags (s : State) (i : TrapInfo) : (named s i).ctx.st.fflags = s.ctx.st.fflags := rfl
theorem named_due (s : State) (i : TrapInfo) : (named s i).ctx.due = s.ctx.due := rfl
theorem named_mem (s : State) (i : TrapInfo) : (named s i).ctx.mem = s.ctx.mem := rfl

/-- A raised trap names itself and writes no register and no flag; where a handler takes it, it changes no byte of
memory, no due entry and no access either (R36, R327). -/
theorem raise_keeps {s t : State} {i : TrapInfo} (h : raise s i = .next t) :
    t.ctx.bun.trap = some i ∧ SameFiles s.ctx t.ctx ∧ t.ctx.st.fflags = s.ctx.st.fflags ∧
      (s.ctx.handler = false → s.ctx.place.handler ≠ none →
        SameBytes s t ∧ t.ctx.due = s.ctx.due ∧ t.ctx.mem = s.ctx.mem) := by
  rw [raise_eq_named] at h
  obtain rfl : named (s.takeTrap i) i = t := by injection h
  obtain ⟨files, flags⟩ := takeTrap_keeps_files s i
  refine ⟨named_trap _ i, (sameFiles_named _ _ i).2 files, (named_fflags _ i).trans flags, fun h1 h2 => ?_⟩
  obtain ⟨bytes, -, -, due, mem⟩ := takeTrap_handler_keeps s i h1 h2
  exact ⟨(sameBytes_named _ _ i).2 bytes, (named_due _ i).trans due, (named_mem _ i).trans mem⟩

/-! ### Integer division, scalar and vector -/

/-- Settles O23: `iDivide_eq` and `vDivide_eq` say what a division answers, `ofNat_iDiv`, `ofNat_iRem` and
`ofNat_iDivSat` turn its numbers into words, and `raise_keeps` is the frame of its trap. -/
theorem divisionResults : Obligations.DivisionResults := by
  refine ⟨fun ty d a b s hd => ?_, fun u ty d a b s _ ha hb => ?_, fun s t i h => ?_⟩
  · intro c n t xw yw put hi
    have trap (f : Nat → Nat → Nat) (h : yw = 0) : iDivide ty f d a b s = raiseC s .idiv .I :=
      (iDivide_eq ty f d a b s).trans (if_pos h)
    have result (f : Nat → Nat → Nat) (h : yw ≠ 0) :
        iDivide ty f d a b s = .next (put (BitVec.ofNat n (f xw.toNat yw.toNat))) :=
      (iDivide_eq ty f d a b s).trans (if_neg h)
    refine ⟨fun h => ⟨trap _ h, trap _ h, trap _ h⟩, fun h => ⟨?_, ?_, ?_⟩,
      fun _ => isFull_putFE_int _ d _ _ _ hd⟩
    · exact (result _ h).trans (by rw [ofNat_iDiv])
    · exact (result _ h).trans (by rw [ofNat_iRem])
    · exact (result _ h).trans (by rw [ofNat_iDivSat ty.uns (bits_pos ty.w)])
  · intro n x y t hi
    refine ⟨fun h => ?_, fun ⟨e, he, hz⟩ => ?_⟩
    · have result (f : Nat → Nat → Nat) : vDivide u ty f d a b s =
          .next (pended s u.dunit (qCount a + qCount b) (.vec u d (map2 n f x y)) t 0) :=
        (vDivide_eq u ty f d a b s ha hb).trans (if_pos ((zeroLanes_eq_zero_iff ty.w y).2 h))
      exact ⟨⟨_, result _, fun e he => (el_map2 n _ x y e he).trans (ofNat_iDiv ty.uns _ _)⟩,
        ⟨_, result _, fun e he => (el_map2 n _ x y e he).trans (ofNat_iDivSat ty.uns (bits_pos ty.w) _ _)⟩⟩
    · have zero : zeroLanes n y ≠ 0 := fun none => (zeroLanes_eq_zero_iff ty.w y).1 none e he hz
      have trap (f : Nat → Nat → Nat) : vDivide u ty f d a b s =
          raise s { s.ctx.trapInfo .idiv u.unit with lanes := some (zeroLanes n y) } :=
        (vDivide_eq u ty f d a b s ha hb).trans (if_neg zero)
      exact ⟨_, _, trap _, trap _, rfl, rfl, rfl, getLsbD_zeroLanes ty.w y⟩
  · obtain ⟨trap, files, flags, taken⟩ := raise_keeps h
    have ⟨_, ha, hi, hva, hvb, _⟩ := files
    refine ⟨trap, hi, hva, hvb, ha, flags, fun h1 h2 => ?_⟩
    obtain ⟨bytes, due, mem⟩ := taken h1 h2
    exact ⟨bytes, files, due, mem⟩

end Sys2Proof.Proofs

/-! SUPPORT. Taking a trap, a stop and a resume (R327, R328, R333, R336 to R338): what the memory system and the fabric
leave alone, the done bits that the end of a cycle sets, what a bundle counts, and what a context keeps over a stop. -/

namespace Sys2Proof.Proofs

open Sys2Proof Sys2Proof.Machine Sys2Proof.Safety Sys2Proof.Laws

/-! ### What the memory system and the fabric leave alone -/

/-- Contexts, launches, notices and the sweep are as they were: only memories, caches, cores and messages differ. -/
structure SameControl (s t : State) : Prop where
  ctx : t.ctx = s.ctx
  others : t.others = s.others
  launches : t.launches = s.launches
  notices : t.notices = s.notices
  sweep : t.sweep = s.sweep

theorem SameControl.refl (s : State) : SameControl s s := ⟨rfl, rfl, rfl, rfl, rfl⟩

theorem SameControl.trans {s t u : State} (h : SameControl s t) (k : SameControl t u) : SameControl s u :=
  ⟨k.ctx.trans h.ctx, k.others.trans h.others, k.launches.trans h.launches, k.notices.trans h.notices,
    k.sweep.trans h.sweep⟩

theorem SameControl.allCtx {s t : State} (h : SameControl s t) : t.allCtx = s.allCtx := by
  rw [State.allCtx, State.allCtx, h.ctx, h.others]

/-- A fold of steps that each leave them alone does too. -/
theorem SameControl.foldl {α : Type} {f : State → α → State} (h : ∀ s a, SameControl s (f s a)) (l : List α)
    (s : State) : SameControl s (l.foldl f s) :=
  List.foldlRecOn (motive := SameControl s) l f (.refl s) (fun t ht a _ => ht.trans (h t a))

theorem sameControl_memWrite (s : State) (map a : Nat) (bs : List Byte) : SameControl s (s.memWrite map a bs) :=
  ⟨rfl, rfl, rfl, rfl, rfl⟩

theorem sameControl_setTag (s : State) (map a : Nat) (t : Bool) : SameControl s (s.setTag map a t) :=
  ⟨rfl, rfl, rfl, rfl, rfl⟩

theorem sameControl_memWriteCap (s : State) (map a : Nat) (v : CapV) : SameControl s (s.memWriteCap map a v) := by
  have written (m : List Host.Cell) : SameControl s { s with mem := m } := ⟨rfl, rfl, rfl, rfl, rfl⟩
  exact (written _).trans (sameControl_setTag _ _ _ _)

theorem sameControl_onClus (s : State) (f : Cluster → Cluster) : SameControl s (s.onClus f) :=
  ⟨rfl, rfl, rfl, rfl, rfl⟩

theorem sameControl_modCore (s : State) (n : Nat) (f : Core → Core) : SameControl s (s.modCore n f) := by
  unfold State.modCore
  split <;> exact ⟨rfl, rfl, rfl, rfl, rfl⟩

theorem sameControl_focus (s : State) (cl n : Nat) : SameControl s (s.focus cl n) := ⟨rfl, rfl, rfl, rfl, rfl⟩

/-- Work at another core leaves them alone where the work itself does; the way there and back never touches them. -/
theorem sameControl_atCore {s : State} {cl n : Nat} {f : State → State}
    (h : SameControl (s.focus cl n) (f (s.focus cl n))) : SameControl s (s.atCore cl n f) :=
  (sameControl_focus s cl n).trans (h.trans (sameControl_focus _ _ _))

/-- After work at another core they are as the work left them. -/
theorem sameControl_atCore_work (s : State) (cl n : Nat) (f : State → State) :
    SameControl (f (s.focus cl n)) (s.atCore cl n f) := sameControl_focus _ _ _

/-! #### The cluster cache -/

theorem sameControl_writeBackLine (s : State) (x : Line) : SameControl s (s.writeBackLine x) := by
  refine (SameControl.foldl (fun t k => ?_) _ s).trans (SameControl.foldl (fun t g => ?_) _ _)
  · extract_lets d
    split
    · exact sameControl_memWrite _ _ _ _
    · exact SameControl.foldl (fun u o => sameControl_memWrite _ _ _ _) _ t
  · split
    · exact sameControl_setTag _ _ _ _
    · exact .refl t

theorem sameControl_writeBackReach (s : State) : SameControl s s.writeBackReach := by
  unfold State.writeBackReach
  exact (SameControl.foldl sameControl_writeBackLine _ s).trans (sameControl_onClus _ _)

theorem sameControl_dropL1 (s : State) (map n : Nat) : SameControl s (s.dropL1 map n) := ⟨rfl, rfl, rfl, rfl, rfl⟩

theorem sameControl_evictLine (s : State) (map n : Nat) : SameControl s (s.evictLine map n) := by
  unfold State.evictLine
  split
  · next x _ =>
    exact (sameControl_writeBackLine s x).trans ((sameControl_onClus _ _).trans (sameControl_dropL1 _ _ _))
  · exact sameControl_dropL1 s map n

theorem sameControl_homeReady (s : State) (map a n : Nat) : SameControl s (s.homeReady map a n) := by
  refine SameControl.foldl (fun t l => ?_) _ s
  split
  · exact sameControl_evictLine t map l
  · exact sameControl_dropL1 t map l

/-! #### The copy engine -/

theorem sameControl_devWrite (s : State) (loc : Loc) (a : Nat) (bs : List Byte) :
    SameControl s (s.devWrite loc a bs) := by
  cases loc with
  | loc k => exact sameControl_modCore _ _ _
  | mem map => exact sameControl_memWrite _ _ _ _

theorem sameControl_devWriteCap (s : State) (loc : Loc) (a : Nat) (v : CapV) :
    SameControl s (s.devWriteCap loc a v) := by
  cases loc with
  | loc k =>
    change SameControl s (s.laPutCap k a v)
    unfold State.laPutCap
    split <;> exact sameControl_modCore _ _ _
  | mem map => exact sameControl_memWriteCap s map a v

theorem sameControl_putByte (s : State) (c : Card) (i o : Nat) : SameControl s (s.putByte c i o).1 := by
  unfold State.putByte
  rcases s.cardPos c i o with ⟨pos, a⟩
  cases pos with
  | none => exact ⟨rfl, rfl, rfl, rfl, rfl⟩
  | some l =>
    dsimp -zeta only
    extract_lets s1
    have ready : SameControl s s1 := by
      cases l with
      | mem map => exact sameControl_homeReady s map a 1
      | loc _ => exact .refl s
    split
    · split
      · exact ready.trans (sameControl_devWriteCap s1 l a _)
      · exact ready
    · exact ready.trans (sameControl_devWrite s1 l a _)

theorem sameControl_putBytes (s : State) (c : Card) (i : Nat) (os : List Nat) : SameControl s (s.putBytes c i os).1 :=
  List.foldlRecOn (motive := fun (acc : State × BitVec 5) => SameControl s acc.1) os _ (SameControl.refl s)
    (fun acc h o _ => h.trans (sameControl_putByte acc.1 c i o))

theorem sameControl_cardCleans (s : State) (k i : Nat) (l : List Nat) : SameControl s (s.cardCleans k i l) := by
  unfold State.cardCleans State.cleanSectors
  split
  · extract_lets key hit keys
    split <;> exact ⟨rfl, rfl, rfl, rfl, rfl⟩
  · exact .refl s

theorem sameControl_flushLate (s : State) (k i : Nat) : SameControl s (s.flushLate k i) := by
  unfold State.flushLate
  split
  · exact .refl s
  · next c _ =>
    have put := sameControl_putBytes s c i (c.lateOf i)
    have mod (t : State) (f : Card → Card) : SameControl t (t.modCard k f) := ⟨rfl, rfl, rfl, rfl, rfl⟩
    exact put.trans ((mod _ _).trans (sameControl_cardCleans _ _ _ _))

theorem sameControl_flushCard (s : State) (k : Nat) : SameControl s (s.flushCard k) := by
  unfold State.flushCard
  split
  · exact .refl s
  · exact SameControl.foldl (fun t i => sameControl_flushLate t k i) _ s

theorem sameControl_flushCards (s : State) : SameControl s s.flushCards := by
  refine SameControl.foldl (fun t k => ?_) _ s
  split
  · split
    · exact sameControl_flushCard t k
    · exact .refl t
  · exact .refl t

/-! #### The save area (R334) -/

theorem sameControl_enterFrame (s : State) (f : Frame) : SameControl s (s.enterFrame f) := by
  unfold State.enterFrame
  extract_lets z
  split
  · exact ⟨rfl, rfl, rfl, rfl, rfl⟩
  · split <;> exact ⟨rfl, rfl, rfl, rfl, rfl⟩

theorem sameControl_touchExtent (s : State) (e : BufEntry) (ext : Nat) : SameControl s (s.touchExtent e ext) := by
  have alloc : SameControl s (s.allocFrame e ext) := by
    unfold State.allocFrame
    split
    · exact ⟨rfl, rfl, rfl, rfl, rfl⟩
    · exact .refl s
    · exact .refl s
  unfold State.touchExtent
  split
  · exact .refl s
  · extract_lets s1
    split
    · exact alloc.trans (sameControl_enterFrame _ _)
    · exact alloc

theorem sameControl_saveRange (s : State) (k : Core) (asid map dst o n : Nat) :
    SameControl s (s.saveRange k asid map dst o n) := by
  refine (sameControl_memWrite s _ _ _).trans (SameControl.foldl (fun t g => ?_) _ _)
  split
  · exact sameControl_setTag _ _ _ _
  · exact .refl t

theorem sameControl_writeSave (s : State) (c : Ctx) (k : Core) (stop : Nat) (fatal : Bool) :
    SameControl s (s.writeSave c k stop fatal) := by
  unfold State.writeSave
  split
  · exact .refl s
  · split
    · exact .refl s
    · next l _ e _ =>
      extract_lets b p s0 s1 cards s2 s3 s4
      have touched : SameControl s s0 := SameControl.foldl (fun t x => sameControl_touchExtent t e x) _ s
      have header : SameControl s0 s1 := sameControl_memWrite _ _ _ _
      have areas : SameControl s1 s2 := (sameControl_memWrite _ _ _ _).trans
        (SameControl.foldl (fun t (x : Nat × List Byte) => sameControl_memWrite t _ _ x.2) _ _)
      have tiles : SameControl s2 s3 := SameControl.foldl (fun t z => sameControl_memWrite t _ _ _) _ s2
      have array : SameControl s3 s4 := SameControl.foldl (fun t r => sameControl_saveRange t _ _ _ _ _ _) _ s3
      exact touched.trans (header.trans (areas.trans (tiles.trans (array.trans (sameControl_memWrite _ _ _ _)))))

theorem sameControl_restoreRange (s : State) (asid map src o n : Nat) :
    SameControl s (s.restoreRange asid map src o n) := by
  have start : SameControl s { s with core := s.core.laWrite o (s.memRead map src n) } := ⟨rfl, rfl, rfl, rfl, rfl⟩
  refine start.trans (SameControl.foldl (fun t g => ?_) _ _)
  split
  · exact ⟨rfl, rfl, rfl, rfl, rfl⟩
  · exact .refl t

/-- Tiles and scratchpad come back into the prepared core, and nothing else changes. -/
theorem sameControl_restoreCore (s : State) (l : Launch) (c : Ctx) (v : Saved) :
    SameControl (s.prepareCore c.place) (s.restoreCore l c v) := by
  unfold State.restoreCore
  extract_lets s0 k own b
  split
  extract_lets la k1 s1 p
  have scratch : SameControl s0 s1 := ⟨rfl, rfl, rfl, rfl, rfl⟩
  split
  · exact scratch
  · extract_lets tiles
    have tiled : SameControl s1 { s1 with core := { k1 with tiles := tiles } } := ⟨rfl, rfl, rfl, rfl, rfl⟩
    exact scratch.trans (tiled.trans (SameControl.foldl (fun t r => sameControl_restoreRange t _ _ _ _ _) _ _))

/-! #### The fabric (R372, R378) -/

theorem sameControl_sendFabric (s : State) (l : List Msg) : SameControl s (s.sendFabric l) := by
  unfold State.sendFabric
  split <;> exact ⟨rfl, rfl, rfl, rfl, rfl⟩

theorem sameControl_modGroup (s : State) (gid : Nat) (f : Group → Group) : SameControl s (s.modGroup gid f) :=
  ⟨rfl, rfl, rfl, rfl, rfl⟩

theorem sameControl_tellState (s : State) (g : Group) (st : MState) : SameControl s (s.tellState g st) :=
  (sameControl_modGroup _ _ _).trans (sameControl_sendFabric _ _)

theorem sameControl_memberFaulted (s : State) (g : Group) : SameControl s (s.memberFaulted g) :=
  (sameControl_modGroup _ _ _).trans (sameControl_sendFabric _ _)

theorem sameControl_launchFaulted (s : State) (launch asid : Nat) : SameControl s (s.launchFaulted launch asid) :=
  SameControl.foldl sameControl_memberFaulted _ s

theorem sameControl_endedWithJob (s : State) : SameControl s s.endedWithJob :=
  SameControl.foldl sameControl_memberFaulted _ s

theorem sameControl_tellPaused (s : State) (asid : Nat) (cards : List Card) :
    SameControl s (s.tellPaused asid cards) := by
  refine SameControl.foldl (fun t g => ?_) _ s
  split
  · exact sameControl_tellState _ _ _
  · exact .refl t

theorem sameControl_rejoin (s : State) (g : Group) (step : Nat) : SameControl s (s.rejoin g step) := by
  unfold State.rejoin
  refine SameControl.trans ?_ (sameControl_sendFabric _ _)
  exact ⟨rfl, rfl, rfl, rfl, rfl⟩

theorem sameControl_tellResumed (s : State) (asid : Nat) (cards : List Card) :
    SameControl s (s.tellResumed asid cards) := by
  refine SameControl.foldl (fun t g => ?_) _ s
  split
  · exact (sameControl_rejoin _ _ _).trans (sameControl_tellState _ _ _)
  · split
    · exact .refl t
    · exact sameControl_tellState _ _ _

/-! ### The abort of a launch and its done bit (R321, R338) -/

/-- The notice of an abort asks for done bit 60 in every context of the launch. -/
def Aborts (n : Notice) (id : Nat) : Prop := n = .abort id ∨ n = .again id

/-- Done bit 60 is set in every context of a launch. -/
def AbortSeen (s : State) (id : Nat) : Prop :=
  ∀ c ∈ s.allCtx, c.place.launch = id → c.phase ≠ .vacant → c.c.done.getLsbD 60 = true

theorem allCtx_mapCtx (s : State) (p : Ctx → Bool) (f : Ctx → Ctx) :
    (s.mapCtx p f).allCtx = s.allCtx.map (fun c => if p c then f c else c) := rfl

/-- A notice sets one done bit in the contexts that it concerns. -/
theorem applyNotice_sets (s : State) (n : Notice) :
    ∃ (p : Ctx → Bool) (k : Nat), s.applyNotice n = s.mapCtx p (fun c => c.setDone k) := by
  cases n <;> dsimp only [State.applyNotice, State.notifyRevoked] <;> exact ⟨_, _, rfl⟩

theorem getLsbD_setDone (c : Ctx) (k j : Nat) :
    (c.setDone k).c.done.getLsbD j = (c.c.done.getLsbD j || (decide (j < 64) && decide (k = j))) := by
  rw [Ctx.setDone_c, BitVec.getLsbD_or, BitVec.getLsbD_ofNat, Nat.testBit_two_pow]

theorem abortSeen_applyNotice {s : State} {id : Nat} (n : Notice) (h : AbortSeen s id) :
    AbortSeen (s.applyNotice n) id := by
  obtain ⟨p, k, eq⟩ := applyNotice_sets s n
  intro c hc hl hv
  rw [eq, allCtx_mapCtx] at hc
  obtain ⟨x, hx, rfl⟩ := List.mem_map.1 hc
  by_cases hp : p x
  · simp only [hp, if_true] at hl hv ⊢
    rw [getLsbD_setDone, h x hx hl hv, Bool.true_or]
  · simp only [hp] at hl hv ⊢
    exact h x hx hl hv

theorem abortSeen_of_aborts (s : State) {id : Nat} {n : Notice} (h : Aborts n id) : AbortSeen (s.applyNotice n) id := by
  have eq : s.applyNotice n =
      s.mapCtx (fun c => c.place.launch == id && c.phase != .vacant) (fun c => c.setDone 60) := by
    obtain rfl | rfl := h <;> rfl
  intro c hc hl hv
  rw [eq, allCtx_mapCtx] at hc
  obtain ⟨x, -, rfl⟩ := List.mem_map.1 hc
  by_cases hp : (x.place.launch == id && x.phase != .vacant) = true
  · simp only [hp, if_true]
    rw [getLsbD_setDone]
    simp
  · simp only [hp] at hl hv
    exact absurd (by simpa using ⟨hl, hv⟩) hp

theorem abortSeen_foldl {id : Nat} {l : List Notice} (h : ∃ n ∈ l, Aborts n id) (s : State) :
    AbortSeen (l.foldl State.applyNotice s) id := by
  obtain ⟨n, hn, ha⟩ := h
  obtain ⟨before, after, rfl⟩ := List.append_of_mem hn
  rw [List.foldl_append, List.foldl_cons]
  exact List.foldlRecOn (motive := fun t => AbortSeen t id) after _ (abortSeen_of_aborts _ ha)
    (fun _ ht m _ => abortSeen_applyNotice m ht)

theorem notices_abortLaunch (s : State) (id cause : Nat) :
    ∃ n, Aborts n id ∧ (s.abortLaunch id cause).notices = s.notices ++ [n] := by
  refine ⟨if s.abortOn id then .again id else .abort id, ?_, rfl⟩
  split
  · exact .inr rfl
  · exact .inl rfl

theorem notices_abortLaunches (l : List Launch) (cause : Nat) (s : State) {n : Notice} (h : n ∈ s.notices) :
    n ∈ (l.foldl (fun s (x : Launch) => s.abortLaunch x.id cause) s).notices :=
  List.foldlRecOn (motive := fun (t : State) => n ∈ t.notices) l _ h (fun t ht x _ => by
    obtain ⟨m, -, eq⟩ := notices_abortLaunch t x.id cause
    exact eq ▸ List.mem_append_left _ ht)

/-- As a cycle ends, an abort noted in it has set done bit 60 in every context of its launch. -/
theorem abortSeen_endCycle {s : State} {id : Nat} (h : ∃ n ∈ s.notices, Aborts n id) : AbortSeen s.endCycle id := by
  obtain ⟨n, hn, ha⟩ := h
  exact abortSeen_foldl ⟨n, notices_abortLaunches _ 0x12 _ (notices_abortLaunches _ 0x11 s hn), ha⟩ _

/-! ### A fatal fault (R328, R337, R338) -/

/-- The context of a fatal fault. -/
def frozen (c : Ctx) : Ctx :=
  { c with
    phase := .frozen, due := [], ports := [], wait := { CtxWait.clear with crev := c.wait.crev }
    st := { c.st with dump := true }
    mem := { c.mem with outs := c.mem.outs.filter (fun x => !x.isLoad), pend := [] } }

/-- A freeze is the freeze of the context and the abort of its launch. -/
theorem sameControl_freeze (s : State) :
    SameControl ((s.onCtx frozen).abortLaunch s.ctx.place.launch 0x10) s.freeze :=
  sameControl_launchFaulted _ _ _

theorem freeze_ctx (s : State) : s.freeze.ctx = frozen s.ctx := (sameControl_freeze s).ctx

theorem freeze_notices (s : State) : ∃ n ∈ s.freeze.notices, Aborts n s.ctx.place.launch := by
  obtain ⟨n, ha, eq⟩ := notices_abortLaunch (s.onCtx frozen) s.ctx.place.launch 0x10
  exact ⟨n, by rw [(sameControl_freeze s).notices, eq]; simp, ha⟩

theorem mem_launches_modLaunch {s : State} {id : Nat} {f : Launch → Launch} {m : Launch} :
    m ∈ (s.modLaunch id f).launches ↔ ∃ l ∈ s.launches, (if l.id == id then f l else l) = m := List.mem_map

theorem abortLaunch_not_running {s : State} {id cause : Nat} {m : Launch} (hm : m ∈ (s.abortLaunch id cause).launches)
    (h : m.id = id) : m.state ≠ .running := by
  obtain ⟨l, -, rfl⟩ := mem_launches_modLaunch.1 hm
  by_cases hl : l.id = id
  · simp only [hl, beq_self_eq_true, if_true]
    cases hs : l.state with
    | aborting c t => simp [hs]
    | running => simp
    | stopped c => simp
  · simp only [beq_iff_eq, hl, if_false] at h

theorem abortLaunch_aborts_running {s : State} {id cause : Nat} {l : Launch} (hl : l ∈ s.launches) (h : l.id = id)
    (run : l.state = .running) :
    ∃ m ∈ (s.abortLaunch id cause).launches, m.id = l.id ∧ m.state = .aborting cause (s.ticks + l.lrec.timeout) := by
  refine ⟨{ l with state := .aborting cause (s.ticks + l.lrec.timeout) },
    mem_launches_modLaunch.2 ⟨l, hl, ?_⟩, rfl, rfl⟩
  simp only [h, beq_self_eq_true, if_true, run]

/-! ### What a bundle counts (R14) -/

/-- A landing result changes no count of bundles and nothing of the bundle that issues. -/
structure SameIssue (c d : Ctx) : Prop where
  bundles : d.st.bundles = c.st.bundles
  bun : d.bun = c.bun

theorem SameIssue.refl (c : Ctx) : SameIssue c c := ⟨rfl, rfl⟩

theorem SameIssue.trans {c d e : Ctx} (h : SameIssue c d) (k : SameIssue d e) : SameIssue c e :=
  ⟨k.bundles.trans h.bundles, k.bun.trans h.bun⟩

theorem SameIssue.foldl {α : Type} {f : Ctx → α → Ctx} (h : ∀ c a, SameIssue c (f c a)) (l : List α) (c : Ctx) :
    SameIssue c (l.foldl f c) :=
  List.foldlRecOn (motive := SameIssue c) l f (.refl c) (fun d hd a _ => hd.trans (h d a))

theorem sameIssue_setVf (c : Ctx) (u : VUnit) (f : VFile) : SameIssue c (c.setVf u f) := by
  cases u <;> exact ⟨rfl, rfl⟩

theorem sameIssue_putReg (c : Ctx) (w : RegWrite) (t : Taint) : SameIssue c (c.putReg w t) := by
  cases w with
  | pred n v =>
    dsimp only [Ctx.putReg]
    split <;> exact ⟨rfl, rfl⟩
  | addr n v =>
    dsimp only [Ctx.putReg]
    split <;> exact ⟨rfl, rfl⟩
  | int n v =>
    dsimp only [Ctx.putReg]
    split <;> exact ⟨rfl, rfl⟩
  | vec u n v =>
    dsimp only [Ctx.putReg]
    split <;> exact sameIssue_setVf c u _
  | mask u n v => exact sameIssue_setVf c u _
  | wsum u n v => exact sameIssue_setVf c u _
  | wsinc u n w i st => exact sameIssue_setVf c u _
  | _ => exact ⟨rfl, rfl⟩

theorem sameIssue_putLatch (c : Ctx) (w : RegWrite) (t : Taint) : SameIssue c (c.putLatch w t) := by
  cases w with
  | pred n v =>
    dsimp only [Ctx.putLatch]
    split <;> exact ⟨rfl, rfl⟩
  | loop n v lt =>
    dsimp only [Ctx.putLatch]
    split <;> exact ⟨rfl, rfl⟩
  | vec u n v => exact sameIssue_setVf c u _
  | mask u n v => exact sameIssue_setVf c u _
  | wsum u n v => exact sameIssue_setVf c u _
  | wsinc u n w i st => exact sameIssue_setVf c u _
  | _ => exact ⟨rfl, rfl⟩

theorem sameIssue_landEntry (c : Ctx) (e : DueEntry) : SameIssue c (c.landEntry e) := by
  have regs : SameIssue c (e.writes.foldl (fun c w => c.putReg w e.taint) c) :=
    SameIssue.foldl (fun d w => sameIssue_putReg d w e.taint) _ c
  have flags (d : Ctx) (f : BitVec 5) : SameIssue d (d.raiseFlags f) := ⟨rfl, rfl⟩
  unfold Ctx.landEntry
  extract_lets c1 c2
  have latch : SameIssue c1 c2 := by
    cases h : e.writes with
    | nil => simp only [c2, h]; exact .refl _
    | cons w r => simp only [c2, h]; exact sameIssue_putLatch _ w _
  exact regs.trans (latch.trans (flags _ _))

theorem sameIssue_landExpired (c : Ctx) : SameIssue c c.landExpired :=
  (SameIssue.foldl sameIssue_landEntry _ c).trans ⟨rfl, rfl⟩

theorem sameIssue_landHandler (c : Ctx) : SameIssue c c.landHandler :=
  (SameIssue.foldl sameIssue_landEntry _ c).trans ⟨rfl, rfl⟩

/-- The end of a bundle counts it; what it places stays named. -/
theorem afterIssue_counts (c : Ctx) : c.afterIssue.st.bundles = c.st.bundles + 1 ∧ c.afterIssue.bun = c.bun := by
  unfold Ctx.afterIssue
  extract_lets _ c1 c2
  have aged : SameIssue c1 c2 :=
    SameIssue.trans (d := c1.ageDue c1.bun.hand) ⟨rfl, rfl⟩ (sameIssue_landExpired _)
  split
  · have landed := aged.trans (sameIssue_landHandler c2)
    exact ⟨landed.bundles, landed.bun⟩
  · exact ⟨aged.bundles, aged.bun⟩

theorem sameIssue_testDue (s : State) (p : DueEntry → Bool) : SameIssue s.ctx (s.testDue p).ctx := by
  unfold State.testDue
  split <;> exact ⟨rfl, rfl⟩

theorem noteIssue_ctx (s : State) (units : List UnitId) (reads : Nat) : (s.noteIssue units reads).ctx = s.ctx := by
  unfold State.noteIssue
  dsimp only
  split
  · rw [State.mapCtx_ctx, if_neg (by simp)]
  · rfl

/-- A bundle whose context goes on running counts one, whatever it lands. -/
theorem commit_counts {s u : State} {ws : List Instr} (commit : s.commit ws = u) (h : s.ctx.bun.post = none)
    (run : u.ctx.phase = .running) : u.ctx.st.bundles = s.ctx.st.bundles + 1 := by
  revert commit
  unfold State.commit
  extract_lets s0 s1 s2 s3
  have tested : SameIssue s.ctx s0.ctx := sameIssue_testDue s _
  have issued : s2.ctx = s0.ctx.afterIssue := noteIssue_ctx _ _ _
  obtain ⟨count, bun⟩ := afterIssue_counts s0.ctx
  have post : s2.ctx.bun.post = none := by rw [issued, bun, tested.bun, h]
  have shape : s3 = if s2.ctx.phase == Phase.frozen then s2.freeze else s2 := by simp only [s3, post]
  clear_value s2 s3
  rintro rfl
  cases phase : s3.ctx.phase with
  | running =>
    have going : ¬ (s2.ctx.phase == Phase.frozen) = true := by
      intro frz
      rw [shape, if_pos frz, freeze_ctx] at phase
      cases phase
    rw [shape, if_neg going, issued, count, tested.bundles]
  | ended =>
    simp only [phase, (sameControl_endedWithJob _).ctx, State.onCtx_ctx, Ctx.afterEnd, Ctx.endCtx] at run
    cases run
  | waiting =>
    simp only [phase, (sameControl_endedWithJob _).ctx, State.onCtx_ctx, Ctx.afterEnd] at run
    cases run
  | frozen =>
    simp only [phase, State.onCtx_ctx, Ctx.afterEnd] at run
    cases run
  | vacant =>
    simp only [phase] at run
    cases run
  | stopped =>
    simp only [phase] at run
    cases run

/-! ### What a context keeps over a stop and a resume (R333, R336) -/

/-- What a stop and a resume bring back of handler mode: the mode, the held entries, the saved path and where the next
bundle stands. -/
structure SameHandling (c d : Ctx) : Prop where
  handler : d.handler = c.handler
  due : d.due = c.due
  savedPath : d.savedPath = c.savedPath
  pc : d.pc = c.pc

theorem settleResults_keeps (s : State) (h1 : s.ctx.mem.pend = []) (h2 : s.ctx.mem.xlats = []) :
    SameHandling s.ctx s.settleResults.ctx := by
  unfold State.settleResults Ctx.fillXlats
  simp only [h1, h2, List.length_nil, List.range_zero, List.foldl_nil, List.filter_nil, State.onCtx_ctx]
  exact ⟨rfl, rfl, rfl, rfl⟩

theorem saveContext_keeps (s : State) (code : StopCode) (h1 : s.ctx.mem.pend = []) (h2 : s.ctx.mem.xlats = []) :
    SameHandling s.ctx (s.saveContext code).ctx := by
  unfold State.saveContext
  extract_lets s0 sv s1 _ s2
  have flushed : s0.ctx = s.settleResults.ctx :=
    ((sameControl_flushCards _).trans (sameControl_writeBackReach _)).ctx
  have saved : s1.ctx = s0.ctx := by
    simp only [s1]
    split
    · exact (sameControl_writeSave _ _ _ _ _).ctx
    all_goals rfl
  have same : s2.ctx = s.settleResults.ctx := saved.trans flushed
  have settled := settleResults_keeps s h1 h2
  rw [← same] at settled
  clear_value s2 sv
  change SameHandling s.ctx (State.tellPaused _ _ _).ctx
  rw [(sameControl_tellPaused _ _ _).ctx]
  exact ⟨settled.handler, settled.due, settled.savedPath, settled.pc⟩

/-- A stop that is asked for, of a running context of a launch that is not under an abort, saves it. -/
theorem execContextStop_saves {code : StopCode} {s : State} {l : Launch} (cur : s.curLaunch = some l)
    (stop : l.state = .stopped code) (on : s.power.phase = .on) (run : s.ctx.phase = .running)
    (ready : s.savable = true) :
    execContextStop code s = .next (s.saveContext code) := by
  have found : s.launchOf s.ctx.place.launch = some l := cur
  have asked : s.stopRequested s.ctx code = true := by simp [State.stopRequested, on, found, stop]
  simp [execContextStop, run, asked, ready, cur, stop, Phase.resident, LState.isAborting]

theorem enter_of_quiet {s : State} (h : s.sweep.active = false) (asid : Nat) : s.enter asid = id := by
  funext v
  simp [State.enter, h]

theorem mapCap_id (w : RegWrite) : w.mapCap id = w := by cases w <;> rfl

/-- A test that clears no tag leaves the due entries as they are. -/
theorem mapCaps_id_due (c : Ctx) : (c.mapCaps id).due = c.due := by
  have entry (e : DueEntry) : { e with writes := e.writes.map (RegWrite.mapCap id) } = e := by
    rw [show RegWrite.mapCap id = id from funext mapCap_id, List.map_id]
  exact (List.map_congr_left (fun e _ => entry e)).trans (List.map_id _)

/-- Whether `x` is the saved context that comes back as `c`. -/
def standsFor (c x : Ctx) : Bool := x.phase.isStopped && x.sameAs c

theorem loseRegion_standsFor {s : State} {c : Ctx} (asid r : Nat) (h : ∃ x ∈ s.allCtx, standsFor c x = true) :
    ∃ x ∈ (s.loseRegion asid r).allCtx, standsFor c x = true := by
  obtain ⟨x, hx, hc⟩ := h
  rw [State.loseRegion, allCtx_mapCtx]
  refine ⟨_, List.mem_map.2 ⟨x, hx, rfl⟩, ?_⟩
  split
  · split <;> exact hc
  · exact hc

/-- The preparation of a core may count lost regions of contexts there; the saved context still stands in its place. -/
theorem prepareCore_standsFor {s : State} {c : Ctx} (p : Place) (h : ∃ x ∈ s.allCtx, standsFor c x = true) :
    ∃ x ∈ (s.prepareCore p).allCtx, standsFor c x = true :=
  List.foldlRecOn (motive := fun (t : State) => ∃ x ∈ t.allCtx, standsFor c x = true) p.regions _ h
    (fun t ht r _ => by
      unfold State.giveRegion
      split
      · exact ht
      · exact loseRegion_standsFor p.asid r ht)

/-- The context `d` of a resume: it stands where `c` stood in its launch, in handler mode as `c` was. -/
structure Resumed (c d : Ctx) : Prop extends SameHandling c d where
  launch : d.place.launch = c.place.launch
  clord : d.place.clord = c.place.clord
  core : d.place.core = c.place.core
  slot : d.place.slot = c.place.slot

theorem resumeAt_brings_back {s : State} (l : Launch) {c : Ctx} (v : Saved) (cl : Nat) (quiet : s.sweep.active = false)
    (here : ∃ x ∈ s.allCtx, standsFor c x = true) : ∃ d ∈ (s.resumeAt l c v cl).allCtx, Resumed c d := by
  unfold State.resumeAt
  have flushed : SameControl s (s.atCore v.cluster c.place.core State.writeBackReach) :=
    sameControl_atCore (sameControl_writeBackReach _)
  rw [(sameControl_atCore_work _ _ _ _).allCtx]
  have moved := flushed.trans (sameControl_focus _ cl c.place.core)
  generalize (State.focus _ cl c.place.core) = t at moved ⊢
  extract_lets alone lost _ st _ place back s1 waits _
  rw [(sameControl_tellResumed _ _ _).allCtx]
  have here' : ∃ x ∈ t.allCtx, standsFor c x = true := by rw [moved.allCtx]; exact here
  have stands : ∃ x ∈ s1.allCtx, standsFor c x = true := by
    cases hp : v.phase with
    | running =>
      simp only [s1, hp]
      rw [(sameControl_restoreCore _ _ _ _).allCtx]
      exact prepareCore_standsFor _ here'
    | waiting =>
      simp only [s1, hp]
      exact prepareCore_standsFor _ here'
    | _ =>
      simp only [s1, hp]
      exact here'
  obtain ⟨x, hx, hc⟩ := stands
  have mem : back ∈ s1.allCtx.map (fun x => if waits x then back else x) := List.mem_map.2 ⟨x, hx, if_pos hc⟩
  refine ⟨back, mem, ⟨rfl, ?_, rfl, rfl⟩, rfl, rfl, rfl, rfl⟩
  have id_enter : t.enter c.place.asid = id := enter_of_quiet (by rw [moved.sweep]; exact quiet) _
  simp only [back, id_enter]
  exact mapCaps_id_due _

theorem mem_of_savedAt {s : State} {id clord core slot : Nat} {c : Ctx} {v : Saved}
    (h : s.savedAt id clord core slot = some (c, v)) : c ∈ s.allCtx ∧ c.phase.isStopped = true := by
  unfold State.savedAt at h
  split at h
  · next d hd =>
    obtain ⟨w, -, eq⟩ := Option.map_eq_some_iff.1 h
    obtain rfl : d = c := congrArg Prod.fst eq
    have stopped := List.mem_filter.1 (List.mem_of_find?_eq_some hd)
    exact ⟨stopped.1, by simpa using (Bool.and_eq_true_iff.1 stopped.2).2⟩
  · cases h

/-- A saved context that may come back to a running launch does. -/
theorem execContextResume_resumes {id clord core slot : Nat} {s : State} {l : Launch} {c : Ctx} {v : Saved}
    (found : s.launchOf id = some l) (saved : s.savedAt id clord core slot = some (c, v)) (may : s.mayResume l = true)
    (run : l.state = .running) (followed : s.followed c v = true)
    (up : (s.findCluster ((l.clusters[clord]?).getD c.place.cluster)).shed = false) :
    execContextResume id clord core slot s =
      .next (s.resumeAt l c v ((l.clusters[clord]?).getD c.place.cluster)) := by
  simp [execContextResume, found, saved, may, run, followed, up, LState.isAborting, LState.isStopped]

/-! ### A trap is taken

The fault record is an argument of what follows, so that no proof evaluates the numbers that make it up. -/

/-- A trap outside handler mode, with a handler, changes the current context alone (R327). -/
theorem takeTrap_enters {s : State} {h : Nat} (i : TrapInfo) (mode : s.ctx.handler = false)
    (named : s.ctx.place.handler = some h) :
    s.takeTrap i = s.withCtx (atHandler (recorded s.ctx (frecBits i s.ctx.st.bundles)) h) := by
  simp only [State.takeTrap, mode, named, State.onCtx, State.withCtx, atHandler, recorded]

/-- Any other trap freezes the context, its fault record written (R328). -/
theorem takeTrap_freezes {s : State} (i : TrapInfo) (fatal : s.ctx.handler = true ∨ s.ctx.place.handler = none) :
    s.takeTrap i = (s.withCtx (recorded s.ctx (frecBits i s.ctx.st.bundles))).freeze := by
  simp only [takeTrap_fatal s i fatal, State.onCtx, State.withCtx, recorded]

theorem handler_begins (s : State) (record : BitVec 512) (h : Nat) :
    let t := s.withCtx (atHandler (recorded s.ctx record) h)
    t.ctx.pc = h ∧ t.ctx.handler = true ∧ t.ctx.savedPath = s.ctx.path ∧ t.ctx.path = 0 ∧ t.ctx.due = s.ctx.due ∧
      t.ctx.st = { s.ctx.st with frec := record } ∧ t.ctx.mem = s.ctx.mem ∧ t.ctx.phase = s.ctx.phase ∧
      SameFiles s.ctx t.ctx ∧ OnlyCtx s t ∧ SameBytes s t :=
  ⟨rfl, rfl, rfl, rfl, rfl, rfl, rfl, rfl, (atHandler_recorded_keeps s.ctx record h).1, rfl,
    sameBytes_onCtx s (fun _ => atHandler (recorded s.ctx record) h)⟩

theorem frozen_recorded_discards (c : Ctx) (record : BitVec 512) :
    (frozen (recorded c record)).phase = .frozen ∧ (frozen (recorded c record)).due = [] ∧
      (frozen (recorded c record)).pc = c.pc ∧ (frozen (recorded c record)).st.frec = record ∧
      ∀ x ∈ (frozen (recorded c record)).mem.outs, x.isLoad = false :=
  ⟨rfl, rfl, rfl, rfl, fun x hx => by simpa using (List.mem_filter.1 hx).2⟩

theorem fatal_fault_freezes (s : State) (record : BitVec 512) :
    let t := (s.withCtx (recorded s.ctx record)).freeze
    t.ctx.phase = .frozen ∧ t.ctx.due = [] ∧ t.ctx.pc = s.ctx.pc ∧ t.ctx.st.frec = record ∧
      (∀ x ∈ t.ctx.mem.outs, x.isLoad = false) ∧ SameFiles s.ctx t.ctx ∧
      (∀ l ∈ t.launches, l.id = s.ctx.place.launch → l.state ≠ .running) ∧
      (∀ l ∈ s.launches, l.id = s.ctx.place.launch → l.state = .running →
        ∃ m ∈ t.launches, m.id = l.id ∧ m.state = .aborting 0x10 (s.ticks + l.lrec.timeout)) ∧
      AbortSeen t.endCycle s.ctx.place.launch := by
  intro t
  have context : t.ctx = frozen (recorded s.ctx record) := freeze_ctx _
  have files : SameFiles s.ctx t.ctx := (sameFiles_freeze _ _).2 (recorded_keeps s.ctx record).1
  have abort : SameControl _ t := sameControl_freeze (s.withCtx (recorded s.ctx record))
  have told : ∃ n ∈ t.notices, Aborts n s.ctx.place.launch := freeze_notices (s.withCtx (recorded s.ctx record))
  clear_value t
  obtain ⟨phase, due, pc, frec, outs⟩ := frozen_recorded_discards s.ctx record
  rw [← context] at phase due pc frec outs
  refine ⟨phase, due, pc, frec, outs, files, fun l hl => ?_, fun l hl hid run => ?_, abortSeen_endCycle told⟩
  · rw [abort.launches] at hl
    exact abortLaunch_not_running hl
  · rw [abort.launches]
    exact abortLaunch_aborts_running hl hid run

/-- Settles O12: `takeTrap_enters` and `takeTrap_freezes` say which of the two a trap is; `saveContext_keeps` and
`resumeAt_brings_back` keep handler mode over a stop and a resume. -/
theorem trapTaken : Obligations.TrapTaken := by
  refine ⟨fun s i h mode named => ?_, fun s i fatal => ?_, fun code s l cur stop on run pend xlats ready => ?_,
    fun id clord core slot s l c v found saved may run quiet followed up => ?_, fun s ws => commit_counts rfl⟩
  · rw [takeTrap_enters i mode named]
    exact handler_begins s _ h
  · rw [takeTrap_freezes i fatal]
    exact fatal_fault_freezes s _
  · obtain ⟨handler, due, path, pc⟩ := saveContext_keeps s code pend xlats
    exact ⟨_, execContextStop_saves cur stop on run ready, handler, due, path, pc⟩
  · obtain ⟨mem, stopped⟩ := mem_of_savedAt saved
    have stands : standsFor c c = true := by simp [standsFor, stopped, Ctx.sameAs]
    obtain ⟨d, hd, back⟩ := resumeAt_brings_back l v _ quiet ⟨c, mem, stands⟩
    exact ⟨_, d, execContextResume_resumes found saved may run followed up, hd, back.launch, back.clord, back.core,
      back.slot, back.handler, back.due, back.savedPath, back.pc⟩

end Sys2Proof.Proofs

/-! SUPPORT. Patterns of enabled slots (R408): the bits of a pattern, and a change to one cluster that need not be the
current one leaves every other cluster alone. -/

namespace Sys2Proof.Proofs

open Sys2Proof Sys2Proof.Machine

theorem getLsbD_slotPattern (k : Nat) {n : Nat} (hn : n < 16) :
    (slotPattern k).getLsbD n = true ↔ n * k / 16 < (n + 1) * k / 16 := by
  unfold slotPattern
  rw [BitVec.getLsbD_ofNat, testBit_ofElems_one _ n (by simpa using hn)]
  simp [hn, apply_ite (· % 2)]

/-- A region and a cap that leave at least one slot: the count is the least of the three limits. -/
theorem slotsFor_eq_min {s : State} {c : Nat} (region : 1 ≤ (s.regionOf (clusterRegion c)).slots)
    (cap : 1 ≤ s.mgmt.pcap) :
    s.slotsFor c = min (min (s.regionOf (clusterRegion c)).slots s.mgmt.pcap) 16 := by
  unfold State.slotsFor
  omega

/-! ### A cluster that need not be the current one -/

theorem findCluster_num (s : State) (n : Nat) : (s.findCluster n).num = n := by
  unfold State.findCluster
  cases found : (s.clus :: s.clusters).find? (fun (k : Cluster) => k.num == n) with
  | none => rfl
  | some k => simpa using List.find?_some found

theorem find?_num_filter_ne (l : List Cluster) {m n : Nat} (h : m ≠ n) :
    (l.filter (fun (k : Cluster) => k.num != n)).find? (fun k => k.num == m) = l.find? (fun k => k.num == m) := by
  rw [List.find?_filter]
  congr 1
  funext k
  by_cases hk : k.num = m
  · simp [hk, h]
  · simp [hk]

/-- The clusters of a state whose current cluster stands in place of cluster `n` of another. -/
theorem findCluster_current {s t : State} {n : Nat} (num : t.clus.num = n)
    (rest : t.clusters = (s.clus :: s.clusters).filter (fun (k : Cluster) => k.num != n)) (m : Nat) :
    t.findCluster m = if m = n then t.clus else s.findCluster m := by
  unfold State.findCluster
  rw [List.find?_cons, num]
  split_ifs with h
  · simp [h]
  · have other : (n == m) = false := beq_eq_false_iff_ne.2 (Ne.symm h)
    simp only [other, rest, find?_num_filter_ne _ h]

@[simp] theorem findCluster_focus (s : State) (cl n m : Nat) : (s.focus cl n).findCluster m = s.findCluster m := by
  rw [findCluster_current (s := s) (findCluster_num s cl) rfl]
  split_ifs with h
  · exact h ▸ rfl
  · rfl

/-- A change that keeps a cluster's number falls on that cluster alone. -/
theorem findCluster_putCluster (s : State) (cl m : Nat) {f : Cluster → Cluster} (keeps : ∀ x, (f x).num = x.num) :
    (s.putCluster cl f).findCluster m = if m = cl then f (s.findCluster cl) else s.findCluster m := by
  unfold State.putCluster State.atCore
  rw [findCluster_focus]
  exact findCluster_current (s := s) ((keeps _).trans (findCluster_num s cl)) rfl m

/-! ### PATTERN_CHANGE -/

theorem patternChange_between_boundaries (c k : Nat) {s : State} (h : s.cycle % 16 ≠ 0) :
    exec (.patternChange c k) s = .next s :=
  if_neg fun all => h all.1

/-- At a boundary a cluster takes the pattern of its slot count, and no other cluster changes. -/
theorem patternChange_at_boundary {c : Nat} {s : State} (hc : c < 192) (h : s.cycle % 16 = 0) :
    ∃ u, exec (.patternChange c (s.slotsFor c)) s = .next u ∧ ∀ m, u.findCluster m =
      if m = c then { s.findCluster c with pattern := slotPattern (s.slotsFor c) } else s.findCluster m := by
  have clusters (m : Nat) := findCluster_putCluster s c m
    (f := fun x => { x with pattern := slotPattern (s.slotsFor c) }) (fun _ => rfl)
  refine ⟨_, if_pos ⟨h, rfl, hc⟩, ?_⟩
  split
  · exact clusters
  · exact clusters

/-- Settles O58: `getLsbD_slotPattern` reads a pattern's bits; `findCluster_putCluster` says what a change of one cluster
does to each. -/
theorem patternFollowsSlots : Obligations.PatternFollowsSlots := by
  refine ⟨fun k n _ _ hn => getLsbD_slotPattern k hn, by decide, by decide, by decide, by decide,
    fun s c region cap => slotsFor_eq_min region cap, fun c k s h => patternChange_between_boundaries c k h,
    fun c s hc h => ?_⟩
  obtain ⟨u, run, clusters⟩ := patternChange_at_boundary hc h
  refine ⟨u, run, ?_, fun m hm => (clusters m).trans (if_neg hm)⟩
  rw [clusters c, if_pos rfl]

end Sys2Proof.Proofs
